-- ==== Sys2Proof/Word.lean ====
section
/-! DEFINITION. Bytes, words and the plain bit arithmetic of the model (R5, R6): every multi-byte value is
little-endian and bit 0 of a field is its least significant bit. Register contents and wide fields are held as
natural numbers below two to their width; bytes of memory are eight-bit vectors. -/

namespace Sys2Proof

/-- A byte of a memory, a message or a serial stream. -/
abbrev Byte := BitVec 8

/-- Bits `[hi:lo]` of `x`, both ends included (Table 0.4). -/
def bitsOf (x hi lo : Nat) : Nat := (x >>> lo) % 2 ^ (hi + 1 - lo)

/-- `x` with its bits `[hi:lo]` replaced by the low bits of `v`. -/
def putBits (x hi lo v : Nat) : Nat :=
  x - (bitsOf x hi lo) * 2 ^ lo + (v % 2 ^ (hi + 1 - lo)) * 2 ^ lo

/-- `x` with bit `i` set to `v`. -/
def putBit (x i : Nat) (v : Bool) : Nat :=
  if x.testBit i then (if v then x else x - 2 ^ i) else (if v then x + 2 ^ i else x)

/-- The value of a bit as a number. -/
def b2n (v : Bool) : Nat := if v then 1 else 0

/-- The little-endian value of a list of bytes (R6). -/
def bytesVal : List Byte → Nat
  | [] => 0
  | b :: bs => b.toNat + 256 * bytesVal bs

/-- The `n` little-endian bytes of `x` (R6). -/
def bytesOf : Nat → Nat → List Byte
  | 0, _ => []
  | n + 1, x => BitVec.ofNat 8 x :: bytesOf n (x / 256)

/-- `x` cut down to `n` bytes. -/
def cutBytes (n x : Nat) : Nat := x % 256 ^ n

/-- Bytes `off` to `off + n - 1` of the value `x`. -/
def byteSlice (x off n : Nat) : Nat := (x >>> (8 * off)) % 256 ^ n

/-- `x` with its bytes `off` to `off + n - 1` replaced. -/
def putBytes (x off n v : Nat) : Nat := putBits x (8 * (off + n) - 1) (8 * off) v

/-- Addition that stays at a counter's largest value. -/
def satAdd (x d top : Nat) : Nat := min (x + d) top

/-- The two's-complement reading of an `n`-bit value. -/
def signedOf (n x : Nat) : Int := if x % 2 ^ n < 2 ^ (n - 1) then (x % 2 ^ n : Nat) else (x % 2 ^ n : Nat) - 2 ^ n

/-- The `n`-bit two's-complement form of an integer. -/
def unsignedOf (n : Nat) (v : Int) : Nat := (v % (2 ^ n : Nat)).toNat

/-- The smallest multiple of `m` that is at least `x`. -/
def roundUp (x m : Nat) : Nat := ((x + m - 1) / m) * m

/-- The number of bits of `x`, out of the first `n`, that are one. -/
def popCount : Nat → Nat → Nat
  | 0, _ => 0
  | n + 1, x => b2n (x.testBit n) + popCount n x

/-- The odd parity of the first `n` bits of `x`: their exclusive or. -/
def parityOf (n x : Nat) : Bool := popCount n x % 2 == 1

/-- The positions of the ones among the first `n` bits of `x`, lowest first. -/
def onesOf (n x : Nat) : List Nat := (List.range n).filter x.testBit

/-- The number whose ones are at the listed positions. -/
def maskOf : List Nat → Nat
  | [] => 0
  | i :: is => putBit (maskOf is) i true

/-- Element `i` of a list, or `d`. -/
def nthD {α : Type} : List α → Nat → α → α
  | [], _, d => d
  | x :: _, 0, _ => x
  | _ :: xs, n + 1, d => nthD xs n d

/-- A list with its element `i` replaced, where it has one. -/
def putNth {α : Type} : List α → Nat → α → List α
  | [], _, _ => []
  | _ :: xs, 0, v => v :: xs
  | x :: xs, n + 1, v => x :: putNth xs n v

/-- A list cut into rows of `n` elements, at most `fuel` rows. -/
def rowsOf {α : Type} (n : Nat) : Nat → List α → List (List α)
  | 0, _ => []
  | _ + 1, [] => []
  | fuel + 1, x :: xs => (x :: xs).take n :: rowsOf n fuel ((x :: xs).drop n)

/-- The least element of a list of numbers. -/
def leastOf : List Nat → Option Nat
  | [] => none
  | x :: xs => match leastOf xs with
    | none => some x
    | some y => some (min x y)

/-- The element with the least key; of equal keys, the first. -/
def leastBy {α : Type} (key : α → Nat) : List α → Option α
  | [] => none
  | x :: xs => match leastBy key xs with
    | none => some x
    | some y => if key x ≤ key y then some x else some y

/-- The sum of a list of numbers. -/
def sumOf : List Nat → Nat
  | [] => 0
  | x :: xs => x + sumOf xs

end Sys2Proof
end

