-- ==== Sys2Proof/Syntax.lean ====
section
/-! DEFINITION. The commands of the block: one constructor per row of the table of operations and events, with the
row's operands. A time operand `t` is the moment at which the event falls, counted in periods of the 28.8 GHz root
(R419) since the release of PORn; the REFCLK edge is its quotient by 288 and the cricket tick its quotient by 28,800. -/

namespace Sys2Proof

/-- The transport that carries a management message (R395, R402, R405): mailbox channel `ch`, or CAN port `port`
with the frame's SOURCE. Channels 0 to 31 are the host's, 32 to 63 arrive over links. -/
inductive Via where
  | mailbox (ch : Nat)
  | can (port : Nat) (source : Nat)
  /-- The SETTINGS segment of a device image (R376). -/
  | settings
  deriving DecidableEq, Repr

/-- The forms of a CAN frame (R402): FD with a 29-bit or an 11-bit identifier, or classic. -/
inductive CanForm where
  | fdExtended
  | fdBase
  | classic
  deriving DecidableEq, Repr

/-- The form and the identifier of a CAN frame, of whose 29 bits a base identifier uses the upper 11. -/
structure CanId where
  form : CanForm
  id : BitVec 29
  deriving DecidableEq, Repr

/-- Who commands a context operation (R97, R190): the host through CMD_OP, the scarab that owns the region, or the
relocation of R241. -/
inductive Who where
  | host
  | scarab
  | relocation
  deriving DecidableEq, Repr

/-- Why a migration is abandoned (R233, R235): an access error or limit with its completion status, or a cause of the
device's own. -/
inductive AbandonCause where
  | status (code : Nat)
  | entryChanged
  | noFrame
  | cancelled
  | timeout
  | retired
  | fence
  deriving DecidableEq, Repr

/-- One 64-byte DAT beat (R256): its data, and of its sideband POISON, MASK, FIRST, LAST and STATUS. The sideband fields that every
beat of a packet shares stand beside the list of beats. -/
structure Beat where
  data : BitVec 512
  poison : Bool
  mask : BitVec 64
  first : Bool := false
  last : Bool := false
  status : BitVec 4 := 0
  deriving DecidableEq, Repr

/-- 130 received bits of a lane that are compared with the comma (R291), and the raw bit position at which they start. -/
structure AlignMatch where
  pos : Nat
  bits : BitVec 130
  deriving DecidableEq, Repr

/-- What a training burst brings on a link (R302): the comma found on each of its lanes, in their order, and the time at which each came. -/
structure Burst where
  lk : Nat
  found : List AlignMatch
  arrivals : List Nat
  deriving DecidableEq, Repr

/-- The commands of the block, one per row of the opcode table. -/
inductive Instr where
  /-- REGISTER_WRITE (R387): A dictionary write to an object that has no row of its own is checked and takes effect whole at one steward edge, or is aborted. -/
  | registerWrite (via : Via) (idx : Nat) (sub : Nat) (len : Nat) (val : Nat)
  /-- GLOBAL_ACCESS (R22): An access to a global address is decoded, then served locally or sent towards its node by the route table. -/
  | globalAccess (ini : Nat) (addr : Nat) (size : Nat) (write : Bool) (data : Nat) (fromLink : Bool) (t : Nat)
  /-- LATE_COMPLETION (R28): A completion that becomes visible after its transaction has closed is discarded, counted and logged with its ledger count. -/
  | lateCompletion (ini : Nat) (tag : Nat) (status : Nat) (beats : Nat)
  /-- FABRIC_EDGE (R36): At each unskipped fabric clock edge every flip-flop of an active plane updates from set or reset, its data source, or holds. -/
  | fabricEdge (t : Nat)
  /-- REGION_RESET (R38): A region reset loads every flip-flop of the region's active plane from its INIT bit at the next fabric edge. -/
  | regionReset (r : Nat) (v : Nat)
  /-- LOAD (R78): A load of one region context from the context library into a slot is checked, makes the slot LOADING and is queued for a load engine. -/
  | load (who : Who) (r : Nat) (slot : Nat) (src : Nat) (kernel : Nat) (image : Nat) (sig : Nat) (map : Nat)
  /-- LOAD_ENGINE_START (R79): A queued load, clear or copy starts on a load engine once one becomes free, in arrival order. -/
  | loadEngineStart (die : Nat)
  /-- LOAD_END (R81): A load ends, leaving the slot LOADED, or cleared and EMPTY with POISON, MALFORMED or RETIRED. -/
  | loadEnd (r : Nat) (slot : Nat) (t : Nat)
  /-- PREFETCH (R66): A prefetch of a slot into the shadow plane is checked against the slot condition, completes at once if already READY, or starts its 8 beats. -/
  | prefetch (who : Who) (r : Nat) (slot : Nat)
  /-- PREFETCH_END (R67): Beat 7 of a prefetch ends and the shadow plane becomes READY, or TAINTED with the slot DAMAGED and status POISON. -/
  | prefetchEnd (r : Nat) (t : Nat)
  /-- SWITCH (R73): A switch request is refused for an EMPTY or TAINTED shadow plane, or waits for the conditions of the switch edge. -/
  | switch (who : Who) (rs : List Nat)
  /-- SWITCH_EDGE (R69): At the first fabric edge at which the switch conditions hold in every region of the span, active and shadow planes exchange roles. -/
  | switchEdge (r : Nat) (t : Nat)
  /-- WRITE_BACK (R75): After a switch the outgoing plane's state bits of STATE_KEEP cells are written back into their slot, or skipped if uncorrectable. -/
  | writeBack (r : Nat) (t : Nat)
  /-- CLEAR (R83): A clear of a slot is checked against the slot condition and starts writing blank records into every record of the slot. -/
  | clear (who : Who) (r : Nat) (slot : Nat)
  /-- CLEAR_END (R83): A clear ends, leaving the slot EMPTY with its descriptor at defaults except GEN and PIN. -/
  | clearEnd (r : Nat) (slot : Nat) (t : Nat)
  /-- COPY (R84): A copy from a source slot on the same configuration die is checked and queued for a load engine. -/
  | copy (who : Who) (r : Nat) (slot : Nat) (fromR : Nat) (fromSlot : Nat)
  /-- COPY_END (R84): A copy ends, leaving the target LOADED with OK or DAMAGED with POISON. -/
  | copyEnd (r : Nat) (slot : Nat) (t : Nat)
  /-- CAPTURE_REQ (R91): A capture request for a region is accepted, aborted if one is pending, or fails for a sleeping or retiring region. -/
  | captureReq (r : Nat) (v : Nat)
  /-- CAPTURE_EDGE (R91): At the first fabric edge after the request with no switch or reset, the flip-flops of the span freeze for one cycle and their state is taken. -/
  | captureEdge (r : Nat) (t : Nat)
  /-- CAPTURE_END (R94): The capture buffer is complete 4 configuration-die cycles after the capture edge, with its slot and timestamp. -/
  | captureEnd (r : Nat) (t : Nat)
  /-- PIN_MASK (R98): A write to PIN_MASK takes effect at once in every slot descriptor of the region. -/
  | pinMask (r : Nat) (v : Nat)
  /-- BORDER_MAP (R113): A write to a slot's border map is checked for reserved codes, mode and active use, and stored. -/
  | borderMap (r : Nat) (slot : Nat) (map : Nat)
  /-- MEMORY_REQUEST (R120): A memory request that passes at the bridge is translated through the page map and sent by the memory port or the riser path. -/
  | memoryRequest (r : Nat) (tag : Nat) (write : Bool) (line : Nat) (mask : BitVec 64) (data : BitVec 512) (t : Nat)
  /-- MEMORY_COMPLETION (R120): The bridge presents a memory request's completion with its tag, status and data on the port wires. -/
  | memoryCompletion (r : Nat) (tag : Nat) (t : Nat)
  /-- STREAM_OUT_PACKET (R121): A stream-out packet whose last beat has arrived is packed into DAT beats and sent to its route, or refused TOO_LONG or by its route. -/
  | streamOutPacket (r : Nat) (ch : Nat) (beats : List (BitVec 256)) (t : Nat)
  /-- STREAM_IN_PACKET (R122): A stream-in packet is delivered to the region in stream beats while its run is active there, or refused ACCESS_DENIED. -/
  | streamInPacket (r : Nat) (sb : BitVec 128) (beats : List Beat) (taken : Nat) (t : Nat)
  /-- DONE_END (R125): The anchor presents DONE_VALID with REQUEST END, giving the run's status and result. -/
  | doneEnd (r : Nat) (w : BitVec 32) (t : Nat)
  /-- DONE_YIELD (R203): A DONE_WORD with REQUEST YIELD makes the run PREEMPTING and drains its bridges for requeueing bound. -/
  | doneYield (r : Nat) (w : BitVec 32) (t : Nat)
  /-- DONE_PHASE (R204): A DONE_WORD with REQUEST PHASE makes the run SWITCHING to make the images of the new phase resident and switch the set. -/
  | donePhase (r : Nat) (w : BitVec 32) (t : Nat)
  /-- REGION_NAP (R126): At a cricket tick a region idle for IDLE_NAP_US enters Nap and releases its budget. -/
  | regionNap (r : Nat) (t : Nat)
  /-- REGION_SLEEP (R89): At a cricket tick a region idle for IDLE_SLEEP_US with no prefetch, write-back or capture enters Sleep and loses its planes. -/
  | regionSleep (r : Nat) (t : Nat)
  /-- REGION_WAKE_END (R126): A region granted its wake from Nap or Sleep becomes Active after its wake time. -/
  | regionWakeEnd (r : Nat) (t : Nat)
  /-- RUN_END (R30): Once DONE with END is presented and every ledger entry of the run is closed, the scarab learns the run has ended. -/
  | runEnd (run : Nat) (t : Nat)
  /-- SHOOTDOWN_CMD (R143): The host starts a shootdown of the page map entry in SHOOTDOWN_ENTRY on the SNP network. -/
  | shootdownCmd (v : Nat)
  /-- BANK_WIPE (R155): A host wipe of a bank drains its accepted accesses and starts clearing VALID and POISON of every line. -/
  | bankWipe (bank : Nat)
  /-- FRAME_WIPE (R156): A wipe of one frame clears its lines' state and invalidates them in the port caches while other frames are served. -/
  | frameWipe (frame : Nat)
  /-- WIPE_COMPLETE (R155): A bank or frame wipe completes and its status is written to WIPE_STATUS. -/
  | wipeComplete (t : Nat)
  /-- PATROL_VISIT (R160): The patrol scrubber visits its next line in an idle slot, votes its state and decodes and corrects valid lines. -/
  | patrolVisit (t : Nat)
  /-- REPAIR_WALK_END (R162): The repair walk of an armed column ends and reads take that position from SPARE. -/
  | repairWalkEnd (bank : Nat) (t : Nat)
  /-- RETIRE_BANK (R163): A write of RETIRE_BANK makes a bank that is not retired DRAINING. -/
  | retireBank (bank : Nat) (t : Nat)
  /-- COUNTER_CLEAR (R163): A write of COUNTER_CLEAR clears the bank's error counters and returns a PROPOSED bank to IN_SERVICE. -/
  | counterClear (bank : Nat) (v : Nat)
  /-- BANK_RETIRE (R164): A draining bank with no mapped page left and its grace passed becomes RETIRED, its frames cleared and capacity reduced. -/
  | bankRetire (bank : Nat) (t : Nat)
  /-- DMA_PROD (R169): A write to DMA_PROD is checked against the ring and accepted as the new producer index or refused and counted. -/
  | dmaProd (ch : Nat) (v : Nat)
  /-- DMA_DESCRIPTOR (R171): A channel whose consumer and producer indices differ reads the next descriptor, checks it and starts the transfer. -/
  | dmaDescriptor (ch : Nat) (t : Nat)
  /-- DMA_DESCRIPTOR_END (R173): A descriptor ends once its requests have completed; its status is written back, the index advanced and the channel continues or halts. -/
  | dmaDescriptorEnd (ch : Nat) (t : Nat)
  /-- DMA_RESUME (R173): RESUME returns a HALTED channel to RUNNING at DMA_CONS. -/
  | dmaResume (ch : Nat)
  /-- DMA_ABORT (R173): ABORT makes a RUNNING channel issue nothing further and end its descriptor ABORTED_BY_HOST. -/
  | dmaAbort (ch : Nat)
  /-- DMA_RESET (R173): RESET sets the channel's indices to 0 and clears its doorbell status. -/
  | dmaReset (ch : Nat)
  /-- DMA_ENABLE (R173): A write of DMA_ENABLE enables a channel whose ring is valid, or acts as ABORT when written 0 while RUNNING. -/
  | dmaEnable (ch : Nat) (v : Nat)
  /-- KERNEL_UPDATE (R179): KERNEL_UPDATE drops a kernel from every kernel cache, clears its last set and clears its non-active slots. -/
  | kernelUpdate (k : Nat)
  /-- SQ_PROD (R184): A doorbell write to SQ_PROD is accepted and wakes the intake scarab, or is refused as an overrun. -/
  | sqProd (ring : Nat) (v : Nat)
  /-- CQ_CONS (R184): A write to CQ_CONS advances the consumer index up to CQ_PROD, letting stalled completion records be written, or is refused. -/
  | cqCons (ring : Nat) (v : Nat)
  /-- INTAKE (R185): The intake scarab takes the next submission ring entry, reads and checks it with its kernel descriptor, and enters the run or refuses it. -/
  | intake (ring : Nat) (t : Nat)
  /-- COMPLETION_RECORD (R187): An ended run's completion record is written to its completion ring when space allows, the entry freed and the MSI-X sent. -/
  | completionRecord (run : Nat) (t : Nat)
  /-- NOT_BEFORE_DUE (R191): At a cricket tick every delayed run whose NOT_BEFORE has come moves to the tail of its ready list. -/
  | notBeforeDue (t : Nat)
  /-- DISPATCH_EVALUATION (R194): A scarab evaluates the heads of its ready lists and dispatches by the first rule of Table 6.9 that succeeds. -/
  | dispatchEvaluation (k : Nat) (t : Nat)
  /-- START_EDGE (R196): At the first fabric edge at which every region of the chosen set is ready, the set switches and START_VALID is presented. -/
  | startEdge (run : Nat) (t : Nat)
  /-- RESERVE (R197): A head run that has waited RESERVE_US reserves a candidate set. -/
  | reserve (k : Nat) (prio : Nat) (t : Nat)
  /-- PREEMPTION (R199): At a cricket tick a qualifying victim of a higher-priority reservation is set PREEMPTING once the preempting contexts are staged. -/
  | preemption (run : Nat) (t : Nat)
  /-- PREEMPT_CANCEL (R201): A preemption whose start edge has not come within PREEMPT_LIMIT_US is cancelled and the victim continues. -/
  | preemptCancel (run : Nat) (t : Nat)
  /-- RUN_ABORT (R205): A write of a run index to RUN_ABORT ends the run with ABORTED_BY_HOST, draining it if active. -/
  | runAbort (run : Nat) (t : Nat)
  /-- THIEF_ROUND (R206): At a cricket tick an idle scarab probes others by torus distance and steals one eligible run. -/
  | thiefRound (k : Nat) (t : Nat)
  /-- RUN_RETIRED (R209): A run in flight in a retired or fenced region ends its attempt RETIRED and restarts or completes. -/
  | runRetired (run : Nat) (t : Nat)
  /-- SCARAB_TRAP (R211): A scarab whose microcode fetch traps becomes TRAPPED, opens its lists and hands its brood to a deputy. -/
  | scarabTrap (k : Nat) (addr : Nat) (t : Nat)
  /-- SCARAB_DRAIN (R212): CONTROL DRAIN makes a scarab DRAINING with a deputy taking its work. -/
  | scarabDrain (k : Nat)
  /-- SCARAB_HALTED (R212): A DRAINING scarab becomes HALTED once its lists are empty and none of its runs is STARTING. -/
  | scarabHalted (k : Nat) (t : Nat)
  /-- SCARAB_RESTART (R212): CONTROL RESTART returns a HALTED or TRAPPED scarab to RUNNING at the next tick, taking its brood back. -/
  | scarabRestart (k : Nat) (t : Nat)
  /-- PROPOSAL_POP (R213): PROPOSAL_POP removes the head placement proposal. -/
  | proposalPop (v : Nat)
  /-- PLACE (R214): The host command PLACE dispatches or resumes a run with a given anchor and completes at the start edge. -/
  | place (run : Nat) (anchor : Nat) (t : Nat)
  /-- STEAL (R214): The host command STEAL moves a READY unbound run to a named scarab. -/
  | steal (run : Nat) (target : Nat) (t : Nat)
  /-- PREEMPT (R214): The host command PREEMPT drains a RUNNING run and makes it PREEMPTED and bound, or cancels with TIMEOUT. -/
  | preempt (run : Nat) (t : Nat)
  /-- SAMPLE (R221): A memory port sample delivered to the home scarab adds to the heat record of its page map entry. -/
  | sample (k : Nat) (entry : Nat) (die : Nat) (t : Nat)
  /-- EPOCH_END (R222): At each sample epoch end every scarab evaluates its heat table for migration candidates and halves the counts. -/
  | epochEnd (t : Nat)
  /-- POOL_ADD (R225): POOL_CMD add checks a frame and starts its wipe before adding it to the frame pool. -/
  | poolAdd (frame : Nat)
  /-- POOL_ADD_END (R225): The wipe of an added frame ends and its pool bit is set. -/
  | poolAddEnd (t : Nat)
  /-- POOL_REMOVE (R225): POOL_CMD remove takes a frame out of the pool. -/
  | poolRemove (frame : Nat)
  /-- MIGRATION_START (R228): A migration takes a slot and performs CLAIM, marking the entry MIG by conditional update. -/
  | migrationStart (k : Nat) (t : Nat)
  /-- MIGRATION_STEP_DONE (R228): A migration step that took time completes and the next step of Table 7.2 begins. -/
  | migrationStepDone (m : Nat) (t : Nat)
  /-- MIGRATION_ABANDON (R233): A migration before SWITCH is abandoned on a cause of Table 7.4 and undone. -/
  | migrationAbandon (m : Nat) (cause : AbandonCause) (t : Nat)
  /-- MIGRATION_TIMEOUT (R233): MIG_LIMIT_US passing since CLAIM abandons the migration with TIMEOUT. -/
  | migrationTimeout (m : Nat) (t : Nat)
  /-- HMIG_GO (R239): The host orders a migration of an entry to a destination, checked and run in a slot. -/
  | hmigGo (v : Nat) (t : Nat)
  /-- HMIG_CANCEL (R235): HMIG_CANCEL abandons the migration in a named slot. -/
  | hmigCancel (m : Nat) (t : Nat)
  /-- PROP_POP (R238): PROP_POP removes the head migration proposal. -/
  | propPop (v : Nat)
  /-- DRAIN_SCAN (R240): A scarab scans every page map for entries naming a draining bank and migrates, logs or proposes them. -/
  | drainScan (bank : Nat) (t : Nat)
  /-- READ (R254): A REQ READ arriving at its destination is checked and performed, returning RDATA or RCOMP. -/
  | read (flit : BitVec 128) (t : Nat)
  /-- WRITE (R254): A REQ WRITE header arriving at its destination is checked against egress capacity and paired with its data. -/
  | write (flit : BitVec 128) (t : Nat)
  /-- CAS (R255): A CAS arriving at a memory tap performs a conditional update and answers WCOMP with MATCH. -/
  | cas (flit : BitVec 128) (t : Nat)
  /-- WDATA (R256): A WDATA packet is paired with its header, performed at the target and completed by WCOMP. -/
  | wdata (sb : BitVec 128) (beats : List Beat) (t : Nat)
  /-- RDATA (R257): An RDATA packet delivered to its initiator gives the read data and the final status on its last beat. -/
  | rdata (sb : BitVec 128) (beats : List Beat) (t : Nat)
  /-- STREAM (R260): A STREAM packet at the stream resolver is forwarded to the anchor of its running run or refused. -/
  | stream (sb : BitVec 128) (beats : List Beat) (t : Nat)
  /-- WCOMP (R258): A WCOMP delivered to an initiator closes its write transaction with status and beats. -/
  | wcomp (flit : BitVec 64) (t : Nat)
  /-- RCOMP (R258): An RCOMP delivered to an initiator closes a read that returns no data. -/
  | rcomp (flit : BitVec 64) (t : Nat)
  /-- SACK (R259): A SACK acknowledges an SNP command; the sender's operation completes when all are in. -/
  | sack (flit : BitVec 64) (t : Nat)
  /-- LEDGER (R258): A LEDGER flit reaches initiator 368 and is logged as a ledger fault. -/
  | ledger (flit : BitVec 64) (t : Nat)
  /-- SHOOTDOWN (R143): A SHOOTDOWN reaching a tap drops the entry in its translation buffers and is acknowledged once prior requests are performed. -/
  | shootdown (hdr : BitVec 64) (entry : Nat)
  /-- MIG_FENCE (R230): A migration fence at each port drops the entry and holds refills of it until lifted. -/
  | migFence (hdr : BitVec 64) (entry : Nat)
  /-- MIG_LIFT (R228): MIG_LIFT releases the fence and stalled refills read the new entry. -/
  | migLift (hdr : BitVec 64) (entry : Nat)
  /-- SEAM_FENCE (R267): A SEAM_FENCE command raises or lowers the fence on the ports of a seam at stations and bridges. -/
  | seamFence (hdr : BitVec 64)
  /-- TRACKER_ARM (R237): A tracker request arms a free tracker on the source frame and answers TRACKER_ARMED. -/
  | trackerArm (hdr : BitVec 64) (frame : Nat)
  /-- TRACKER_TAKE (R228): A tracker take reads and clears the dirty bitmap in one access and answers TRACKER_BITS. -/
  | trackerTake (hdr : BitVec 64)
  /-- TRACKER_DISARM (R228): A tracker disarm frees the tracker. -/
  | trackerDisarm (hdr : BitVec 64)
  /-- FRAME_REQ (R237): A frame request at the pool keeper chooses a destination frame and answers FRAME_GRANT. -/
  | frameReq (hdr : BitVec 64)
  /-- RELEASE (R237): A RELEASE at the source node wipes the source frame and returns it to its pool. -/
  | release (hdr : BitVec 64) (frame : Nat)
  /-- TRACKER_ARMED (R237): The answer that a tracker is armed reaches the migrating scarab. -/
  | trackerArmed (hdr : BitVec 64) (t : Nat)
  /-- TRACKER_BITS (R228): The dirty bitmap answer reaches the migrating scarab for chunk copies. -/
  | trackerBits (hdr : BitVec 64) (bits : BitVec 256) (t : Nat)
  /-- FRAME_GRANT (R237): A frame grant, or refusal, reaches the requesting scarab. -/
  | frameGrant (hdr : BitVec 64) (frame : Nat) (t : Nat)
  /-- HDR_DISCARD (R266): A flit with uncorrectable routing fields is discarded where found, counted and logged. -/
  | hdrDiscard (station : Nat) (net : Nat) (t : Nat)
  /-- STATION_GATE (R271): A station idle for STATION_GATE_NS is clock-gated. -/
  | stationGate (station : Nat) (t : Nat)
  /-- STATS_CLEAR (R272): STATS_CLEAR sets every initiator count to 0 at one network edge. -/
  | statsClear (v : Nat)
  /-- DETECT_PASS (R290): Signal detect asserted unbroken for 1 µs passes DETECT. -/
  | detectPass (l : Nat) (t : Nat)
  /-- EQ_PASS (R290): Receive equaliser convergence passes EQ. -/
  | eqPass (l : Nat) (t : Nat)
  /-- CDR_PASS (R290): The phase-tracking loop in lock for 1 µs passes CDR. -/
  | cdrPass (l : Nat) (t : Nat)
  /-- ALIGN_PASS (R291): Three successive comma matches at the right spacing pass ALIGN and fix polarity. -/
  | alignPass (l : Nat) (found : List AlignMatch) (t : Nat)
  /-- POLARITY_PASS (R290): POLARITY passes at the next block boundary. -/
  | polarityPass (l : Nat) (t : Nat)
  /-- ORDER_PASS (R292): Four successive TRAIN blocks giving the same LANE on every lane fix straight or reversed order, or fail. -/
  | orderPass (lk : Nat) (t : Nat)
  /-- DESKEW_PASS (R293): One comma measured on every lane sets each lane's delay, or fails beyond 32 blocks. -/
  | deskewPass (lk : Nat) (arrivals : List Nat) (t : Nat)
  /-- FEC_PASS (R294): Three successive codewords decoding passes FEC and the lane sends LOCKED. -/
  | fecPass (l : Nat) (t : Nat)
  /-- LANE_UP (R294): A locked lane whose partner shows LOCKED goes UP and sends the link stream. -/
  | laneUp (l : Nat) (t : Nat)
  /-- STAGE_FAIL (R295): A stage not passed within STAGE_LIMIT_US fails and returns the lane to DETECT, stepping the rate down after repeated failure. -/
  | stageFail (l : Nat) (t : Nat)
  /-- CODEWORD (R286): A received codeword is decoded, counted and corrected, or its blocks are marked. -/
  | codeword (l : Nat) (syms : List Nat) (t : Nat)
  /-- TRAIN (R282): A TRAIN block received reports the partner's progress and carries tap requests to apply and answer. -/
  | train (l : Nat) (hdr : BitVec 2) (blk : BitVec 128) (t : Nat)
  /-- IDLE (R281): An IDLE control block is received and carries nothing. -/
  | idle (l : Nat) (hdr : BitVec 2) (blk : BitVec 128) (t : Nat)
  /-- EIOS (R301): A received EIOS puts the lane into IDLE at the end of its codeword. -/
  | eios (l : Nat) (blk : BitVec 128) (t : Nat)
  /-- KEEPALIVE (R341): A valid KEEPALIVE received refreshes the partner's keep-alive. -/
  | keepalive (lk : Nat) (blk : BitVec 128) (t : Nat)
  /-- CDR_LOSS (R288): Loss of lock switches the receive domain to the root clock, marks blocks invalid and takes the lane out of UP. -/
  | cdrLoss (l : Nat) (t : Nat)
  /-- SIGNAL_LOSS (R299): Signal detect deasserted without EIOS takes an UP lane to DETECT. -/
  | signalLoss (l : Nat) (t : Nat)
  /-- ALIGNMENT_LOSS (R299): Three alignment slots without a match, or 16 uncorrectable codewords, return an UP lane to ALIGN. -/
  | alignmentLoss (l : Nat) (t : Nat)
  /-- TRAINING_BURST (R302): A training burst detected on an IDLE lane relocks it and takes it UP at the first comma. -/
  | trainingBurst (burst : Burst) (t : Nat)
  /-- LANE_EN (R298): A write of LANE_EN starts bring-up of a lane in OFF or puts the lane in OFF. -/
  | laneEn (l : Nat) (v : Nat) (t : Nat)
  /-- LANE_RESTART (R299): LANE_CMD RESTART restarts a lane's bring-up from DETECT at RATE_MAX. -/
  | laneRestart (l : Nat) (t : Nat)
  /-- STEP (R297): LANE_CMD STEP steps every lane of the link to the next rate and restarts bring-up. -/
  | step (l : Nat) (t : Nat)
  /-- TEST (R308): LANE_CMD TEST puts the lane into pattern test. -/
  | test (l : Nat) (t : Nat)
  /-- TEST_STOP (R308): LANE_CMD TEST_STOP ends pattern test and starts bring-up from DETECT. -/
  | testStop (l : Nat) (t : Nat)
  /-- EYE_GO (R307): EYE_GO starts an eye monitor count. -/
  | eyeGo (l : Nat) (v : Nat)
  /-- EYE_COUNT_END (R307): An eye count ends and its disagreements and status are written. -/
  | eyeCountEnd (l : Nat) (errors : Nat) (t : Nat)
  /-- REQ (R317): A REQ container received carries REQ flits to proxy. -/
  | req (lk : Nat) (c : BitVec 576) (t : Nat)
  /-- HEAD_W (R318): A HEAD_W container opens a W packet on the link. -/
  | headW (lk : Nat) (c : BitVec 576) (t : Nat)
  /-- MASK (R318): A MASK container gives the masks of the next 8 beats. -/
  | mask (lk : Nat) (c : BitVec 576) (t : Nat)
  /-- DATA_W (R318): A DATA_W container carries one beat of a W packet. -/
  | dataW (lk : Nat) (c : BitVec 576) (t : Nat)
  /-- DATA_W_P (R318): A DATA_W_P container carries one poisoned beat of a W packet. -/
  | dataWP (lk : Nat) (c : BitVec 576) (t : Nat)
  /-- ABORT_W (R338): An ABORT_W container stands for one beat not sent. -/
  | abortW (lk : Nat) (c : BitVec 576) (t : Nat)
  /-- HEAD_D (R318): A HEAD_D container opens an RDATA packet on the link. -/
  | headD (lk : Nat) (c : BitVec 576) (t : Nat)
  /-- DATA_D (R318): A DATA_D container carries one read beat. -/
  | dataD (lk : Nat) (c : BitVec 576) (t : Nat)
  /-- DATA_D_P (R318): A DATA_D_P container carries one poisoned read beat. -/
  | dataDP (lk : Nat) (c : BitVec 576) (t : Nat)
  /-- TAIL_D (R318): A TAIL_D container gives the final status of an RDATA packet. -/
  | tailD (lk : Nat) (c : BitVec 576) (t : Nat)
  /-- RSP (R317): An RSP container carries completion flits back to their proxy or egress record. -/
  | rsp (lk : Nat) (c : BitVec 576) (t : Nat)
  /-- NULL (R317): A NULL container carries only a credit return. -/
  | null (lk : Nat) (c : BitVec 576) (t : Nat)
  /-- SNP_K (R317): An SNP_K container carries one SNP command. -/
  | snpK (lk : Nat) (c : BitVec 576) (t : Nat)
  /-- SNP_A (R317): An SNP_A container carries one SNP answer. -/
  | snpA (lk : Nat) (c : BitVec 576) (t : Nat)
  /-- ACK (R327): An ACK frees acknowledged containers from the replay buffer. -/
  | ack (lk : Nat) (blk : BitVec 128) (t : Nat)
  /-- NAK (R327): A NAK makes the transmitter replay from the sequence expected. -/
  | nak (lk : Nat) (blk : BitVec 128) (t : Nat)
  /-- INIT (R322): An INIT block is checked and brings the link into ACTIVE, or is refused. -/
  | init (lk : Nat) (blk : BitVec 128) (t : Nat)
  /-- LANES (R338): A LANES block reports the partner's lanes UP and changes the active set at an alignment slot. -/
  | lanes (lk : Nat) (blk : BitVec 128) (t : Nat)
  /-- FLUSH (R336): A received FLUSH discards the class's buffered containers, answers them and sends FLUSH_ACK. -/
  | flush (lk : Nat) (blk : BitVec 128) (t : Nat)
  /-- FLUSH_ACK (R336): A FLUSH_ACK resets the transmitter's credits of the class to the full allocation. -/
  | flushAck (lk : Nat) (blk : BitVec 128) (t : Nat)
  /-- FLUSH_START (R335): A write of a FLUSH bit discards unstarted packets, aborts a begun W packet and sends FLUSH. -/
  | flushStart (lk : Nat) (v : Nat) (t : Nat)
  /-- TIME_REQ (R352): A parent answers a TIME_REQ with TIME_RSP carrying its swarm time and turn time. -/
  | timeReq (lk : Nat) (blk : BitVec 128) (t : Nat) (frac : Nat) (turn : Nat)
  /-- TIME_RSP (R352): A child computes delay and offset from TIME_RSP and steps or slews SWARM_OFFSET. -/
  | timeRsp (lk : Nat) (blk : BitVec 128) (t : Nat) (frac : Nat)
  /-- IDLE_REQ (R340): A received IDLE_REQ is answered IDLE_ACK if the link is quiet on this side too. -/
  | idleReq (lk : Nat) (blk : BitVec 128) (t : Nat)
  /-- IDLE_ACK (R340): A received IDLE_ACK makes the requester send EIOS. -/
  | idleAck (lk : Nat) (blk : BitVec 128) (t : Nat)
  /-- ACK_TIMER (R327): 0.5 µs after accepting an unacknowledged container, an ACK is sent. -/
  | ackTimer (lk : Nat) (t : Nat)
  /-- NAK_REPEAT (R325): Every 2 µs while waiting after a CRC failure a further NAK is sent. -/
  | nakRepeat (lk : Nat) (t : Nat)
  /-- REPLAY_TIMEOUT (R327): 4 µs without ACK progress starts a replay; the eighth in succession restarts the lanes into RECOVERY. -/
  | replayTimeout (lk : Nat) (t : Nat)
  /-- KEEPALIVE_TIMER (R341): 10 µs without sending a container sends a KEEPALIVE. -/
  | keepaliveTimer (lk : Nat) (t : Nat)
  /-- KEEPALIVE_TIMEOUT (R342): 30 µs with nothing accepted declares the partner lost with LOSS_CAUSE 2. -/
  | keepaliveTimeout (lk : Nat) (t : Nat)
  /-- SIGNAL_LOSS_TIMEOUT (R342): Signal absent on every lane for 4 µs without EIOS declares the partner lost with LOSS_CAUSE 1. -/
  | signalLossTimeout (lk : Nat) (t : Nat)
  /-- LINK_IDLE_TIMER (R340): A link quiet for LINK_IDLE_US sends IDLE_REQ. -/
  | linkIdleTimer (lk : Nat) (t : Nat)
  /-- IDLE_KEEPALIVE_EXIT (R340): An IDLE link leaves idle at least every 1 ms to exchange a KEEPALIVE. -/
  | idleKeepaliveExit (lk : Nat) (t : Nat)
  /-- IDLE_EXIT_TIMEOUT (R340): A link leaving IDLE that is not ACTIVE within 30 µs declares the partner lost with LOSS_CAUSE 5. -/
  | idleExitTimeout (lk : Nat) (t : Nat)
  /-- HOLDOFF_EXPIRY (R348): ROUTE_HOLDOFF_US after a PATH_LOST the link is usable again for that node. -/
  | holdoffExpiry (node : Nat) (lk : Nat) (t : Nat)
  /-- ADAPT_SWITCH (R347): With ADAPT_MODE 1, CUR moves to the least-queued usable choice at an edge with nothing outstanding. -/
  | adaptSwitch (node : Nat) (t : Nat)
  /-- NODE_LOST (R349): A node unreachable for NODE_LOST_US is declared lost, releasing trackers and abandoning migrations. -/
  | nodeLost (node : Nat) (t : Nat)
  /-- NODE_ID (R345): A write of NODE_ID while every link is DISABLED or DOWN changes the node ID in force. -/
  | nodeId (v : Nat)
  /-- TIME_INTERVAL (R352): Every TIME_INTERVAL_US a child sends TIME_REQ and records t1. -/
  | timeInterval (t : Nat) (frac : Nat)
  /-- TIME_RSP_TIMEOUT (R353): A TIME_RSP not arrived within 100 µs is discarded. -/
  | timeRspTimeout (t : Nat)
  /-- FRAME (R365): A configuration frame is decrypted, checked and written to its target, or fails, is retried or fails the package. -/
  | frame (bytes : List Byte) (t : Nat)
  /-- PUSH_WRITE (R360): A write to the BAR2 push window is taken at PUSH_NEXT or discarded. -/
  | pushWrite (off : Nat) (bytes : List Byte) (t : Nat)
  /-- IMAGE_LIMIT (R371): A device image attempt exceeding its time limit fails with TIMEOUT. -/
  | imageLimit (t : Nat)
  /-- PUSH_LIMIT (R371): No push byte for PUSH_LIMIT_MS exceeds the image attempt's limit. -/
  | pushLimit (t : Nat)
  /-- GLOBAL_START (R377): At the first cricket tick after the boot runs are entered the fabric starts, boot runs get START_VALID and DONE rises. -/
  | globalStart (t : Nat)
  /-- PKG_CONTEXT_INSTALL (R379): PKG_CMD 1 installs a context package into the context library. -/
  | pkgContextInstall (t : Nat)
  /-- PKG_FW_INSTALL_A (R380): PKG_CMD 2 installs a firmware package into slot A. -/
  | pkgFwInstallA (t : Nat)
  /-- PKG_FW_INSTALL_B (R380): PKG_CMD 3 installs a firmware package into slot B. -/
  | pkgFwInstallB (t : Nat)
  /-- PKG_UCODE_STAGE (R381): PKG_CMD 4 stages a microcode package. -/
  | pkgUcodeStage (t : Nat)
  /-- PKG_UCODE_LOAD (R381): PKG_CMD 5 loads the staged microcode into a halted or trapped scarab. -/
  | pkgUcodeLoad (t : Nat)
  /-- PACKAGE_END (R378): A run-time package finishes its checks and reports OK or its failure code, undoing its writes on failure. -/
  | packageEnd (t : Nat)
  /-- FUSE_PROGRAM_SLOT (R370): FUSE_OP 1 programs an owner slot with a key digest. -/
  | fuseProgramSlot (t : Nat)
  /-- FUSE_REVOKE (R370): FUSE_OP 2 revokes an owner slot. -/
  | fuseRevoke (t : Nat)
  /-- FUSE_SET_IMAGE_KEY (R370): FUSE_OP 3 sets IMAGE_KEY. -/
  | fuseSetImageKey (t : Nat)
  /-- FUSE_ROLLBACK (R370): FUSE_OP 4 advances ROLLBACK. -/
  | fuseRollback (t : Nat)
  /-- FUSE_SET_MGMT_PATHS (R370): FUSE_OP 5 sets MGMT_PATHS. -/
  | fuseSetMgmtPaths (t : Nat)
  /-- FUSE_DONE (R370): Fuse programming ends and FUSE_STATUS is written. -/
  | fuseDone (t : Nat)
  /-- ATTEST_GO (R383): ATTEST_GO starts building a signed attestation report. -/
  | attestGo (v : Nat) (t : Nat)
  /-- ATTEST_DONE (R383): The signed report is available in REPORT. -/
  | attestDone (t : Nat)
  /-- LMP_READ (R390): An expedited READ is answered with the object's value or aborted. -/
  | lmpRead (via : Via) (hdr : BitVec 64) (body : List Byte) (t : Nat)
  /-- LMP_WRITE (R390): An expedited WRITE is checked and applied, or aborted. -/
  | lmpWrite (via : Via) (hdr : BitVec 64) (body : List Byte) (t : Nat)
  /-- SEG_READ (R390): SEG_READ opens a segmented read and returns the size. -/
  | segRead (via : Via) (hdr : BitVec 64) (body : List Byte) (t : Nat)
  /-- SEG_WRITE (R391): SEG_WRITE opens a segmented write after size checks. -/
  | segWrite (via : Via) (hdr : BitVec 64) (body : List Byte) (t : Nat)
  /-- SEG_DATA (R390): A SEG_DATA carries or requests one segment, checked by toggle and size. -/
  | segData (via : Via) (hdr : BitVec 64) (body : List Byte) (t : Nat)
  /-- BLK_READ (R392): BLK_READ opens a block read and sends the first block. -/
  | blkRead (via : Via) (hdr : BitVec 64) (body : List Byte) (t : Nat)
  /-- BLK_WRITE (R392): BLK_WRITE opens a block write and answers the block size. -/
  | blkWrite (via : Via) (hdr : BitVec 64) (body : List Byte) (t : Nat)
  /-- BLK_DATA (R392): A BLK_DATA message carries one numbered message of a block. -/
  | blkData (via : Via) (hdr : BitVec 64) (body : List Byte) (t : Nat)
  /-- BLK_ACK (R392): A BLK_ACK from the host acknowledges a block of a block read. -/
  | blkAck (via : Via) (hdr : BitVec 64) (body : List Byte) (t : Nat)
  /-- BLK_END (R392): BLK_END checks the transfer CRC and applies the write. -/
  | blkEnd (via : Via) (hdr : BitVec 64) (body : List Byte) (t : Nat)
  /-- BLK_END_OK (R392): BLK_END_OK from the host ends a block read. -/
  | blkEndOk (via : Via) (hdr : BitVec 64) (body : List Byte) (t : Nat)
  /-- ABORT (R393): A received ABORT ends the open transfer unanswered. -/
  | abort (via : Via) (hdr : BitVec 64) (body : List Byte) (t : Nat)
  /-- LMP_STALL (R393): A transfer whose next message does not arrive within LMP_STALL_MS is aborted with STALLED. -/
  | lmpStall (via : Via) (t : Nat)
  /-- MSG_LEN (R396): A write of MSG_LEN submits a mailbox request or is refused. -/
  | msgLen (ini : Nat) (ch : Nat) (v : Nat)
  /-- RSP_DONE (R396): RSP_DONE clears RSP_READY of a mailbox channel. -/
  | rspDone (ini : Nat) (ch : Nat) (v : Nat)
  /-- MAILBOX_RESPONSE (R396): A mailbox response is placed, BUSY clears, RSP_READY sets and the MSI-X is sent. -/
  | mailboxResponse (ch : Nat) (t : Nat)
  /-- LMP_REQ (R403): A CAN LMP_REQ frame carries one LMP message to serve. -/
  | lmpReq (port : Nat) (id : CanId) (bytes : List Byte) (t : Nat)
  /-- HEARTBEAT (R402): Every HEARTBEAT_MS a CAN port sends a heartbeat frame. -/
  | heartbeat (port : Nat) (t : Nat)
  /-- BUS_OFF (R404): A CAN port entering bus-off begins recovery and counts it. -/
  | busOff (port : Nat) (t : Nat)
  /-- FORWARD_RESPONSE (R405): A forwarded request's response at the remote channel is returned on the original transport. -/
  | forwardResponse (via : Via) (node : Nat) (ch : Nat) (id : Nat) (t : Nat)
  /-- FWD_TIMEOUT (R405): A forwarded request without response within FWD_LIMIT_MS is aborted. -/
  | fwdTimeout (via : Via) (t : Nat)
  /-- BAR_WRITE_ERROR (R400): A posted PCIe write completing non-OK is counted and logged. -/
  | barWriteError (off : Nat) (status : Nat) (t : Nat)
  /-- USB4_ENABLE (R401): Writing USB4_ENABLE 0 disconnects the port. -/
  | usb4Enable (via : Via) (v : Nat)
  /-- COMMIT_GO (R410): COMMIT_GO locks the staging objects and sends prepare to every unit involved. -/
  | commitGo (v : Nat) (t : Nat)
  /-- DEVICE_COMMIT (R408): The device starts a REMAP or INITIATOR_MAP commit when a remap or reroute is decided. -/
  | deviceCommit (t : Nat)
  /-- UNIT_REPLY (R410): A unit's reply to prepare is recorded and may decide the commit. -/
  | unitReply (u : Nat) (code : Nat) (abort : Nat) (t : Nat)
  /-- COMMIT_WINDOW (R410): The reply window elapsing decides the commit. -/
  | commitWindow (t : Nat)
  /-- EPOCH_APPLY (R411): At the apply edge every staged unit applies the change and LAST_EPOCH advances. -/
  | epochApply (t : Nat)
  /-- COMMIT_RETRY (R409): An aborted device commit is begun again 100 µs later. -/
  | commitRetry (t : Nat)
  /-- PREPARE (R414): A participant receiving PREPARE runs the commit locally and answers PREPARED. -/
  | prepare (epoch : Nat) (groups : Nat) (coord : Nat) (t : Nat)
  /-- PREPARED (R414): A node reply to PREPARE reaches the coordinator and may decide the commit. -/
  | prepared (node : Nat) (epoch : Nat) (reply : Nat) (code : Nat) (t : Nat)
  /-- APPLY (R415): A participant receiving APPLY applies at APPLY_AT. -/
  | apply (epoch : Nat) (applyAt : Nat) (t : Nat)
  /-- ABORT_EPOCH (R412): A participant receiving ABORT_EPOCH discards its staged change. -/
  | abortEpoch (epoch : Nat) (t : Nat)
  /-- QUERY (R417): A coordinator answers QUERY from its commit log. -/
  | query (node : Nat) (epoch : Nat)
  /-- QUERY_OK (R416): An in-doubt participant acts on the outcome in QUERY_OK. -/
  | queryOk (epoch : Nat) (outcome : Nat) (applyAt : Nat) (t : Nat)
  /-- APPLY_WAIT (R416): A staged participant with no outcome within APPLY_WAIT_US becomes IN_DOUBT and queries. -/
  | applyWait (t : Nat)
  /-- RESOLVE_APPLY (R416): COMMIT_RESOLVE 1 applies an in-doubt change at the next epoch edge. -/
  | resolveApply (t : Nat)
  /-- RESOLVE_DISCARD (R416): COMMIT_RESOLVE 2 discards an in-doubt change. -/
  | resolveDiscard (t : Nat)
  /-- FABRIC_DIV (R420): A change of FABRIC_DIV takes effect at the next cricket tick with a soft start. -/
  | fabricDiv (v : Nat) (t : Nat)
  /-- THROTTLE_DECAY (R426): At each cricket tick each area's throttle request falls by at most 1 towards its target. -/
  | throttleDecay (t : Nat)
  /-- WAKE_REQUEST (R430): A region or lane asks the wake governor for its wake cost. -/
  | wakeRequest (rail : Nat) (unit : Nat) (prio : Nat) (t : Nat)
  /-- WAKE_GRANT (R431): At a REFCLK edge the governor refills its bucket and grants head requests it can pay for. -/
  | wakeGrant (t : Nat)
  /-- WG_GRANT (R433): In host-assisted mode WG_GRANT moves a named request to the head. -/
  | wgGrant (v : Nat)
  /-- HOST_WAKE_LIMIT (R433): A request not granted by the host within HOST_WAKE_LIMIT_US joins the hardware order. -/
  | hostWakeLimit (rail : Nat) (unit : Nat) (t : Nat)
  /-- HIBERNATE (R434): HIBERNATE takes links down, regions to Sleep, lanes Off and stops the dies at the next tick. -/
  | hibernate (v : Nat) (t : Nat)
  /-- WAKE_SOURCE (R435): An enabled wake source wakes the device from Hibernate. -/
  | wakeSource (src : Nat) (unit : Nat) (t : Nat)
  /-- STOP (R438): A stop cause is declared and every clock but the cricket and timestamp stops with outputs safe. -/
  | stop (cause : Nat) (rails : Nat) (t : Nat)
  /-- STOP_RESTART (R440): Once every stop cause has been clear for 1 ms the device restarts in order. -/
  | stopRestart (t : Nat)
  /-- POWER_ON_RESET (R441): PORn low or VDD_AON below threshold resets the whole device. -/
  | powerOnReset
  /-- POR_RELEASE (R441): At PORn release straps are sampled, fuses sensed, health rebuilt and configuration starts. -/
  | porRelease (mode : Nat) (nid : Nat) (rails : Nat)
  /-- RSTN_LOW (R442): RSTn low for 1 µs starts a device reset. -/
  | rstnLow (t : Nat)
  /-- DEVICE_RESET_RELEASE (R442): A device reset is released, MODE sampled and configuration follows. -/
  | deviceResetRelease (mode : Nat) (t : Nat)
  /-- DEVICE_RESET (R442): A write of 0xA5 to DEVICE_RESET causes a device reset 100 µs later. -/
  | deviceReset (v : Nat) (t : Nat)
  /-- DIE_RESET (R444): A write of a layer to DIE_RESET raises the seam fences of that die. -/
  | dieReset (layer : Nat) (t : Nat)
  /-- DRAIN_WINDOW_END (R446): At the window edge open fenced transactions complete and the die enters reset. -/
  | drainWindowEnd (t : Nat)
  /-- DIE_RELEASE (R444): After DIE_RESET_HOLD_US the die is released. -/
  | dieRelease (t : Nat)
  /-- DIE_READY (R447): The die is ready, its ended operations cleared. -/
  | dieReady (t : Nat)
  /-- FENCE_LOWER (R444): At the first cricket tick after the die is ready the fence is lowered. -/
  | fenceLower (t : Nat)
  /-- THERMAL_SAMPLE (R452): Every 100 µs all 448 sensors are sampled together. -/
  | thermalSample (raws : List Int) (t : Nat)
  /-- SAMPLE_IN_FORCE (R458): Ten ticks after a sample its cross-check, working values, warning and throttle targets take effect. -/
  | sampleInForce (t : Nat)
  /-- THERMAL_TRIP (R462): An unmasked comparator above 115 °C for 1 µs declares a stop of cause 4. -/
  | thermalTrip (sensor : Nat) (t : Nat)
  /-- WEEVIL_VISIT (R465): A weevil visits one bond group with three test holds, revisiting and steering spares on failure. -/
  | weevilVisit (seam : Nat) (group : Nat) (visits : List Nat) (t : Nat)
  /-- EXHAUSTION_WINDOW_END (R470): At the window edge after exhaustion open transactions complete RETIRED and the remap commit begins. -/
  | exhaustionWindowEnd (t : Nat)
  /-- BOND_TEST (R489): BOND_CMD TEST visits a chosen group. -/
  | bondTest (visits : List Nat) (t : Nat)
  /-- BOND_RETIRE (R469): BOND_CMD RETIRE starts the action for a pending exhausted group. -/
  | bondRetire (t : Nat)
  /-- HOST_BOND_LIMIT (R469): A pending group's action starts after HOST_BOND_LIMIT_MS. -/
  | hostBondLimit (seam : Nat) (group : Nat) (t : Nat)
  /-- LADYBIRD_VISIT (R475): A ladybird reads, checks and mends its next record and audits the planes. -/
  | ladybirdVisit (die : Nat) (k : Nat) (t : Nat)
  /-- LATCH_REFRESH (R474): Every 1,000,000 ticks the ladybird latches are rewritten and disagreements counted. -/
  | latchRefresh (t : Nat)
  /-- LADYBIRD_TAKEOVER (R478): A ladybird finding its partner stalled takes over the whole die. -/
  | ladybirdTakeover (die : Nat) (stalled : Nat) (t : Nat)
  /-- LADYBIRDS_DOWN (R478): The stewards find neither ladybird advancing in a second and log it. -/
  | ladybirdsDown (die : Nat) (t : Nat)
  /-- LEDGER_TIMEOUT (R484): A ledger entry still open after LEDGER_LIMIT_US closes with TIMEOUT. -/
  | ledgerTimeout (ini : Nat) (tag : Nat) (t : Nat)
  /-- LOG_CLEAR (R489): LOG_CLEAR empties the event log ring. -/
  | logClear (v : Nat)
  /-- FW_SWITCH (R487): FW_SWITCH starts a rolling or cold hand-over of the stewards. -/
  | fwSwitch (v : Nat) (t : Nat)
  /-- FW_HANDOVER_END (R487): Steward 0 returns from the new slot and FW_ACTIVE changes. -/
  | fwHandoverEnd (t : Nat)
  /-- WRITE_STREAM (R513): WRITE_STREAM takes push-stream bytes on SSIO[0]. -/
  | writeStream (bytes : List Byte) (t : Nat)
  /-- WRITE_STREAM_Q (R513): WRITE_STREAM_Q takes push-stream bytes on SSIO[3:0]. -/
  | writeStreamQ (bytes : List Byte) (t : Nat)
  /-- READ_STATUS (R511): READ_STATUS returns the status and clears REFUSED. -/
  | readStatus
  /-- READ_NEXT (R511): READ_NEXT returns PUSH_NEXT. -/
  | readNext
  /-- PARALLEL_WORD (R514): A parallel-port word passes on a PCLK edge when ready. -/
  | parallelWord (pcsn : Bool) (pvalid : Bool) (w : BitVec 16) (t : Nat)
  /-- UNIT_CHECK_END (R512): A slave port finishes checking a unit and resumes or refuses. -/
  | unitCheckEnd (t : Nat)
  /-- EXTEST (R517): EXTEST drives the pins from the boundary register. -/
  | extest (bits : Nat)
  /-- IDCODE (R517): IDCODE selects the identification register. -/
  | idcode
  /-- SAMPLE_PRELOAD (R517): SAMPLE/PRELOAD captures pin states. -/
  | samplePreload (pins : Nat) (bits : Nat)
  /-- CLAMP (R517): CLAMP holds the pins and selects bypass. -/
  | clamp
  /-- HIGHZ (R517): HIGHZ floats the outputs. -/
  | highz
  /-- EXTEST_PULSE (R517): EXTEST_PULSE drives pulsed boundary test. -/
  | extestPulse (bits : Nat)
  /-- EXTEST_TRAIN (R517): EXTEST_TRAIN toggles lane outputs each TCK. -/
  | extestTrain (bits : Nat)
  /-- BYPASS (R517): BYPASS selects the one-bit bypass register. -/
  | bypass
  /-- TRSTN (R518): TRSTn puts the TAP in Test-Logic-Reset. -/
  | trstn
  /-- POWER_BOND_ALARM (R13): A resistance monitor of the power bonds raises an alarm, which is counted in POWER_BOND_ALARMS and logged. -/
  | powerBondAlarm (seam : Nat) (t : Nat)
  /-- CRC_FAILURE (R325): A received container whose CRC fails, or that lies in an error-marked block, makes the receiver discard until SEQ = E and send a NAK at once. -/
  | crcFailure (lk : Nat) (t : Nat)
  /-- EXIT_WINDOW_EXPIRY (R302): When no comma match comes within 4,096 symbols of signal detect at idle exit, the lane enters ALIGN at the rate in use. -/
  | exitWindowExpiry (l : Nat) (t : Nat)
  /-- CHECKER_LOCK (R308): In TEST the pattern checker, after 64 successive error-free bits, sets TEST_LOCK and starts counting TEST_BITS and TEST_ERRORS. -/
  | checkerLock (l : Nat) (t : Nat)
  /-- CHECKER_LOCK_LOSS (R308): A lock loss of the pattern checker clears TEST_LOCK, and the checker seeds itself again. -/
  | checkerLockLoss (l : Nat) (bits : Nat) (errors : Nat) (t : Nat)
  /-- CAN_BUS_ERROR (R404): A CAN bus error changes TEC or REC under ISO 11898-1 error confinement and can move BUS_STATE between error active and error passive. -/
  | canBusError (port : Nat) (tec : Nat) (rec : Nat) (t : Nat)
  /-- BUS_OFF_RECOVERY (R404): The bus-off recovery of a CAN port completes and the port returns to error active. -/
  | busOffRecovery (port : Nat) (t : Nat)
  /-- USB4_CONNECT (R397): The host trains the USB4 link at Gen 4, 3 or 2 and the PCIe tunnel comes up, setting USB4_STATE, USB4_GEN and PCIE_UP. -/
  | usb4Connect (gen : Nat) (bme : Bool) (msix : Bool)
  /-- USB4_DISCONNECT (R401): The host side drops the USB4 link, so the tunnel and PCIE_UP go down and DISCONNECTS counts it. -/
  | usb4Disconnect
  /-- VECTOR_UNMASK (R399): The host unmasks an MSI-X vector whose pending bit is set, and the pending message is sent. -/
  | vectorUnmask (v : Nat)
  /-- PACKAGE_HEADER (R368): The header, directory and signature block of a package are taken whole and checked under checks 1 to 6 before any segment byte is read. -/
  | packageHeader (bytes : List Byte) (t : Nat)
  /-- RESET_TAKES_EFFECT (R442): 100 µs after an accepted write of 0xA5 to DEVICE_RESET, the device reset takes effect and DONE goes low. -/
  | resetTakesEffect (t : Nat)
  /-- EPOCH_ACKNOWLEDGEMENT (R415): A participant's answer to APPLY or ABORT_EPOCH reaches the coordinator, which sets that node to APPLIED or DISCARDED in NODE_REPLIES and updates UNDELIVERED. -/
  | epochAcknowledgement (node : Nat) (epoch : Nat) (applied : Bool) (t : Nat)
  deriving DecidableEq, Repr

end Sys2Proof
end

