-- ==== Sys2Proof/Machine/Dt79.lean ====
section
/-! DEFINITION. The DT79 code (R144 to R148): the 80-bit column word with its data, check bits, overall parity and
spare, its encoder and its decoder over GF(2^7) with the primitive polynomial x^7 + x^3 + 1. -/

namespace Sys2Proof.Machine

open Sys2Proof

/-- Multiplication by alpha in GF(2^7). -/
def gf7Double (x : Nat) : Nat := let y := 2 * x; if y.testBit 7 then y ^^^ 0x89 else y

/-- A power of alpha. -/
def gf7Pow : Nat → Nat
  | 0 => 1
  | n + 1 => gf7Double (gf7Pow n)

/-- Multiplication in GF(2^7): `n` bits of `y`, lowest first. -/
def gf7MulBits : Nat → Nat → Nat → Nat
  | 0, _, _ => 0
  | n + 1, x, y => (if y.testBit 0 then x else 0) ^^^ gf7MulBits n (gf7Double x) (y / 2)

/-- Multiplication in GF(2^7). -/
def gf7Mul (x y : Nat) : Nat := gf7MulBits 7 x y

/-- The check register after the data bits from `n - 1` down to 0 (R145). -/
def dtCheckStep : Nat → Nat → Nat → Nat
  | 0, _, r => r
  | n + 1, d, r =>
    let fb := d.testBit n != r.testBit 13
    let r' := (2 * r) % 2 ^ 14
    dtCheckStep n d (if fb then r' ^^^ 0x0377 else r')

/-- The 14 check bits of a data word (R145). -/
def dtCheck (d : Nat) : Nat := dtCheckStep 64 d 0

/-- The column word of a data word, SPARE 0 (Table 5.4). -/
def dtEncode (d : Nat) : Nat :=
  let w := (d % 2 ^ 64) * 2 ^ 14 + dtCheck d
  putBit w 78 (parityOf 78 w)

/-- The syndromes S1, S3 and Sp (R146). -/
def dtS1 (w : Nat) : Nat := (onesOf 78 w).foldl (fun a j => a ^^^ gf7Pow j) 0
def dtS3 (w : Nat) : Nat := (onesOf 78 w).foldl (fun a j => a ^^^ gf7Pow (3 * j % 127)) 0
def dtSp (w : Nat) : Bool := parityOf 79 w

/-- Outcome of a decode: the bits to invert, or none when uncorrectable (Table 5.5). -/
inductive DtOutcome where
  | clean
  | single (j : Nat)
  | double (j k : Nat)
  | uncorrectable
  deriving DecidableEq, Repr

/-- The positions in range that solve S1·z² + S1²·z + S3 + S1³ = 0 at z = alpha^j (R147, row 5). -/
def dtRoots (s1 s3 : Nat) : List Nat :=
  let s1q := gf7Mul s1 s1
  let k := s3 ^^^ gf7Mul s1 s1q
  (List.range 78).filter (fun j =>
    let z := gf7Pow j
    gf7Mul s1 (gf7Mul z z) ^^^ gf7Mul s1q z ^^^ k == 0)

/-- The position of a power of alpha in range 0 to 77. -/
def dtLog (x : Nat) : Option Nat := (List.range 78).find? (fun j => gf7Pow j == x)

/-- The decoder (R147): the first row of Table 5.5 that matches. -/
def dtDecode (w : Nat) : DtOutcome :=
  let s1 := dtS1 w
  let s3 := dtS3 w
  let sp := dtSp w
  if s1 = 0 ∧ s3 = 0 then (if sp then .single 78 else .clean)
  else if s1 = 0 then .uncorrectable
  else if s3 = gf7Mul s1 (gf7Mul s1 s1) then
    match dtLog s1 with
    | some j => if sp then .single j else .double j 78
    | none => .uncorrectable
  else if sp then .uncorrectable
  else match dtRoots s1 s3 with
    | [j, k] => .double j k
    | _ => .uncorrectable

/-- The data bits of a column word. -/
def dtData (w : Nat) : Nat := bitsOf w 77 14

/-- A word with the outcome's bits inverted. -/
def DtOutcome.apply (o : DtOutcome) (w : Nat) : Nat :=
  match o with
  | .clean => w
  | .single j => putBit w j (!w.testBit j)
  | .double j k =>
    let w := putBit w j (!w.testBit j)
    putBit w k (!w.testBit k)
  | .uncorrectable => w

/-- The positions an outcome inverts. -/
def DtOutcome.positions : DtOutcome → List Nat
  | .single j => [j]
  | .double j k => [j, k]
  | _ => []

end Sys2Proof.Machine
end

