-- ==== Sys2Proof/Machine/Operands.lean ====
section
/-! DEFINITION. The operand forms of the commands: the fields of flits, sidebands and headers of the on-die networks
(Tables 8.6, 8.8, 8.9, 8.10), and how the device writes them. A flit is its bits as a number. -/

namespace Sys2Proof.Machine

open Sys2Proof

/-! REQ flits (Table 8.6). -/

abbrev qOp (f : Nat) : Nat := bitsOf f 127 124
abbrev qSize (f : Nat) : Nat := bitsOf f 123 122
abbrev qLen (f : Nat) : Nat := bitsOf f 121 116
abbrev qSrc (f : Nat) : Nat := bitsOf f 115 107
abbrev qTag (f : Nat) : Nat := bitsOf f 106 97
abbrev qStn (f : Nat) : Nat := bitsOf f 96 90
abbrev qPort (f : Nat) : Nat := bitsOf f 89 86
abbrev qNode (f : Nat) : Nat := bitsOf f 85 74
/-- The local offset: ADDR holds its bits [39:2]. -/
abbrev qAddr (f : Nat) : Nat := bitsOf f 73 36 * 4

/-- A REQ flit. -/
def reqFlit (op size len src tag stn port node addr : Nat) : Nat :=
  op * 2 ^ 124 + size * 2 ^ 122 + len * 2 ^ 116 + src * 2 ^ 107 + tag * 2 ^ 97 + stn * 2 ^ 90 + port * 2 ^ 86 +
    node * 2 ^ 74 + addr / 4 * 2 ^ 36

/-- A REQ flit that R254 and R255 do not allow: a reserved OP, SIZE or bit, or a broken address and length. -/
def reqMalformed (f : Nat) : Bool :=
  decide (qOp f > 2) || qSize f == 3 || bitsOf f 35 0 != 0 || (qOp f == 2 && qSize f != 2) ||
  (qSize f == 0 && (qAddr f % 64 != 0 || decide (qAddr f / 65536 ≠ (qAddr f + 64 * qLen f) / 65536))) ||
  (qSize f == 1 && (qAddr f % 4 != 0 || qLen f != 0)) || (qSize f == 2 && (qAddr f % 8 != 0 || qLen f != 0))

/-- Bytes a request moves. -/
def qBytes (f : Nat) : Nat := if qSize f = 0 then 64 * (qLen f + 1) else if qSize f = 1 then 4 else 8

/-! DAT sidebands (Table 8.8). -/

abbrev dStn (s : Nat) : Nat := bitsOf s 63 57
abbrev dPort (s : Nat) : Nat := bitsOf s 56 53
abbrev dSrc (s : Nat) : Nat := bitsOf s 52 44
abbrev dTag (s : Nat) : Nat := bitsOf s 43 34
abbrev dLen (s : Nat) : Nat := bitsOf s 33 28
abbrev dKind (s : Nat) : Nat := bitsOf s 27 26
abbrev dStatus (s : Nat) : Nat := bitsOf s 25 22
/-- Stream header fields (R256). -/
abbrev dNode (s : Nat) : Nat := bitsOf s 127 116
abbrev dRun (s : Nat) : Nat := bitsOf s 115 102
abbrev dCh (s : Nat) : Nat := bitsOf s 101 100

/-- The sideband of a packet: the fields that every beat shares. `top` is the stream header's 64 bits, 0 otherwise. -/
def datSideband (top stn port src tag beats kind status : Nat) : Nat :=
  top * 2 ^ 64 + stn * 2 ^ 57 + port * 2 ^ 53 + src * 2 ^ 44 + tag * 2 ^ 34 + (beats - 1) * 2 ^ 28 + kind * 2 ^ 26 +
    status * 2 ^ 22

/-- The stream header: NODE, RUN and CH. -/
def streamTop (node run ch : Nat) : Nat := node * 2 ^ 52 + run * 2 ^ 38 + ch * 2 ^ 36

/-- A DAT packet that R266 does not allow: a reserved kind or bit, or LAST away from beat LEN + 1. -/
def datMalformed (s : Nat) (beats : List Beat) : Bool :=
  dKind s == 3 || bitsOf s 18 0 != 0 || beats.map (·.last) != List.replicate (dLen s) false ++ [true] ||
    (dKind s == 2 && bitsOf s 99 64 != 0)

/-- A beat of data. -/
def mkBeat (data : Nat) (poison : Bool) (mask : Nat) : Beat :=
  { data := BitVec.ofNat 512 data, poison := poison, mask := BitVec.ofNat 64 mask }

/-- The sideband of one beat of a packet whose beats share `s` (Table 8.8): its MASK, or the stream header; the final status with the
last beat of RDATA; POISON, FIRST and LAST. -/
def beatSideband (s : Nat) (first last : Bool) (x : Beat) : Nat :=
  let top := if dKind s = 2 then bitsOf s 127 64 else if dKind s = 0 then x.mask.toNat else 0
  let st := if dKind s = 1 ∧ last then dStatus s else 0
  putBits (putBits (putBits (putBits (putBits s 127 64 top) 25 22 st) 21 21 (b2n x.poison)) 20 20 (b2n first)) 19 19 (b2n last)

/-- The final status that an RDATA packet returns on its last beat (R257). -/
def lastStatus (beats : List Beat) : Nat := match beats.getLast? with | some x => x.status.toNat | none => 0

/-! RSP flits (Table 8.9). -/

abbrev rOp (f : Nat) : Nat := bitsOf f 63 60
abbrev rStatus (f : Nat) : Nat := bitsOf f 59 56
abbrev rDst (f : Nat) : Nat := bitsOf f 55 47
abbrev rTag (f : Nat) : Nat := bitsOf f 46 37
abbrev rBeats (f : Nat) : Nat := bitsOf f 36 30
abbrev rStn (f : Nat) : Nat := bitsOf f 29 23
abbrev rPort (f : Nat) : Nat := bitsOf f 22 19
abbrev rArg (f : Nat) : Nat := bitsOf f 18 0
/-- The message a SACK answers, the initiator a LEDGER flit reports, and MATCH. -/
abbrev rMsg (f : Nat) : Nat := bitsOf f 18 11
abbrev rReporter (f : Nat) : Nat := bitsOf f 18 10
abbrev rMatch (f : Nat) : Bool := f.testBit 0

/-- An RSP flit. -/
def rspFlit (op status dst tag beats stn port arg : Nat) : Nat :=
  op * 2 ^ 60 + status * 2 ^ 56 + dst * 2 ^ 47 + tag * 2 ^ 37 + beats * 2 ^ 30 + stn * 2 ^ 23 + port * 2 ^ 19 + arg

/-! SNP headers (Table 8.10). -/

abbrev sOp (h : Nat) : Nat := bitsOf h 63 58
abbrev sFlits (h : Nat) : Nat := bitsOf h 57 55
abbrev sSrc (h : Nat) : Nat := bitsOf h 54 46
abbrev sStn (h : Nat) : Nat := bitsOf h 45 39
abbrev sPort (h : Nat) : Nat := bitsOf h 38 35
abbrev sMsg (h : Nat) : Nat := bitsOf h 34 27
abbrev sNode (h : Nat) : Nat := bitsOf h 26 15
abbrev sStatus (h : Nat) : Nat := bitsOf h 14 11
abbrev sArg (h : Nat) : Nat := bitsOf h 10 0

/-- An SNP header. -/
def snpHeader (op flits src stn port msg node status arg : Nat) : Nat :=
  op * 2 ^ 58 + flits * 2 ^ 55 + src * 2 ^ 46 + stn * 2 ^ 39 + port * 2 ^ 35 + msg * 2 ^ 27 + node * 2 ^ 15 +
    status * 2 ^ 11 + arg

/-- Codes of Table 8.11. -/
abbrev snpShootdown : Nat := 1
abbrev snpMigFence : Nat := 2
abbrev snpMigLift : Nat := 3
/-- An SNP command among the requests that a record or proxy may hold: no OP of a REQ flit has this value. -/
abbrev opSnp : Nat := 16

abbrev snpSeamFence : Nat := 4
abbrev snpSample : Nat := 5
abbrev snpTrackerArm : Nat := 8
abbrev snpTrackerTake : Nat := 9
abbrev snpTrackerDisarm : Nat := 10
abbrev snpFrameReq : Nat := 11
abbrev snpRelease : Nat := 12
abbrev snpTrackerArmed : Nat := 32
abbrev snpTrackerBits : Nat := 33
abbrev snpFrameGrant : Nat := 34

/-! Containers (Table 10.1, Table 10.2). -/

abbrev cVn (c : Nat) : Nat := bitsOf c 575 574
abbrev cType (c : Nat) : Nat := bitsOf c 573 570
abbrev cSeq (c : Nat) : Nat := bitsOf c 569 558
abbrev cCvn (c : Nat) : Nat := bitsOf c 557 556
abbrev cCount (c : Nat) : Nat := bitsOf c 555 544
abbrev cCrc (c : Nat) : Nat := bitsOf c 543 512
abbrev cPayload (c : Nat) : Nat := bitsOf c 511 0

/-- The kinds of container of Table 10.2. -/
inductive CKind where
  | req | headW | mask | dataW | dataWP | abortW | headD | dataD | dataDP | tailD | rsp | null | snpK | snpA | reserved
  deriving DecidableEq, Repr

/-- The kind that VN and TYPE name. -/
def cKind (c : Nat) : CKind :=
  match cVn c, cType c with
  | 0, ty => if ty ≤ 3 then .req else .reserved
  | 1, 0 => .headW | 1, 1 => .mask | 1, 2 => .dataW | 1, 3 => .dataWP | 1, 4 => .abortW
  | 1, 8 => .headD | 1, 9 => .dataD | 1, 10 => .dataDP | 1, 11 => .tailD
  | 2, ty => if ty ≤ 7 then .rsp else if ty = 15 then .null else .reserved
  | 3, 0 => .snpK | 3, 1 => .snpA
  | _, _ => .reserved

/-- VN and TYPE of a kind that the device sends: 16·VN + TYPE. -/
abbrev vtReq : Nat := 0x00
abbrev vtHeadW : Nat := 0x10
abbrev vtMask : Nat := 0x11
abbrev vtDataW : Nat := 0x12
abbrev vtDataWP : Nat := 0x13
abbrev vtAbortW : Nat := 0x14
abbrev vtHeadD : Nat := 0x18
abbrev vtDataD : Nat := 0x19
abbrev vtDataDP : Nat := 0x1A
abbrev vtTailD : Nat := 0x1B
abbrev vtRsp : Nat := 0x20
abbrev vtNull : Nat := 0x2F
abbrev vtSnpK : Nat := 0x30
abbrev vtSnpA : Nat := 0x31

/-! Link control blocks (Table 10.3, Table 10.4). -/

abbrev kType (x : Nat) : Nat := bitsOf x 127 120

/-- The bits of b[119:16] that a type reserves. -/
def kReserved (ty : Nat) : Nat :=
  let all : Nat := 2 ^ 120 - 2 ^ 16
  let less (hi lo : Nat) (m : Nat) : Nat := m - (2 ^ (hi + 1) - 2 ^ lo)
  if ty = 0x33 then less 119 99 all
  else if ty = 0x60 ∨ ty = 0x61 then less 119 108 all
  else if ty = 0x62 then (2 ^ 119 - 2 ^ 117) + (2 ^ 32 - 2 ^ 16)
  else if ty = 0x63 then less 119 104 all
  else if ty = 0x64 ∨ ty = 0x65 then less 119 118 all
  else if ty = 0x66 then less 119 112 all
  else if ty = 0x67 then 0
  else all

end Sys2Proof.Machine
end

