-- ==== Sys2Proof/Config.lean ====
section
/-! DEFINITION. What the spec leaves open. A free value has no body: nothing can evaluate it, so whatever is proved
holds for every value. The k-th value drawn is `Config.freeValue k`; the state counts the draws. -/

namespace Sys2Proof

/-- The k-th free value drawn (R49 and the other open points that the assumption log lists). -/
opaque Config.freeValue : Nat → Nat

/-- The key digest of Kwaod's signing key (R368), and the Kwaod firmware key of the mask-programmed store (R366). -/
opaque Config.kwaodKeyDigest : Nat
opaque Config.kwaodFirmwareKey : Nat

/-- The k-th free value as a bit. -/
def Config.freeBit (k : Nat) : Bool := Config.freeValue k % 2 == 1

/-- The k-th free value held within stated bounds. -/
def Config.freeWithin (lo hi k : Nat) : Nat := lo + Config.freeValue k % (hi + 1 - lo)

end Sys2Proof
end

