-- ==== Sys2Proof/Machine/Objects.lean ====
section
/-! DEFINITION. The object dictionary (R385, R386): one row per object of the dictionary tables of the spec, with its
type, size, access right (Table 0.6), default (R10) and range, and the name of each object's key. The key of
object index.subindex is 256 times the index plus the subindex. -/

namespace Sys2Proof.Machine

/-- Access rights of Table 0.6. -/
inductive Access where
  | ro | rw | wo | rwi | cst
  deriving DecidableEq, Repr

/-- Object types of Table 0.5. -/
inductive ObjType where
  | bool | u8 | u16 | u32 | u64 | i32 | i64 | f32 | str | dom | ts
  deriving DecidableEq, Repr

/-- Sizes of R386: one size, or any size up to a maximum. -/
inductive ObjSize where
  | fixed (n : Nat) | upTo (n : Nat)
  deriving DecidableEq, Repr

/-- The values an object accepts; `codes` and `bool` are refused with VALUE, every other kind with RANGE (R387, R522). -/
inductive ObjRange where
  | any
  | bool
  | span (lo hi : Nat)
  | stepped (lo hi m : Nat)
  | spans (l : List (Nat × Nat)) (m : Nat)
  | oneOf (l : List Nat)
  | signed (n : Nat) (lo hi : Int)
  | codes (l : List Nat)
  deriving DecidableEq, Repr

/-- One row of a dictionary table: indices `i0` to `i1`, subindices `s0` to `s1`. -/
structure ObjRow where
  i0 : Nat
  i1 : Nat
  s0 : Nat
  s1 : Nat
  type : ObjType
  size : ObjSize
  acc : Access
  dflt : Nat
  range : ObjRange
  reserved : Nat
  deriving DecidableEq, Repr

/-- Whether the value lies in the stated range. -/
def ObjRange.holds : ObjRange → Nat → Bool
  | .any, _ => true
  | .bool, v => v ≤ 1
  | .span lo hi, v => lo ≤ v && v ≤ hi
  | .stepped lo hi m, v => lo ≤ v && v ≤ hi && v % m == 0
  | .spans l m, v => l.any (fun p => p.1 ≤ v && v ≤ p.2) && v % m == 0
  | .oneOf l, v => l.contains v
  | .signed n lo hi, v => lo ≤ signedOf n v && signedOf n v ≤ hi
  | .codes l, v => l.contains v

/-- Whether a value outside the range is refused with VALUE rather than RANGE. -/
def ObjRange.isCode : ObjRange → Bool
  | .bool => true
  | .codes _ => true
  | _ => false

/-- The largest size of the object in bytes. -/
def ObjSize.most : ObjSize → Nat
  | .fixed n => n
  | .upTo n => n

/-- Dictionary rows of chapter 1, part 1. -/
def objRows01a : List ObjRow := [
  ⟨0x2000, 0x2000, 0x00, 0x00, .u8, .fixed 1, .cst, 3, .any, 0x0⟩,
  ⟨0x2000, 0x2000, 0x01, 0x01, .u8, .fixed 1, .cst, 7, .any, 0x0⟩,
  ⟨0x2000, 0x2000, 0x02, 0x02, .u8, .fixed 1, .cst, 6, .any, 0x0⟩,
  ⟨0x2000, 0x2000, 0x03, 0x03, .u32, .fixed 4, .cst, 9504176, .any, 0x0⟩,
  ⟨0x2001, 0x2007, 0x00, 0x00, .u8, .fixed 1, .cst, 5, .any, 0x0⟩,
  ⟨0x2001, 0x2007, 0x01, 0x01, .u8, .fixed 1, .cst, 0, .any, 0x0⟩,
  ⟨0x2001, 0x2007, 0x02, 0x02, .u8, .fixed 1, .cst, 0, .any, 0x0⟩,
  ⟨0x2001, 0x2007, 0x03, 0x03, .u16, .fixed 2, .cst, 0, .any, 0x0⟩,
  ⟨0x2001, 0x2007, 0x04, 0x04, .u32, .fixed 4, .ro, 0, .any, 0x0⟩,
  ⟨0x2001, 0x2007, 0x05, 0x05, .u8, .fixed 1, .ro, 0, .any, 0x0⟩,
  ⟨0x2010, 0x2015, 0x00, 0x00, .u8, .fixed 1, .cst, 6, .any, 0x0⟩,
  ⟨0x2010, 0x2015, 0x01, 0x01, .u32, .fixed 4, .cst, 0, .any, 0x0⟩,
  ⟨0x2010, 0x2015, 0x02, 0x02, .u32, .fixed 4, .ro, 0, .any, 0x0⟩,
  ⟨0x2010, 0x2015, 0x03, 0x03, .u32, .fixed 4, .ro, 0, .any, 0x0⟩,
  ⟨0x2010, 0x2015, 0x04, 0x04, .u32, .fixed 4, .ro, 0, .any, 0x0⟩,
  ⟨0x2010, 0x2015, 0x05, 0x05, .u8, .fixed 1, .ro, 0, .any, 0x0⟩,
  ⟨0x2010, 0x2015, 0x06, 0x06, .u16, .fixed 2, .ro, 0, .any, 0x0⟩,
  ⟨0x2018, 0x2018, 0x00, 0x00, .u8, .fixed 1, .cst, 3, .any, 0x0⟩,
  ⟨0x2018, 0x2018, 0x01, 0x01, .u8, .fixed 1, .rw, 0, .span 0 5, 0x0⟩,
  ⟨0x2018, 0x2018, 0x02, 0x02, .u32, .fixed 4, .rw, 0, .any, 0x0⟩,
  ⟨0x2018, 0x2018, 0x03, 0x03, .u16, .fixed 2, .ro, 0, .any, 0x0⟩,
  ⟨0x2030, 0x2030, 0x00, 0x00, .u8, .fixed 1, .cst, 2, .any, 0x0⟩,
  ⟨0x2030, 0x2030, 0x01, 0x01, .u32, .fixed 4, .ro, 0, .any, 0x0⟩,
  ⟨0x2030, 0x2030, 0x02, 0x02, .u32, .fixed 4, .ro, 0, .any, 0x0⟩]

/-- Dictionary rows of chapter 3, part 1. -/
def objRows03a : List ObjRow := [
  ⟨0x3300, 0x33FF, 0x00, 0x00, .u8, .fixed 1, .cst, 40, .any, 0x0⟩,
  ⟨0x3300, 0x33FF, 0x01, 0x01, .u8, .fixed 1, .ro, 255, .any, 0x0⟩,
  ⟨0x3300, 0x33FF, 0x02, 0x02, .u8, .fixed 1, .ro, 0, .any, 0x0⟩,
  ⟨0x3300, 0x33FF, 0x03, 0x03, .u8, .fixed 1, .ro, 255, .any, 0x0⟩,
  ⟨0x3300, 0x33FF, 0x04, 0x04, .u16, .fixed 2, .rw, 0, .any, 0x0⟩,
  ⟨0x3300, 0x33FF, 0x05, 0x05, .u64, .fixed 8, .ro, 0, .any, 0x0⟩,
  ⟨0x3300, 0x33FF, 0x06, 0x06, .u64, .fixed 8, .ro, 0, .any, 0x0⟩,
  ⟨0x3300, 0x33FF, 0x07, 0x07, .u32, .fixed 4, .ro, 0, .any, 0x0⟩,
  ⟨0x3300, 0x33FF, 0x08, 0x08, .u32, .fixed 4, .ro, 0, .any, 0x0⟩,
  ⟨0x3300, 0x33FF, 0x09, 0x09, .u32, .fixed 4, .ro, 0, .any, 0x0⟩,
  ⟨0x3300, 0x33FF, 0x0A, 0x0A, .u8, .fixed 1, .wo, 0, .codes [1], 0x0⟩,
  ⟨0x3300, 0x33FF, 0x0B, 0x0B, .u8, .fixed 1, .ro, 0, .any, 0x0⟩,
  ⟨0x3300, 0x33FF, 0x0C, 0x0C, .u8, .fixed 1, .ro, 255, .any, 0x0⟩,
  ⟨0x3300, 0x33FF, 0x0D, 0x0D, .ts, .fixed 8, .ro, 0, .any, 0x0⟩,
  ⟨0x3300, 0x33FF, 0x0E, 0x0E, .dom, .fixed 8192, .ro, 0, .any, 0x0⟩,
  ⟨0x3300, 0x33FF, 0x10, 0x1F, .dom, .fixed 16, .ro, 0, .any, 0x0⟩,
  ⟨0x3300, 0x33FF, 0x20, 0x20, .u8, .fixed 1, .rw, 0, .span 0 15, 0x0⟩,
  ⟨0x3300, 0x33FF, 0x21, 0x21, .u64, .fixed 8, .rw, 0, .stepped 0x800000000 0x80FF00000 0x1000, 0x0⟩,
  ⟨0x3300, 0x33FF, 0x22, 0x22, .u16, .fixed 2, .rw, 0, .span 0 4095, 0x0⟩,
  ⟨0x3300, 0x33FF, 0x23, 0x23, .u8, .fixed 1, .rw, 0, .span 0 255, 0x0⟩,
  ⟨0x3300, 0x33FF, 0x24, 0x24, .u32, .fixed 4, .rw, 0, .any, 0x0⟩,
  ⟨0x3300, 0x33FF, 0x25, 0x25, .u8, .fixed 1, .rw, 0, .any, 0x0⟩,
  ⟨0x3300, 0x33FF, 0x26, 0x26, .u8, .fixed 1, .rw, 0, .span 0 15, 0x0⟩,
  ⟨0x3300, 0x33FF, 0x27, 0x27, .u8, .fixed 1, .wo, 0, .codes [1, 2, 3, 4, 5], 0x0⟩]

/-- Dictionary rows of chapter 3, part 2. -/
def objRows03b : List ObjRow := [
  ⟨0x3300, 0x33FF, 0x28, 0x28, .u8, .fixed 1, .ro, 0, .any, 0x0⟩]

/-- Dictionary rows of chapter 4, part 1. -/
def objRows04a : List ObjRow := [
  ⟨0x3000, 0x3000, 0x00, 0x00, .u8, .fixed 1, .cst, 9, .any, 0x0⟩,
  ⟨0x3000, 0x3000, 0x01, 0x01, .u16, .fixed 2, .ro, 256, .any, 0x0⟩,
  ⟨0x3000, 0x3000, 0x02, 0x02, .u8, .fixed 1, .ro, 8, .any, 0x0⟩,
  ⟨0x3000, 0x3000, 0x03, 0x03, .u8, .fixed 1, .ro, 0, .any, 0x0⟩,
  ⟨0x3000, 0x3000, 0x04, 0x04, .u8, .fixed 1, .ro, 128, .any, 0x0⟩,
  ⟨0x3000, 0x3000, 0x05, 0x05, .u32, .fixed 4, .rw, 100, .span 1 10000000, 0x0⟩,
  ⟨0x3000, 0x3000, 0x06, 0x06, .u32, .fixed 4, .rw, 10000, .span 1 100000000, 0x0⟩,
  ⟨0x3000, 0x3000, 0x07, 0x07, .dom, .fixed 512, .ro, 0, .any, 0x0⟩,
  ⟨0x3000, 0x3000, 0x08, 0x08, .dom, .fixed 272, .ro, 0, .any, 0x0⟩,
  ⟨0x3000, 0x3000, 0x09, 0x09, .u32, .fixed 4, .ro, 0, .any, 0x0⟩,
  ⟨0x3100, 0x31FF, 0x00, 0x00, .u8, .fixed 1, .cst, 15, .any, 0x0⟩,
  ⟨0x3100, 0x31FF, 0x01, 0x01, .u8, .fixed 1, .ro, 0, .any, 0x0⟩,
  ⟨0x3100, 0x31FF, 0x02, 0x02, .u8, .fixed 1, .cst, 0, .any, 0x0⟩,
  ⟨0x3100, 0x31FF, 0x03, 0x03, .bool, .fixed 1, .ro, 0, .any, 0x0⟩,
  ⟨0x3100, 0x31FF, 0x04, 0x04, .bool, .fixed 1, .ro, 1, .any, 0x0⟩,
  ⟨0x3100, 0x31FF, 0x05, 0x05, .u8, .fixed 1, .ro, 0, .any, 0x0⟩,
  ⟨0x3100, 0x31FF, 0x06, 0x06, .u16, .fixed 2, .ro, 65535, .any, 0x0⟩,
  ⟨0x3100, 0x31FF, 0x07, 0x07, .u8, .fixed 1, .ro, 255, .any, 0x0⟩,
  ⟨0x3100, 0x31FF, 0x08, 0x08, .u8, .fixed 1, .ro, 0, .any, 0x0⟩,
  ⟨0x3100, 0x31FF, 0x09, 0x09, .u8, .fixed 1, .ro, 0, .any, 0x0⟩,
  ⟨0x3100, 0x31FF, 0x0A, 0x0A, .u32, .fixed 4, .ro, 0, .any, 0x0⟩,
  ⟨0x3100, 0x31FF, 0x0B, 0x0B, .u32, .fixed 4, .ro, 0, .any, 0x0⟩,
  ⟨0x3100, 0x31FF, 0x0C, 0x0C, .u32, .fixed 4, .ro, 0, .any, 0x0⟩,
  ⟨0x3100, 0x31FF, 0x0D, 0x0D, .u32, .fixed 4, .ro, 0, .any, 0x0⟩]

/-- Dictionary rows of chapter 4, part 2. -/
def objRows04b : List ObjRow := [
  ⟨0x3100, 0x31FF, 0x0E, 0x0E, .u32, .fixed 4, .ro, 0, .any, 0x0⟩,
  ⟨0x3100, 0x31FF, 0x0F, 0x0F, .u8, .fixed 1, .wo, 0, .codes [1], 0x0⟩,
  ⟨0x3200, 0x32FF, 0x00, 0x00, .u8, .fixed 1, .cst, 31, .any, 0x0⟩,
  ⟨0x3200, 0x32FF, 0x01, 0x01, .u8, .fixed 1, .ro, 0, .any, 0x0⟩,
  ⟨0x3200, 0x32FF, 0x02, 0x02, .u32, .fixed 4, .ro, 0, .any, 0x0⟩,
  ⟨0x3200, 0x32FF, 0x03, 0x03, .u32, .fixed 4, .ro, 0, .any, 0x0⟩,
  ⟨0x3200, 0x32FF, 0x04, 0x04, .u32, .fixed 4, .ro, 0, .any, 0x0⟩,
  ⟨0x3200, 0x32FF, 0x10, 0x1F, .dom, .fixed 128, .rw, 0, .any, 0x0⟩]

/-- Dictionary rows of chapter 5, part 1. -/
def objRows05a : List ObjRow := [
  ⟨0x6000, 0x6000, 0x00, 0x00, .u8, .fixed 1, .cst, 18, .any, 0x0⟩,
  ⟨0x6000, 0x6000, 0x01, 0x01, .u64, .fixed 8, .ro, 2147483648, .any, 0x0⟩,
  ⟨0x6000, 0x6000, 0x02, 0x02, .u8, .fixed 1, .ro, 128, .any, 0x0⟩,
  ⟨0x6000, 0x6000, 0x03, 0x03, .u32, .fixed 4, .rw, 86400, .span 3600 604800, 0x0⟩,
  ⟨0x6000, 0x6000, 0x04, 0x04, .u32, .fixed 4, .ro, 0, .any, 0x0⟩,
  ⟨0x6000, 0x6000, 0x05, 0x05, .u32, .fixed 4, .ro, 0, .any, 0x0⟩,
  ⟨0x6000, 0x6000, 0x06, 0x06, .u16, .fixed 2, .rw, 4, .span 1 65535, 0x0⟩,
  ⟨0x6000, 0x6000, 0x07, 0x07, .u32, .fixed 4, .rw, 4096, .span 1 4294967295, 0x0⟩,
  ⟨0x6000, 0x6000, 0x08, 0x08, .u32, .fixed 4, .rw, 1000, .span 0 3600000, 0x0⟩,
  ⟨0x6000, 0x6000, 0x09, 0x09, .u16, .fixed 2, .rw, 16, .span 2 1024, 0x0⟩,
  ⟨0x6000, 0x6000, 0x0A, 0x0A, .dom, .fixed 4096, .ro, 0, .any, 0x0⟩,
  ⟨0x6000, 0x6000, 0x0B, 0x0B, .u32, .fixed 4, .rw, 0, .any, 0x7FFF8000⟩,
  ⟨0x6000, 0x6000, 0x0C, 0x0C, .u8, .fixed 1, .wo, 0, .codes [1], 0x0⟩,
  ⟨0x6000, 0x6000, 0x0D, 0x0D, .u8, .fixed 1, .ro, 0, .any, 0x0⟩,
  ⟨0x6000, 0x6000, 0x0E, 0x0E, .u64, .fixed 8, .rw, 0, .stepped 0 0xFFFFFFFFFFFFFFFF 8, 0x0⟩,
  ⟨0x6000, 0x6000, 0x0F, 0x0F, .u8, .fixed 1, .wo, 0, .codes [1], 0x0⟩,
  ⟨0x6000, 0x6000, 0x10, 0x10, .u8, .fixed 1, .ro, 0, .any, 0x0⟩,
  ⟨0x6000, 0x6000, 0x11, 0x11, .u8, .fixed 1, .wo, 0, .span 0 127, 0x0⟩,
  ⟨0x6000, 0x6000, 0x12, 0x12, .u32, .fixed 4, .ro, 0, .any, 0x0⟩,
  ⟨0x6100, 0x617F, 0x00, 0x00, .u8, .fixed 1, .cst, 10, .any, 0x0⟩,
  ⟨0x6100, 0x617F, 0x01, 0x01, .u8, .fixed 1, .ro, 0, .any, 0x0⟩,
  ⟨0x6100, 0x617F, 0x02, 0x02, .u32, .fixed 4, .ro, 0, .any, 0x0⟩,
  ⟨0x6100, 0x617F, 0x03, 0x03, .u32, .fixed 4, .ro, 0, .any, 0x0⟩,
  ⟨0x6100, 0x617F, 0x04, 0x04, .u32, .fixed 4, .ro, 0, .any, 0x0⟩]

/-- Dictionary rows of chapter 5, part 2. -/
def objRows05b : List ObjRow := [
  ⟨0x6100, 0x617F, 0x05, 0x05, .u32, .fixed 4, .ro, 0, .any, 0x0⟩,
  ⟨0x6100, 0x617F, 0x06, 0x06, .u32, .fixed 4, .ro, 0, .any, 0x0⟩,
  ⟨0x6100, 0x617F, 0x07, 0x07, .u16, .fixed 2, .ro, 0, .any, 0x0⟩,
  ⟨0x6100, 0x617F, 0x08, 0x08, .u32, .fixed 4, .ro, 0, .any, 0x0⟩,
  ⟨0x6100, 0x617F, 0x09, 0x09, .ts, .fixed 8, .ro, 0, .any, 0x0⟩,
  ⟨0x6100, 0x617F, 0x0A, 0x0A, .u8, .fixed 1, .wo, 0, .codes [1], 0x0⟩,
  ⟨0x6200, 0x62FF, 0x00, 0x00, .u8, .fixed 1, .cst, 6, .any, 0x0⟩,
  ⟨0x6200, 0x62FF, 0x01, 0x01, .u8, .fixed 1, .ro, 0, .any, 0x0⟩,
  ⟨0x6200, 0x62FF, 0x02, 0x02, .u64, .fixed 8, .ro, 0, .any, 0x0⟩,
  ⟨0x6200, 0x62FF, 0x03, 0x03, .u64, .fixed 8, .ro, 0, .any, 0x0⟩,
  ⟨0x6200, 0x62FF, 0x04, 0x04, .u64, .fixed 8, .ro, 0, .any, 0x0⟩,
  ⟨0x6200, 0x62FF, 0x05, 0x05, .u32, .fixed 4, .ro, 0, .any, 0x0⟩,
  ⟨0x6200, 0x62FF, 0x06, 0x06, .u32, .fixed 4, .ro, 0, .any, 0x0⟩,
  ⟨0x6400, 0x6400, 0x00, 0x00, .u8, .fixed 1, .cst, 3, .any, 0x0⟩,
  ⟨0x6400, 0x6400, 0x01, 0x01, .u8, .fixed 1, .cst, 16, .any, 0x0⟩,
  ⟨0x6400, 0x6400, 0x02, 0x02, .u64, .fixed 8, .ro, 0, .any, 0x0⟩,
  ⟨0x6400, 0x6400, 0x03, 0x03, .u32, .fixed 4, .ro, 0, .any, 0x0⟩,
  ⟨0x6410, 0x641F, 0x00, 0x00, .u8, .fixed 1, .cst, 11, .any, 0x0⟩,
  ⟨0x6410, 0x641F, 0x01, 0x01, .bool, .fixed 1, .rw, 0, .bool, 0x0⟩,
  ⟨0x6410, 0x641F, 0x02, 0x02, .u64, .fixed 8, .rwi, 0, .stepped 0 0x7FFFFFFF 64, 0x0⟩,
  ⟨0x6410, 0x641F, 0x03, 0x03, .u8, .fixed 1, .rwi, 4, .span 4 16, 0x0⟩,
  ⟨0x6410, 0x641F, 0x04, 0x04, .u8, .fixed 1, .rw, 255, .spans [(0, 63), (255, 255)] 1, 0x0⟩,
  ⟨0x6410, 0x641F, 0x05, 0x05, .u8, .fixed 1, .ro, 0, .any, 0x0⟩,
  ⟨0x6410, 0x641F, 0x06, 0x06, .u16, .fixed 2, .ro, 0, .any, 0x0⟩]

/-- Dictionary rows of chapter 5, part 3. -/
def objRows05c : List ObjRow := [
  ⟨0x6410, 0x641F, 0x07, 0x07, .u8, .fixed 1, .ro, 0, .any, 0x0⟩,
  ⟨0x6410, 0x641F, 0x08, 0x08, .u32, .fixed 4, .ro, 0, .any, 0x0⟩,
  ⟨0x6410, 0x641F, 0x09, 0x09, .u8, .fixed 1, .wo, 0, .codes [1, 2, 3], 0x0⟩,
  ⟨0x6410, 0x641F, 0x0A, 0x0A, .u64, .fixed 8, .ro, 0, .any, 0x0⟩,
  ⟨0x6410, 0x641F, 0x0B, 0x0B, .u32, .fixed 4, .ro, 0, .any, 0x0⟩]

/-- Dictionary rows of chapter 6, part 1. -/
def objRows06a : List ObjRow := [
  ⟨0x5000, 0x5000, 0x00, 0x00, .u8, .fixed 1, .cst, 14, .any, 0x0⟩,
  ⟨0x5000, 0x5000, 0x01, 0x01, .u8, .fixed 1, .cst, 32, .any, 0x0⟩,
  ⟨0x5000, 0x5000, 0x02, 0x02, .u32, .fixed 4, .rw, 50, .span 1 1000000, 0x0⟩,
  ⟨0x5000, 0x5000, 0x03, 0x03, .u32, .fixed 4, .rw, 5, .span 0 1000000, 0x0⟩,
  ⟨0x5000, 0x5000, 0x04, 0x04, .u8, .fixed 1, .rw, 6, .span 0 6, 0x0⟩,
  ⟨0x5000, 0x5000, 0x05, 0x05, .u32, .fixed 4, .rw, 100, .span 1 10000000, 0x0⟩,
  ⟨0x5000, 0x5000, 0x06, 0x06, .u8, .fixed 1, .rw, 3, .span 0 255, 0x0⟩,
  ⟨0x5000, 0x5000, 0x07, 0x07, .u64, .fixed 8, .ro, 0, .any, 0x0⟩,
  ⟨0x5000, 0x5000, 0x08, 0x08, .u64, .fixed 8, .ro, 0, .any, 0x0⟩,
  ⟨0x5000, 0x5000, 0x09, 0x09, .u64, .fixed 8, .ro, 0, .any, 0x0⟩,
  ⟨0x5000, 0x5000, 0x0A, 0x0A, .u32, .fixed 4, .ro, 0, .any, 0x0⟩,
  ⟨0x5000, 0x5000, 0x0B, 0x0B, .u32, .fixed 4, .ro, 0, .any, 0x0⟩,
  ⟨0x5000, 0x5000, 0x0C, 0x0C, .dom, .fixed 16, .ro, 0, .any, 0x0⟩,
  ⟨0x5000, 0x5000, 0x0D, 0x0D, .u8, .fixed 1, .wo, 0, .codes [1], 0x0⟩,
  ⟨0x5000, 0x5000, 0x0E, 0x0E, .u32, .fixed 4, .ro, 0, .any, 0x0⟩,
  ⟨0x5001, 0x5001, 0x00, 0x00, .u8, .fixed 1, .cst, 5, .any, 0x0⟩,
  ⟨0x5001, 0x5001, 0x01, 0x01, .u8, .fixed 1, .rw, 0, .codes [1, 2, 3], 0x0⟩,
  ⟨0x5001, 0x5001, 0x02, 0x02, .u16, .fixed 2, .rw, 0, .span 0 16383, 0x0⟩,
  ⟨0x5001, 0x5001, 0x03, 0x03, .u8, .fixed 1, .rw, 0, .any, 0x0⟩,
  ⟨0x5001, 0x5001, 0x04, 0x04, .u8, .fixed 1, .wo, 0, .codes [1], 0x0⟩,
  ⟨0x5001, 0x5001, 0x05, 0x05, .u8, .fixed 1, .ro, 0, .any, 0x0⟩,
  ⟨0x5100, 0x511F, 0x00, 0x00, .u8, .fixed 1, .cst, 9, .any, 0x0⟩,
  ⟨0x5100, 0x511F, 0x01, 0x01, .u8, .fixed 1, .ro, 0, .any, 0x0⟩,
  ⟨0x5100, 0x511F, 0x02, 0x02, .dom, .fixed 16, .ro, 0, .any, 0x0⟩]

/-- Dictionary rows of chapter 6, part 2. -/
def objRows06b : List ObjRow := [
  ⟨0x5100, 0x511F, 0x03, 0x03, .u16, .fixed 2, .ro, 0, .any, 0x0⟩,
  ⟨0x5100, 0x511F, 0x04, 0x04, .u8, .fixed 1, .ro, 255, .any, 0x0⟩,
  ⟨0x5100, 0x511F, 0x05, 0x05, .u64, .fixed 8, .ro, 0, .any, 0x0⟩,
  ⟨0x5100, 0x511F, 0x06, 0x06, .u32, .fixed 4, .ro, 0, .any, 0x0⟩,
  ⟨0x5100, 0x511F, 0x07, 0x07, .u32, .fixed 4, .ro, 0, .any, 0x0⟩,
  ⟨0x5100, 0x511F, 0x08, 0x08, .u8, .fixed 1, .wo, 0, .codes [1, 2], 0x0⟩,
  ⟨0x5100, 0x511F, 0x09, 0x09, .u32, .fixed 4, .ro, 0, .any, 0x0⟩,
  ⟨0x5200, 0x5200, 0x00, 0x00, .u8, .fixed 1, .cst, 7, .any, 0x0⟩,
  ⟨0x5200, 0x5200, 0x01, 0x01, .u64, .fixed 8, .rwi, 0, .stepped 0 0x7FFFFFFF 0x1000, 0x0⟩,
  ⟨0x5200, 0x5200, 0x02, 0x02, .u16, .fixed 2, .rw, 0, .span 0 4095, 0x0⟩,
  ⟨0x5200, 0x5200, 0x03, 0x03, .u8, .fixed 1, .ro, 255, .any, 0x0⟩,
  ⟨0x5200, 0x5200, 0x04, 0x04, .u16, .fixed 2, .ro, 0, .any, 0x0⟩,
  ⟨0x5200, 0x5200, 0x05, 0x05, .u16, .fixed 2, .ro, 0, .any, 0x0⟩,
  ⟨0x5200, 0x5200, 0x06, 0x06, .u16, .fixed 2, .wo, 0, .span 0 4095, 0x0⟩,
  ⟨0x5200, 0x5200, 0x07, 0x07, .u32, .fixed 4, .ro, 0, .any, 0x0⟩,
  ⟨0x5300, 0x5300, 0x00, 0x00, .u8, .fixed 1, .cst, 7, .any, 0x0⟩,
  ⟨0x5300, 0x5300, 0x01, 0x01, .u16, .fixed 2, .ro, 0, .any, 0x0⟩,
  ⟨0x5300, 0x5300, 0x02, 0x02, .u16, .fixed 2, .rw, 0, .span 0 16383, 0x0⟩,
  ⟨0x5300, 0x5300, 0x03, 0x03, .dom, .fixed 64, .ro, 0, .any, 0x0⟩,
  ⟨0x5300, 0x5300, 0x04, 0x04, .u16, .fixed 2, .wo, 0, .span 0 16383, 0x0⟩,
  ⟨0x5300, 0x5300, 0x05, 0x05, .dom, .fixed 8192, .rw, 0, .any, 0x0⟩,
  ⟨0x5300, 0x5300, 0x06, 0x06, .u32, .fixed 4, .ro, 0, .any, 0x0⟩,
  ⟨0x5300, 0x5300, 0x07, 0x07, .u32, .fixed 4, .ro, 0, .any, 0x0⟩,
  ⟨0x5340, 0x537F, 0x00, 0x00, .u8, .fixed 1, .cst, 10, .any, 0x0⟩]

/-- Dictionary rows of chapter 6, part 3. -/
def objRows06c : List ObjRow := [
  ⟨0x5340, 0x537F, 0x01, 0x01, .bool, .fixed 1, .rw, 0, .bool, 0x0⟩,
  ⟨0x5340, 0x537F, 0x02, 0x02, .u64, .fixed 8, .rwi, 0, .stepped 0 0xFFFFFFFFFFFFF 64, 0x0⟩,
  ⟨0x5340, 0x537F, 0x03, 0x03, .u8, .fixed 1, .rwi, 4, .span 4 16, 0x0⟩,
  ⟨0x5340, 0x537F, 0x04, 0x04, .u64, .fixed 8, .rwi, 0, .stepped 0 0xFFFFFFFFFFFFF 32, 0x0⟩,
  ⟨0x5340, 0x537F, 0x05, 0x05, .u8, .fixed 1, .rwi, 4, .span 4 16, 0x0⟩,
  ⟨0x5340, 0x537F, 0x06, 0x06, .u8, .fixed 1, .rwi, 0, .span 0 31, 0x0⟩,
  ⟨0x5340, 0x537F, 0x07, 0x07, .u8, .fixed 1, .rwi, 0, .span 0 63, 0x0⟩,
  ⟨0x5340, 0x537F, 0x08, 0x08, .u32, .fixed 4, .ro, 0, .any, 0x0⟩,
  ⟨0x5340, 0x537F, 0x09, 0x09, .u32, .fixed 4, .ro, 0, .any, 0x0⟩,
  ⟨0x5340, 0x537F, 0x0A, 0x0A, .u32, .fixed 4, .ro, 0, .any, 0x0⟩,
  ⟨0x5400, 0x5400, 0x00, 0x00, .u8, .fixed 1, .cst, 8, .any, 0x0⟩,
  ⟨0x5400, 0x5400, 0x01, 0x01, .bool, .fixed 1, .rw, 1, .bool, 0x0⟩,
  ⟨0x5400, 0x5400, 0x02, 0x02, .u64, .fixed 8, .rw, 1048575, .any, 0xFFFFFFFFFFF00000⟩,
  ⟨0x5400, 0x5400, 0x03, 0x03, .u8, .fixed 1, .rw, 0, .span 0 31, 0x0⟩,
  ⟨0x5400, 0x5400, 0x04, 0x04, .u32, .fixed 4, .ro, 0, .any, 0x0⟩,
  ⟨0x5400, 0x5400, 0x05, 0x05, .dom, .fixed 65536, .ro, 0, .any, 0x0⟩,
  ⟨0x5400, 0x5400, 0x06, 0x06, .u64, .fixed 8, .rwi, 0, .stepped 0 0x7FFFFFFF 0x1000, 0x0⟩,
  ⟨0x5400, 0x5400, 0x07, 0x07, .u32, .fixed 4, .rwi, 0, .spans [(0, 0), (0x1000, 0x1000000)] 0x1000, 0x0⟩,
  ⟨0x5400, 0x5400, 0x08, 0x08, .u64, .fixed 8, .ro, 0, .any, 0x0⟩,
  ⟨0x5800, 0x58FF, 0x00, 0x00, .u8, .fixed 1, .cst, 4, .any, 0x0⟩,
  ⟨0x5800, 0x58FF, 0x01, 0x01, .u16, .fixed 2, .ro, 0, .any, 0x0⟩,
  ⟨0x5800, 0x58FF, 0x02, 0x02, .u32, .fixed 4, .ro, 0, .any, 0x0⟩,
  ⟨0x5800, 0x58FF, 0x03, 0x03, .u16, .fixed 2, .ro, 0, .any, 0x0⟩,
  ⟨0x5800, 0x58FF, 0x04, 0x04, .u32, .fixed 4, .ro, 0, .any, 0x0⟩]

/-- Dictionary rows of chapter 7, part 1. -/
def objRows07a : List ObjRow := [
  ⟨0x6300, 0x6300, 0x00, 0x00, .u8, .fixed 1, .cst, 19, .any, 0x0⟩,
  ⟨0x6300, 0x6300, 0x01, 0x01, .u8, .fixed 1, .rw, 8, .span 0 32, 0x0⟩,
  ⟨0x6300, 0x6300, 0x02, 0x02, .u8, .fixed 1, .rw, 6, .span 0 16, 0x0⟩,
  ⟨0x6300, 0x6300, 0x03, 0x03, .u32, .fixed 4, .rw, 1000, .span 100 1000000, 0x0⟩,
  ⟨0x6300, 0x6300, 0x04, 0x04, .u16, .fixed 2, .rw, 256, .span 1 65535, 0x0⟩,
  ⟨0x6300, 0x6300, 0x05, 0x05, .u8, .fixed 1, .rw, 2, .span 1 16, 0x0⟩,
  ⟨0x6300, 0x6300, 0x06, 0x06, .u32, .fixed 4, .rw, 100, .span 0 3600000, 0x0⟩,
  ⟨0x6300, 0x6300, 0x07, 0x07, .u16, .fixed 2, .rw, 16, .span 0 256, 0x0⟩,
  ⟨0x6300, 0x6300, 0x08, 0x08, .u8, .fixed 1, .rw, 4, .span 0 16, 0x0⟩,
  ⟨0x6300, 0x6300, 0x09, 0x09, .u32, .fixed 4, .rw, 1000, .span 10 1000000, 0x0⟩,
  ⟨0x6300, 0x6300, 0x0A, 0x0A, .u8, .fixed 1, .ro, 0, .any, 0x0⟩,
  ⟨0x6300, 0x6300, 0x0B, 0x0B, .u64, .fixed 8, .ro, 0, .any, 0x0⟩,
  ⟨0x6300, 0x6300, 0x0C, 0x0C, .u64, .fixed 8, .ro, 0, .any, 0x0⟩,
  ⟨0x6300, 0x6300, 0x0D, 0x0D, .u32, .fixed 4, .ro, 0, .any, 0x0⟩,
  ⟨0x6300, 0x6300, 0x0E, 0x0E, .u32, .fixed 4, .ro, 0, .any, 0x0⟩,
  ⟨0x6300, 0x6300, 0x0F, 0x0F, .u32, .fixed 4, .ro, 0, .any, 0x0⟩,
  ⟨0x6300, 0x6300, 0x10, 0x10, .u64, .fixed 8, .ro, 0, .any, 0x0⟩,
  ⟨0x6300, 0x6300, 0x11, 0x11, .u64, .fixed 8, .ro, 0, .any, 0x0⟩,
  ⟨0x6300, 0x6300, 0x12, 0x12, .u8, .fixed 1, .ro, 0, .any, 0x0⟩,
  ⟨0x6300, 0x6300, 0x13, 0x13, .u32, .fixed 4, .ro, 0, .any, 0x0⟩,
  ⟨0x6301, 0x6301, 0x00, 0x00, .u8, .fixed 1, .cst, 6, .any, 0x0⟩,
  ⟨0x6301, 0x6301, 0x01, 0x01, .dom, .fixed 4096, .ro, 0, .any, 0x0⟩,
  ⟨0x6301, 0x6301, 0x02, 0x02, .u32, .fixed 4, .rw, 0, .span 0 32767, 0x0⟩,
  ⟨0x6301, 0x6301, 0x03, 0x03, .u8, .fixed 1, .wo, 0, .codes [1, 2], 0x0⟩]

/-- Dictionary rows of chapter 7, part 2. -/
def objRows07b : List ObjRow := [
  ⟨0x6301, 0x6301, 0x04, 0x04, .u8, .fixed 1, .ro, 0, .any, 0x0⟩,
  ⟨0x6301, 0x6301, 0x05, 0x05, .u16, .fixed 2, .ro, 0, .any, 0x0⟩,
  ⟨0x6301, 0x6301, 0x06, 0x06, .u16, .fixed 2, .ro, 0, .any, 0x0⟩,
  ⟨0x6302, 0x6302, 0x00, 0x00, .u8, .fixed 1, .cst, 8, .any, 0x0⟩,
  ⟨0x6302, 0x6302, 0x01, 0x01, .u64, .fixed 8, .rw, 0, .stepped 0 0xFFFFFFFFFFFFFFFF 8, 0x0⟩,
  ⟨0x6302, 0x6302, 0x02, 0x02, .u16, .fixed 2, .rw, 0, .span 0 4095, 0x0⟩,
  ⟨0x6302, 0x6302, 0x03, 0x03, .u8, .fixed 1, .rw, 0, .span 0 1, 0x0⟩,
  ⟨0x6302, 0x6302, 0x04, 0x04, .u32, .fixed 4, .rw, 4294967295, .spans [(0, 32767), (0xFFFFFFFF, 0xFFFFFFFF)] 1, 0x0⟩,
  ⟨0x6302, 0x6302, 0x05, 0x05, .u8, .fixed 1, .wo, 0, .codes [1], 0x0⟩,
  ⟨0x6302, 0x6302, 0x06, 0x06, .u8, .fixed 1, .ro, 0, .any, 0x0⟩,
  ⟨0x6302, 0x6302, 0x07, 0x07, .u8, .fixed 1, .ro, 255, .any, 0x0⟩,
  ⟨0x6302, 0x6302, 0x08, 0x08, .u8, .fixed 1, .wo, 0, .span 0 31, 0x0⟩,
  ⟨0x6303, 0x6303, 0x00, 0x00, .u8, .fixed 1, .cst, 4, .any, 0x0⟩,
  ⟨0x6303, 0x6303, 0x01, 0x01, .u16, .fixed 2, .ro, 0, .any, 0x0⟩,
  ⟨0x6303, 0x6303, 0x02, 0x02, .dom, .fixed 32, .ro, 0, .any, 0x0⟩,
  ⟨0x6303, 0x6303, 0x03, 0x03, .u8, .fixed 1, .wo, 0, .codes [1], 0x0⟩,
  ⟨0x6303, 0x6303, 0x04, 0x04, .u32, .fixed 4, .ro, 0, .any, 0x0⟩,
  ⟨0x6320, 0x633F, 0x00, 0x00, .u8, .fixed 1, .cst, 9, .any, 0x0⟩,
  ⟨0x6320, 0x633F, 0x01, 0x01, .u8, .fixed 1, .ro, 0, .any, 0x0⟩,
  ⟨0x6320, 0x633F, 0x02, 0x02, .u8, .fixed 1, .ro, 0, .any, 0x0⟩,
  ⟨0x6320, 0x633F, 0x03, 0x03, .u64, .fixed 8, .ro, 0, .any, 0x0⟩,
  ⟨0x6320, 0x633F, 0x04, 0x04, .u32, .fixed 4, .ro, 0, .any, 0x0⟩,
  ⟨0x6320, 0x633F, 0x05, 0x05, .u32, .fixed 4, .ro, 0, .any, 0x0⟩,
  ⟨0x6320, 0x633F, 0x06, 0x06, .u8, .fixed 1, .ro, 0, .any, 0x0⟩]

/-- Dictionary rows of chapter 7, part 3. -/
def objRows07c : List ObjRow := [
  ⟨0x6320, 0x633F, 0x07, 0x07, .u16, .fixed 2, .ro, 0, .any, 0x0⟩,
  ⟨0x6320, 0x633F, 0x08, 0x08, .ts, .fixed 8, .ro, 0, .any, 0x0⟩,
  ⟨0x6320, 0x633F, 0x09, 0x09, .u8, .fixed 1, .ro, 0, .any, 0x0⟩,
  ⟨0x6340, 0x635F, 0x00, 0x00, .u8, .fixed 1, .cst, 3, .any, 0x0⟩,
  ⟨0x6340, 0x635F, 0x01, 0x01, .u16, .fixed 2, .ro, 0, .any, 0x0⟩,
  ⟨0x6340, 0x635F, 0x02, 0x02, .dom, .fixed 8192, .ro, 0, .any, 0x0⟩,
  ⟨0x6340, 0x635F, 0x03, 0x03, .u64, .fixed 8, .ro, 0, .any, 0x0⟩,
  ⟨0x6380, 0x63FF, 0x00, 0x00, .u8, .fixed 1, .cst, 5, .any, 0x0⟩,
  ⟨0x6380, 0x63FF, 0x01, 0x01, .u32, .fixed 4, .ro, 0, .any, 0x0⟩,
  ⟨0x6380, 0x63FF, 0x02, 0x02, .u32, .fixed 4, .ro, 0, .any, 0x0⟩,
  ⟨0x6380, 0x63FF, 0x03, 0x03, .u32, .fixed 4, .ro, 0, .any, 0x0⟩,
  ⟨0x6380, 0x63FF, 0x04, 0x04, .u32, .fixed 4, .ro, 0, .any, 0x0⟩,
  ⟨0x6380, 0x63FF, 0x05, 0x05, .u32, .fixed 4, .ro, 0, .any, 0x0⟩]

/-- Dictionary rows of chapter 8, part 1. -/
def objRows08a : List ObjRow := [
  ⟨0xB000, 0xB000, 0x00, 0x00, .u8, .fixed 1, .cst, 8, .any, 0x0⟩,
  ⟨0xB000, 0xB000, 0x01, 0x01, .u8, .fixed 1, .cst, 66, .any, 0x0⟩,
  ⟨0xB000, 0xB000, 0x02, 0x02, .u32, .fixed 4, .ro, 0, .any, 0x0⟩,
  ⟨0xB000, 0xB000, 0x03, 0x03, .u32, .fixed 4, .ro, 0, .any, 0x0⟩,
  ⟨0xB000, 0xB000, 0x04, 0x04, .u32, .fixed 4, .ro, 0, .any, 0x0⟩,
  ⟨0xB000, 0xB000, 0x05, 0x05, .u32, .fixed 4, .ro, 0, .any, 0x0⟩,
  ⟨0xB000, 0xB000, 0x06, 0x06, .u32, .fixed 4, .rw, 1000, .spans [(0, 0), (100, 1000000)] 1, 0x0⟩,
  ⟨0xB000, 0xB000, 0x07, 0x07, .dom, .fixed 1024, .ro, 0, .any, 0x0⟩,
  ⟨0xB000, 0xB000, 0x08, 0x08, .u16, .fixed 2, .ro, 0, .any, 0x0⟩,
  ⟨0xB010, 0xB010, 0x00, 0x00, .u8, .fixed 1, .cst, 4, .any, 0x0⟩,
  ⟨0xB010, 0xB010, 0x01, 0x01, .bool, .fixed 1, .rw, 1, .bool, 0x0⟩,
  ⟨0xB010, 0xB010, 0x02, 0x02, .bool, .fixed 1, .rw, 0, .bool, 0x0⟩,
  ⟨0xB010, 0xB010, 0x03, 0x03, .u8, .fixed 1, .rw, 2, .span 0 8, 0x0⟩,
  ⟨0xB010, 0xB010, 0x04, 0x04, .u8, .fixed 1, .wo, 0, .codes [1], 0x0⟩,
  ⟨0xB040, 0xB081, 0x00, 0x00, .u8, .fixed 1, .cst, 9, .any, 0x0⟩,
  ⟨0xB040, 0xB081, 0x01, 0x01, .u8, .fixed 1, .cst, 0, .any, 0x0⟩,
  ⟨0xB040, 0xB081, 0x02, 0x02, .bool, .fixed 1, .ro, 0, .any, 0x0⟩,
  ⟨0xB040, 0xB081, 0x03, 0x03, .u32, .fixed 4, .ro, 0, .any, 0x0⟩,
  ⟨0xB040, 0xB081, 0x04, 0x04, .u64, .fixed 8, .ro, 0, .any, 0x0⟩,
  ⟨0xB040, 0xB081, 0x05, 0x05, .u64, .fixed 8, .ro, 0, .any, 0x0⟩,
  ⟨0xB040, 0xB081, 0x06, 0x06, .u64, .fixed 8, .ro, 0, .any, 0x0⟩,
  ⟨0xB040, 0xB081, 0x07, 0x07, .u64, .fixed 8, .ro, 0, .any, 0x0⟩,
  ⟨0xB040, 0xB081, 0x08, 0x08, .u64, .fixed 8, .ro, 0, .any, 0x0⟩,
  ⟨0xB040, 0xB081, 0x09, 0x09, .u16, .fixed 2, .ro, 0, .any, 0x0⟩]

/-- Dictionary rows of chapter 8, part 2. -/
def objRows08b : List ObjRow := [
  ⟨0xB100, 0xB2FF, 0x00, 0x00, .u8, .fixed 1, .cst, 12, .any, 0x0⟩,
  ⟨0xB100, 0xB2FF, 0x01, 0x01, .u64, .fixed 8, .ro, 0, .any, 0x0⟩,
  ⟨0xB100, 0xB2FF, 0x02, 0x02, .u64, .fixed 8, .ro, 0, .any, 0x0⟩,
  ⟨0xB100, 0xB2FF, 0x03, 0x03, .u64, .fixed 8, .ro, 0, .any, 0x0⟩,
  ⟨0xB100, 0xB2FF, 0x04, 0x04, .u64, .fixed 8, .ro, 0, .any, 0x0⟩,
  ⟨0xB100, 0xB2FF, 0x05, 0x05, .u64, .fixed 8, .ro, 0, .any, 0x0⟩,
  ⟨0xB100, 0xB2FF, 0x06, 0x06, .u64, .fixed 8, .ro, 0, .any, 0x0⟩,
  ⟨0xB100, 0xB2FF, 0x07, 0x07, .u64, .fixed 8, .ro, 0, .any, 0x0⟩,
  ⟨0xB100, 0xB2FF, 0x08, 0x08, .u64, .fixed 8, .ro, 0, .any, 0x0⟩,
  ⟨0xB100, 0xB2FF, 0x09, 0x09, .dom, .fixed 64, .ro, 0, .any, 0x0⟩,
  ⟨0xB100, 0xB2FF, 0x0A, 0x0A, .dom, .fixed 64, .ro, 0, .any, 0x0⟩,
  ⟨0xB100, 0xB2FF, 0x0B, 0x0B, .dom, .fixed 64, .ro, 0, .any, 0x0⟩,
  ⟨0xB100, 0xB2FF, 0x0C, 0x0C, .dom, .fixed 64, .ro, 0, .any, 0x0⟩]

/-- Dictionary rows of chapter 9, part 1. -/
def objRows09a : List ObjRow := [
  ⟨0x4000, 0x4000, 0x00, 0x00, .u8, .fixed 1, .cst, 7, .any, 0x0⟩,
  ⟨0x4000, 0x4000, 0x01, 0x01, .u16, .fixed 2, .cst, 512, .any, 0x0⟩,
  ⟨0x4000, 0x4000, 0x02, 0x02, .u16, .fixed 2, .ro, 0, .any, 0x0⟩,
  ⟨0x4000, 0x4000, 0x03, 0x03, .u32, .fixed 4, .rw, 2000, .span 200 100000, 0x0⟩,
  ⟨0x4000, 0x4000, 0x04, 0x04, .u8, .fixed 1, .rw, 3, .span 1 255, 0x0⟩,
  ⟨0x4000, 0x4000, 0x05, 0x05, .u64, .fixed 8, .ro, 0, .any, 0x0⟩,
  ⟨0x4000, 0x4000, 0x06, 0x06, .u32, .fixed 4, .ro, 0, .any, 0x0⟩,
  ⟨0x4000, 0x4000, 0x07, 0x07, .u64, .fixed 8, .ro, 0, .any, 0x0⟩,
  ⟨0x4001, 0x4001, 0x00, 0x00, .u8, .fixed 1, .cst, 4, .any, 0x0⟩,
  ⟨0x4001, 0x4001, 0x01, 0x01, .u8, .fixed 1, .rw, 0, .span 0 63, 0x0⟩,
  ⟨0x4001, 0x4001, 0x02, 0x02, .u16, .fixed 2, .rwi, 0, .stepped 0 5000 250, 0x0⟩,
  ⟨0x4001, 0x4001, 0x03, 0x03, .u8, .fixed 1, .rwi, 33, .span 25 66, 0x0⟩,
  ⟨0x4001, 0x4001, 0x04, 0x04, .u8, .fixed 1, .ro, 0, .any, 0x0⟩,
  ⟨0x4100, 0x42FF, 0x00, 0x00, .u8, .fixed 1, .cst, 32, .any, 0x0⟩,
  ⟨0x4100, 0x42FF, 0x01, 0x01, .bool, .fixed 1, .rw, 1, .bool, 0x0⟩,
  ⟨0x4100, 0x42FF, 0x02, 0x02, .u8, .fixed 1, .ro, 0, .any, 0x0⟩,
  ⟨0x4100, 0x42FF, 0x03, 0x03, .u8, .fixed 1, .rwi, 0, .span 0 4, 0x0⟩,
  ⟨0x4100, 0x42FF, 0x04, 0x04, .u8, .fixed 1, .rwi, 4, .span 0 4, 0x0⟩,
  ⟨0x4100, 0x42FF, 0x05, 0x05, .u8, .fixed 1, .ro, 0, .any, 0x0⟩,
  ⟨0x4100, 0x42FF, 0x06, 0x06, .bool, .fixed 1, .ro, 0, .any, 0x0⟩,
  ⟨0x4100, 0x42FF, 0x07, 0x07, .bool, .fixed 1, .ro, 0, .any, 0x0⟩,
  ⟨0x4100, 0x42FF, 0x08, 0x08, .u8, .fixed 1, .ro, 0, .any, 0x0⟩,
  ⟨0x4100, 0x42FF, 0x09, 0x09, .u16, .fixed 2, .ro, 0, .any, 0x0⟩,
  ⟨0x4100, 0x42FF, 0x0A, 0x0A, .u8, .fixed 1, .ro, 0, .any, 0x0⟩]

/-- Dictionary rows of chapter 9, part 2. -/
def objRows09b : List ObjRow := [
  ⟨0x4100, 0x42FF, 0x0B, 0x0B, .u8, .fixed 1, .rw, 4, .span 0 12, 0x0⟩,
  ⟨0x4100, 0x42FF, 0x0C, 0x0C, .u8, .fixed 1, .rw, 8, .span 0 24, 0x0⟩,
  ⟨0x4100, 0x42FF, 0x0D, 0x0D, .bool, .fixed 1, .rw, 0, .bool, 0x0⟩,
  ⟨0x4100, 0x42FF, 0x0E, 0x0E, .u32, .fixed 4, .ro, 0, .any, 0x0⟩,
  ⟨0x4100, 0x42FF, 0x0F, 0x0F, .u32, .fixed 4, .ro, 0, .any, 0x0⟩,
  ⟨0x4100, 0x42FF, 0x10, 0x10, .u8, .fixed 1, .ro, 0, .any, 0x0⟩,
  ⟨0x4100, 0x42FF, 0x11, 0x11, .u32, .fixed 4, .ro, 0, .any, 0x0⟩,
  ⟨0x4100, 0x42FF, 0x12, 0x12, .u64, .fixed 8, .ro, 0, .any, 0x0⟩,
  ⟨0x4100, 0x42FF, 0x13, 0x13, .u64, .fixed 8, .ro, 0, .any, 0x0⟩,
  ⟨0x4100, 0x42FF, 0x14, 0x14, .u64, .fixed 8, .ro, 0, .any, 0x0⟩,
  ⟨0x4100, 0x42FF, 0x15, 0x15, .u8, .fixed 1, .wo, 0, .codes [1, 2, 3, 4], 0x0⟩,
  ⟨0x4100, 0x42FF, 0x16, 0x16, .u8, .fixed 1, .rwi, 2, .span 0 2, 0x0⟩,
  ⟨0x4100, 0x42FF, 0x17, 0x17, .bool, .fixed 1, .ro, 0, .any, 0x0⟩,
  ⟨0x4100, 0x42FF, 0x18, 0x18, .u64, .fixed 8, .ro, 0, .any, 0x0⟩,
  ⟨0x4100, 0x42FF, 0x19, 0x19, .u64, .fixed 8, .ro, 0, .any, 0x0⟩,
  ⟨0x4100, 0x42FF, 0x1A, 0x1A, .u8, .fixed 1, .rw, 1, .span 0 2, 0x0⟩,
  ⟨0x4100, 0x42FF, 0x1B, 0x1B, .i32, .fixed 4, .rw, 0, .signed 32 (-32) 31, 0x0⟩,
  ⟨0x4100, 0x42FF, 0x1C, 0x1C, .i32, .fixed 4, .rw, 0, .signed 32 (-63) 63, 0x0⟩,
  ⟨0x4100, 0x42FF, 0x1D, 0x1D, .u8, .fixed 1, .rw, 20, .span 10 40, 0x0⟩,
  ⟨0x4100, 0x42FF, 0x1E, 0x1E, .u8, .fixed 1, .wo, 0, .codes [1], 0x0⟩,
  ⟨0x4100, 0x42FF, 0x1F, 0x1F, .u8, .fixed 1, .ro, 0, .any, 0x0⟩,
  ⟨0x4100, 0x42FF, 0x20, 0x20, .u64, .fixed 8, .ro, 0, .any, 0x0⟩]

/-- Dictionary rows of chapter 10, part 1. -/
def objRows10a : List ObjRow := [
  ⟨0x4400, 0x45FF, 0x00, 0x00, .u8, .fixed 1, .cst, 27, .any, 0x0⟩,
  ⟨0x4400, 0x45FF, 0x01, 0x01, .u8, .fixed 1, .ro, 0, .any, 0x0⟩,
  ⟨0x4400, 0x45FF, 0x02, 0x02, .u8, .fixed 1, .ro, 0, .any, 0x0⟩,
  ⟨0x4400, 0x45FF, 0x03, 0x03, .u8, .fixed 1, .ro, 0, .any, 0x0⟩,
  ⟨0x4400, 0x45FF, 0x04, 0x04, .u16, .fixed 2, .ro, 0, .any, 0x0⟩,
  ⟨0x4400, 0x45FF, 0x05, 0x05, .u16, .fixed 2, .ro, 0, .any, 0x0⟩,
  ⟨0x4400, 0x45FF, 0x06, 0x06, .u16, .fixed 2, .rwi, 1024, .span 0 8191, 0x0⟩,
  ⟨0x4400, 0x45FF, 0x07, 0x07, .u16, .fixed 2, .rwi, 3072, .span 0 8191, 0x0⟩,
  ⟨0x4400, 0x45FF, 0x08, 0x08, .u16, .fixed 2, .rwi, 512, .span 0 8191, 0x0⟩,
  ⟨0x4400, 0x45FF, 0x09, 0x09, .u16, .fixed 2, .rwi, 2560, .span 0 8191, 0x0⟩,
  ⟨0x4400, 0x45FF, 0x0A, 0x0A, .u16, .fixed 2, .rwi, 512, .span 0 8191, 0x0⟩,
  ⟨0x4400, 0x45FF, 0x0B, 0x0B, .u16, .fixed 2, .rwi, 512, .span 0 8191, 0x0⟩,
  ⟨0x4400, 0x45FF, 0x0C, 0x0C, .u8, .fixed 1, .rw, 0, .any, 0xF4⟩,
  ⟨0x4400, 0x45FF, 0x0D, 0x0D, .u64, .fixed 8, .ro, 0, .any, 0x0⟩,
  ⟨0x4400, 0x45FF, 0x0E, 0x0E, .u64, .fixed 8, .ro, 0, .any, 0x0⟩,
  ⟨0x4400, 0x45FF, 0x0F, 0x0F, .u64, .fixed 8, .ro, 0, .any, 0x0⟩,
  ⟨0x4400, 0x45FF, 0x10, 0x10, .u64, .fixed 8, .ro, 0, .any, 0x0⟩,
  ⟨0x4400, 0x45FF, 0x11, 0x11, .u32, .fixed 4, .ro, 0, .any, 0x0⟩,
  ⟨0x4400, 0x45FF, 0x12, 0x12, .u32, .fixed 4, .ro, 0, .any, 0x0⟩,
  ⟨0x4400, 0x45FF, 0x13, 0x13, .u32, .fixed 4, .ro, 0, .any, 0x0⟩,
  ⟨0x4400, 0x45FF, 0x14, 0x14, .u32, .fixed 4, .ro, 0, .any, 0x0⟩,
  ⟨0x4400, 0x45FF, 0x15, 0x15, .u32, .fixed 4, .ro, 0, .any, 0x0⟩,
  ⟨0x4400, 0x45FF, 0x16, 0x16, .u32, .fixed 4, .ro, 0, .any, 0x0⟩,
  ⟨0x4400, 0x45FF, 0x17, 0x17, .u8, .fixed 1, .ro, 0, .any, 0x0⟩]

/-- Dictionary rows of chapter 10, part 2. -/
def objRows10b : List ObjRow := [
  ⟨0x4400, 0x45FF, 0x18, 0x18, .ts, .fixed 8, .ro, 0, .any, 0x0⟩,
  ⟨0x4400, 0x45FF, 0x19, 0x19, .u32, .fixed 4, .ro, 0, .any, 0x0⟩,
  ⟨0x4400, 0x45FF, 0x1A, 0x1A, .u32, .fixed 4, .ro, 0, .any, 0x0⟩,
  ⟨0x4400, 0x45FF, 0x1B, 0x1B, .u32, .fixed 4, .rw, 0, .spans [(0, 0), (10, 1000000)] 1, 0x0⟩,
  ⟨0x4600, 0x463F, 0x00, 0x00, .u8, .fixed 1, .cst, 7, .any, 0x0⟩,
  ⟨0x4600, 0x463F, 0x01, 0x01, .u8, .fixed 1, .rwi, 1, .any, 0x0⟩,
  ⟨0x4600, 0x463F, 0x02, 0x02, .u16, .fixed 2, .rw, 256, .stepped 64 4096 64, 0x0⟩,
  ⟨0x4600, 0x463F, 0x03, 0x03, .u16, .fixed 2, .ro, 8192, .any, 0x0⟩,
  ⟨0x4600, 0x463F, 0x04, 0x04, .u16, .fixed 2, .ro, 0, .any, 0x0⟩,
  ⟨0x4600, 0x463F, 0x05, 0x05, .u16, .fixed 2, .ro, 0, .any, 0x0⟩,
  ⟨0x4600, 0x463F, 0x06, 0x06, .u16, .fixed 2, .ro, 0, .any, 0x0⟩,
  ⟨0x4600, 0x463F, 0x07, 0x07, .u32, .fixed 4, .ro, 0, .any, 0x0⟩,
  ⟨0x4800, 0x4800, 0x00, 0x00, .u8, .fixed 1, .cst, 12, .any, 0x0⟩,
  ⟨0x4800, 0x4800, 0x01, 0x01, .u16, .fixed 2, .rwi, 0, .span 0 4095, 0x0⟩,
  ⟨0x4800, 0x4800, 0x02, 0x02, .u16, .fixed 2, .ro, 0, .any, 0x0⟩,
  ⟨0x4800, 0x4800, 0x03, 0x03, .u8, .fixed 1, .rw, 0, .span 0 1, 0x0⟩,
  ⟨0x4800, 0x4800, 0x04, 0x04, .u32, .fixed 4, .rw, 100, .span 10 1000000, 0x0⟩,
  ⟨0x4800, 0x4800, 0x05, 0x05, .u32, .fixed 4, .rw, 1000, .span 100 10000000, 0x0⟩,
  ⟨0x4800, 0x4800, 0x06, 0x06, .u16, .fixed 2, .rw, 0, .span 0 4095, 0x0⟩,
  ⟨0x4800, 0x4800, 0x07, 0x07, .u64, .fixed 8, .ro, 0, .any, 0x0⟩,
  ⟨0x4800, 0x4800, 0x08, 0x08, .u64, .fixed 8, .rw, 0, .any, 0x0⟩,
  ⟨0x4800, 0x4800, 0x09, 0x09, .dom, .fixed 1024, .ro, 0, .any, 0x0⟩,
  ⟨0x4800, 0x4800, 0x0A, 0x0A, .u32, .fixed 4, .ro, 0, .any, 0x0⟩,
  ⟨0x4800, 0x4800, 0x0B, 0x0B, .u32, .fixed 4, .ro, 0, .any, 0x0⟩]

/-- Dictionary rows of chapter 10, part 3. -/
def objRows10c : List ObjRow := [
  ⟨0x4800, 0x4800, 0x0C, 0x0C, .u32, .fixed 4, .ro, 0, .any, 0x0⟩,
  ⟨0x4801, 0x4801, 0x00, 0x00, .u8, .fixed 1, .cst, 7, .any, 0x0⟩,
  ⟨0x4801, 0x4801, 0x01, 0x01, .u16, .fixed 2, .rw, 65535, .spans [(0, 511), (0xFFFF, 0xFFFF)] 1, 0x0⟩,
  ⟨0x4801, 0x4801, 0x02, 0x02, .u32, .fixed 4, .rw, 1000, .span 100 1000000, 0x0⟩,
  ⟨0x4801, 0x4801, 0x03, 0x03, .i64, .fixed 8, .ro, 0, .any, 0x0⟩,
  ⟨0x4801, 0x4801, 0x04, 0x04, .ts, .fixed 8, .ro, 0, .any, 0x0⟩,
  ⟨0x4801, 0x4801, 0x05, 0x05, .u8, .fixed 1, .ro, 0, .any, 0x0⟩,
  ⟨0x4801, 0x4801, 0x06, 0x06, .u32, .fixed 4, .ro, 0, .any, 0x0⟩,
  ⟨0x4801, 0x4801, 0x07, 0x07, .u32, .fixed 4, .ro, 0, .any, 0x0⟩]

/-- Dictionary rows of chapter 11, part 1. -/
def objRows11a : List ObjRow := [
  ⟨0x7000, 0x7000, 0x00, 0x00, .u8, .fixed 1, .cst, 17, .any, 0x0⟩,
  ⟨0x7000, 0x7000, 0x01, 0x01, .u8, .fixed 1, .ro, 0, .any, 0x0⟩,
  ⟨0x7000, 0x7000, 0x02, 0x02, .u8, .fixed 1, .ro, 0, .any, 0x0⟩,
  ⟨0x7000, 0x7000, 0x03, 0x03, .u8, .fixed 1, .ro, 0, .any, 0x0⟩,
  ⟨0x7000, 0x7000, 0x04, 0x04, .u8, .fixed 1, .ro, 0, .any, 0x0⟩,
  ⟨0x7000, 0x7000, 0x05, 0x05, .u8, .fixed 1, .ro, 0, .any, 0x0⟩,
  ⟨0x7000, 0x7000, 0x06, 0x06, .u32, .fixed 4, .ro, 0, .any, 0x0⟩,
  ⟨0x7000, 0x7000, 0x07, 0x07, .u32, .fixed 4, .ro, 0, .any, 0x0⟩,
  ⟨0x7000, 0x7000, 0x08, 0x08, .u32, .fixed 4, .ro, 0, .any, 0x0⟩,
  ⟨0x7000, 0x7000, 0x09, 0x09, .ts, .fixed 8, .ro, 0, .any, 0x0⟩,
  ⟨0x7000, 0x7000, 0x0A, 0x0A, .ts, .fixed 8, .ro, 0, .any, 0x0⟩,
  ⟨0x7000, 0x7000, 0x0B, 0x0B, .u32, .fixed 4, .ro, 10000, .any, 0x0⟩,
  ⟨0x7000, 0x7000, 0x0C, 0x0C, .u64, .fixed 8, .ro, 0, .any, 0x0⟩,
  ⟨0x7000, 0x7000, 0x0D, 0x0D, .u32, .fixed 4, .rw, 1000, .span 10 60000, 0x0⟩,
  ⟨0x7000, 0x7000, 0x0E, 0x0E, .u32, .fixed 4, .ro, 0, .any, 0x0⟩,
  ⟨0x7000, 0x7000, 0x0F, 0x0F, .dom, .fixed 64, .ro, 0, .any, 0x0⟩,
  ⟨0x7000, 0x7000, 0x10, 0x10, .u64, .fixed 8, .ro, 0, .any, 0x0⟩,
  ⟨0x7000, 0x7000, 0x11, 0x11, .u8, .fixed 1, .ro, 0, .any, 0x0⟩,
  ⟨0x7001, 0x7001, 0x00, 0x00, .u8, .fixed 1, .cst, 15, .any, 0x0⟩,
  ⟨0x7001, 0x7001, 0x01, 0x01, .u8, .fixed 1, .ro, 0, .any, 0x0⟩,
  ⟨0x7001, 0x7001, 0x02, 0x05, .dom, .fixed 64, .ro, 0, .any, 0x0⟩,
  ⟨0x7001, 0x7001, 0x06, 0x06, .u8, .fixed 1, .ro, 0, .any, 0x0⟩,
  ⟨0x7001, 0x7001, 0x07, 0x07, .u8, .fixed 1, .ro, 0, .any, 0x0⟩,
  ⟨0x7001, 0x7001, 0x08, 0x08, .bool, .fixed 1, .ro, 0, .any, 0x0⟩]

/-- Dictionary rows of chapter 11, part 2. -/
def objRows11b : List ObjRow := [
  ⟨0x7001, 0x7001, 0x09, 0x09, .u8, .fixed 1, .ro, 0, .any, 0x0⟩,
  ⟨0x7001, 0x7001, 0x0A, 0x0A, .u8, .fixed 1, .rw, 0, .span 1 5, 0x0⟩,
  ⟨0x7001, 0x7001, 0x0B, 0x0B, .u8, .fixed 1, .rw, 0, .span 0 3, 0x0⟩,
  ⟨0x7001, 0x7001, 0x0C, 0x0C, .dom, .upTo 64, .rw, 0, .any, 0x0⟩,
  ⟨0x7001, 0x7001, 0x0D, 0x0D, .dom, .fixed 1028, .rw, 0, .any, 0x0⟩,
  ⟨0x7001, 0x7001, 0x0E, 0x0E, .u8, .fixed 1, .wo, 0, .codes [1], 0x0⟩,
  ⟨0x7001, 0x7001, 0x0F, 0x0F, .u8, .fixed 1, .ro, 0, .any, 0x0⟩,
  ⟨0x7002, 0x7002, 0x00, 0x00, .u8, .fixed 1, .cst, 13, .any, 0x0⟩,
  ⟨0x7002, 0x7002, 0x01, 0x01, .u64, .fixed 8, .rw, 0, .stepped 0 0x7FFFFFFF 32, 0x0⟩,
  ⟨0x7002, 0x7002, 0x02, 0x02, .u32, .fixed 4, .rw, 0, .span 5568 4294967295, 0x0⟩,
  ⟨0x7002, 0x7002, 0x03, 0x03, .u8, .fixed 1, .wo, 0, .span 1 5, 0x0⟩,
  ⟨0x7002, 0x7002, 0x04, 0x04, .u8, .fixed 1, .rw, 0, .span 0 31, 0x0⟩,
  ⟨0x7002, 0x7002, 0x05, 0x05, .u8, .fixed 1, .ro, 0, .any, 0x0⟩,
  ⟨0x7002, 0x7002, 0x06, 0x06, .u8, .fixed 1, .ro, 0, .any, 0x0⟩,
  ⟨0x7002, 0x7002, 0x07, 0x07, .u16, .fixed 2, .ro, 0, .any, 0x0⟩,
  ⟨0x7002, 0x7002, 0x08, 0x08, .dom, .fixed 64, .ro, 0, .any, 0x0⟩,
  ⟨0x7002, 0x7002, 0x09, 0x09, .u64, .fixed 8, .ro, 0, .any, 0x0⟩,
  ⟨0x7002, 0x7002, 0x0A, 0x0A, .u64, .fixed 8, .ro, 0, .any, 0x0⟩,
  ⟨0x7002, 0x7002, 0x0B, 0x0B, .u8, .fixed 1, .ro, 255, .any, 0x0⟩,
  ⟨0x7002, 0x7002, 0x0C, 0x0C, .u64, .fixed 8, .ro, 0, .any, 0x0⟩,
  ⟨0x7002, 0x7002, 0x0D, 0x0D, .dom, .fixed 256, .ro, 0, .any, 0x0⟩,
  ⟨0x7003, 0x7003, 0x00, 0x00, .u8, .fixed 1, .cst, 6, .any, 0x0⟩,
  ⟨0x7003, 0x7003, 0x01, 0x01, .dom, .fixed 32, .rw, 0, .any, 0x0⟩,
  ⟨0x7003, 0x7003, 0x02, 0x02, .u8, .fixed 1, .wo, 0, .codes [1], 0x0⟩]

/-- Dictionary rows of chapter 11, part 3. -/
def objRows11c : List ObjRow := [
  ⟨0x7003, 0x7003, 0x03, 0x03, .u8, .fixed 1, .ro, 0, .any, 0x0⟩,
  ⟨0x7003, 0x7003, 0x04, 0x04, .dom, .fixed 1024, .ro, 0, .any, 0x0⟩,
  ⟨0x7003, 0x7003, 0x05, 0x05, .dom, .fixed 516, .cst, 0, .any, 0x0⟩,
  ⟨0x7003, 0x7003, 0x06, 0x06, .dom, .upTo 4096, .cst, 0, .any, 0x0⟩]

/-- Dictionary rows of chapter 12, part 1. -/
def objRows12a : List ObjRow := [
  ⟨0x1000, 0x1000, 0x00, 0x00, .u8, .fixed 1, .cst, 9, .any, 0x0⟩,
  ⟨0x1000, 0x1000, 0x01, 0x01, .str, .upTo 32, .cst, 2551994021328586560061114486303824775997388619, .any, 0x0⟩,
  ⟨0x1000, 0x1000, 0x02, 0x02, .str, .upTo 16, .cst, 3627081, .any, 0x0⟩,
  ⟨0x1000, 0x1000, 0x03, 0x03, .str, .upTo 16, .cst, 0, .any, 0x0⟩,
  ⟨0x1000, 0x1000, 0x04, 0x04, .u8, .fixed 1, .cst, 0, .any, 0x0⟩,
  ⟨0x1000, 0x1000, 0x05, 0x05, .u64, .fixed 8, .cst, 0, .any, 0x0⟩,
  ⟨0x1000, 0x1000, 0x06, 0x06, .u32, .fixed 4, .cst, 65536, .any, 0x0⟩,
  ⟨0x1000, 0x1000, 0x07, 0x07, .u16, .fixed 2, .cst, 7895, .any, 0x0⟩,
  ⟨0x1000, 0x1000, 0x08, 0x08, .u16, .fixed 2, .cst, 2311, .any, 0x0⟩,
  ⟨0x1000, 0x1000, 0x09, 0x09, .ts, .fixed 8, .ro, 0, .any, 0x0⟩,
  ⟨0x1100, 0x1100, 0x00, 0x00, .u8, .fixed 1, .cst, 9, .any, 0x0⟩,
  ⟨0x1100, 0x1100, 0x01, 0x01, .u32, .fixed 4, .rw, 1000, .span 10 60000, 0x0⟩,
  ⟨0x1100, 0x1100, 0x02, 0x02, .u8, .fixed 1, .rw, 63, .spans [(0, 63), (255, 255)] 1, 0x0⟩,
  ⟨0x1100, 0x1100, 0x03, 0x03, .u64, .fixed 8, .ro, 0, .any, 0x0⟩,
  ⟨0x1100, 0x1100, 0x04, 0x04, .u64, .fixed 8, .ro, 0, .any, 0x0⟩,
  ⟨0x1100, 0x1100, 0x05, 0x05, .u32, .fixed 4, .ro, 0, .any, 0x0⟩,
  ⟨0x1100, 0x1100, 0x06, 0x06, .u32, .fixed 4, .ro, 0, .any, 0x0⟩,
  ⟨0x1100, 0x1100, 0x07, 0x07, .u32, .fixed 4, .ro, 0, .any, 0x0⟩,
  ⟨0x1100, 0x1100, 0x08, 0x08, .u32, .fixed 4, .rw, 100, .span 1 60000, 0x0⟩,
  ⟨0x1100, 0x1100, 0x09, 0x09, .u32, .fixed 4, .ro, 0, .any, 0x0⟩,
  ⟨0x1110, 0x1110, 0x00, 0x00, .u8, .fixed 1, .cst, 7, .any, 0x0⟩,
  ⟨0x1110, 0x1110, 0x01, 0x01, .bool, .fixed 1, .rw, 1, .bool, 0x0⟩,
  ⟨0x1110, 0x1110, 0x02, 0x02, .u8, .fixed 1, .ro, 0, .any, 0x0⟩,
  ⟨0x1110, 0x1110, 0x03, 0x03, .u8, .fixed 1, .ro, 0, .any, 0x0⟩]

/-- Dictionary rows of chapter 12, part 2. -/
def objRows12b : List ObjRow := [
  ⟨0x1110, 0x1110, 0x04, 0x04, .bool, .fixed 1, .ro, 0, .any, 0x0⟩,
  ⟨0x1110, 0x1110, 0x05, 0x05, .bool, .fixed 1, .ro, 0, .any, 0x0⟩,
  ⟨0x1110, 0x1110, 0x06, 0x06, .u32, .fixed 4, .ro, 0, .any, 0x0⟩,
  ⟨0x1110, 0x1110, 0x07, 0x07, .u32, .fixed 4, .ro, 0, .any, 0x0⟩,
  ⟨0x1120, 0x1121, 0x00, 0x00, .u8, .fixed 1, .cst, 14, .any, 0x0⟩,
  ⟨0x1120, 0x1121, 0x01, 0x01, .bool, .fixed 1, .rw, 1, .bool, 0x0⟩,
  ⟨0x1120, 0x1121, 0x02, 0x02, .u16, .fixed 2, .rwi, 500, .oneOf [125, 250, 500, 1000], 0x0⟩,
  ⟨0x1120, 0x1121, 0x03, 0x03, .u16, .fixed 2, .rwi, 2000, .oneOf [1000, 2000, 4000, 5000, 8000], 0x0⟩,
  ⟨0x1120, 0x1121, 0x04, 0x04, .u16, .fixed 2, .rwi, 800, .span 500 900, 0x0⟩,
  ⟨0x1120, 0x1121, 0x05, 0x05, .u16, .fixed 2, .rwi, 750, .span 500 900, 0x0⟩,
  ⟨0x1120, 0x1121, 0x06, 0x06, .u8, .fixed 1, .ro, 3, .any, 0x0⟩,
  ⟨0x1120, 0x1121, 0x07, 0x07, .u8, .fixed 1, .ro, 0, .any, 0x0⟩,
  ⟨0x1120, 0x1121, 0x08, 0x08, .u8, .fixed 1, .ro, 0, .any, 0x0⟩,
  ⟨0x1120, 0x1121, 0x09, 0x09, .u64, .fixed 8, .ro, 0, .any, 0x0⟩,
  ⟨0x1120, 0x1121, 0x0A, 0x0A, .u64, .fixed 8, .ro, 0, .any, 0x0⟩,
  ⟨0x1120, 0x1121, 0x0B, 0x0B, .u32, .fixed 4, .ro, 0, .any, 0x0⟩,
  ⟨0x1120, 0x1121, 0x0C, 0x0C, .u16, .fixed 2, .rw, 1000, .spans [(0, 0), (10, 60000)] 1, 0x0⟩,
  ⟨0x1120, 0x1121, 0x0D, 0x0D, .u16, .fixed 2, .rw, 0, .span 0 4095, 0x0⟩,
  ⟨0x1120, 0x1121, 0x0E, 0x0E, .u32, .fixed 4, .ro, 0, .any, 0x0⟩,
  ⟨0x1200, 0x1200, 0x00, 0x00, .u8, .fixed 1, .cst, 8, .any, 0x0⟩,
  ⟨0x1200, 0x1200, 0x01, 0x08, .u8, .fixed 1, .ro, 0, .any, 0x0⟩,
  ⟨0x1201, 0x1201, 0x00, 0x00, .u8, .fixed 1, .cst, 8, .any, 0x0⟩,
  ⟨0x1201, 0x1201, 0x01, 0x08, .u8, .fixed 1, .rw, 0, .span 0 1, 0x0⟩,
  ⟨0x1240, 0x1240, 0x00, 0x00, .u8, .fixed 1, .cst, 17, .any, 0x0⟩]

/-- Dictionary rows of chapter 12, part 3. -/
def objRows12c : List ObjRow := [
  ⟨0x1240, 0x1240, 0x01, 0x01, .u32, .fixed 4, .rw, 0, .span 1 0xFFFFFFFF, 0x0⟩,
  ⟨0x1240, 0x1240, 0x02, 0x02, .u8, .fixed 1, .rw, 0, .span 0 1, 0x0⟩,
  ⟨0x1240, 0x1240, 0x03, 0x03, .u16, .fixed 2, .rw, 1, .any, 0xFFFC⟩,
  ⟨0x1240, 0x1240, 0x04, 0x04, .dom, .fixed 512, .rw, 0, .any, 0x0⟩,
  ⟨0x1240, 0x1240, 0x05, 0x05, .u8, .fixed 1, .wo, 0, .codes [1], 0x0⟩,
  ⟨0x1240, 0x1240, 0x06, 0x06, .u8, .fixed 1, .ro, 0, .any, 0x0⟩,
  ⟨0x1240, 0x1240, 0x07, 0x07, .ts, .fixed 8, .ro, 0, .any, 0x0⟩,
  ⟨0x1240, 0x1240, 0x08, 0x08, .u32, .fixed 4, .ro, 0, .any, 0x0⟩,
  ⟨0x1240, 0x1240, 0x09, 0x09, .u16, .fixed 2, .ro, 65535, .any, 0x0⟩,
  ⟨0x1240, 0x1240, 0x0A, 0x0A, .dom, .fixed 256, .ro, 0, .any, 0x0⟩,
  ⟨0x1240, 0x1240, 0x0B, 0x0B, .dom, .fixed 2048, .ro, 0, .any, 0x0⟩,
  ⟨0x1240, 0x1240, 0x0C, 0x0C, .u32, .fixed 4, .ro, 0, .any, 0x0⟩,
  ⟨0x1240, 0x1240, 0x0D, 0x0D, .u16, .fixed 2, .rw, 10, .span 1 1000, 0x0⟩,
  ⟨0x1240, 0x1240, 0x0E, 0x0E, .u32, .fixed 4, .rw, 100, .span 100 100000, 0x0⟩,
  ⟨0x1240, 0x1240, 0x0F, 0x0F, .u32, .fixed 4, .rw, 50, .span 10 100000, 0x0⟩,
  ⟨0x1240, 0x1240, 0x10, 0x10, .u32, .fixed 4, .rw, 1000, .span 100 1000000, 0x0⟩,
  ⟨0x1240, 0x1240, 0x11, 0x11, .u8, .fixed 1, .rw, 255, .spans [(0, 63), (255, 255)] 1, 0x0⟩,
  ⟨0x1241, 0x1241, 0x00, 0x00, .u8, .fixed 1, .cst, 6, .any, 0x0⟩,
  ⟨0x1241, 0x1241, 0x01, 0x01, .u8, .fixed 1, .ro, 0, .any, 0x0⟩,
  ⟨0x1241, 0x1241, 0x02, 0x02, .u32, .fixed 4, .ro, 0, .any, 0x0⟩,
  ⟨0x1241, 0x1241, 0x03, 0x03, .u16, .fixed 2, .ro, 65535, .any, 0x0⟩,
  ⟨0x1241, 0x1241, 0x04, 0x04, .ts, .fixed 8, .ro, 0, .any, 0x0⟩,
  ⟨0x1241, 0x1241, 0x05, 0x05, .u8, .fixed 1, .wo, 0, .codes [1, 2], 0x0⟩,
  ⟨0x1241, 0x1241, 0x06, 0x06, .u32, .fixed 4, .ro, 0, .any, 0x0⟩]

/-- Dictionary rows of chapter 12, part 4. -/
def objRows12d : List ObjRow := [
  ⟨0x1242, 0x1242, 0x00, 0x00, .dom, .fixed 2048, .ro, 0, .any, 0x0⟩]

/-- Dictionary rows of chapter 13, part 1. -/
def objRows13a : List ObjRow := [
  ⟨0x8000, 0x8000, 0x00, 0x00, .u8, .fixed 1, .cst, 10, .any, 0x0⟩,
  ⟨0x8000, 0x8000, 0x01, 0x01, .u32, .fixed 4, .cst, 100000000, .any, 0x0⟩,
  ⟨0x8000, 0x8000, 0x02, 0x02, .u64, .fixed 8, .cst, 28800000000, .any, 0x0⟩,
  ⟨0x8000, 0x8000, 0x03, 0x03, .bool, .fixed 1, .ro, 0, .any, 0x0⟩,
  ⟨0x8000, 0x8000, 0x04, 0x04, .u16, .fixed 2, .rwi, 0, .oneOf [24, 30, 36, 48, 72, 144], 0x0⟩,
  ⟨0x8000, 0x8000, 0x05, 0x05, .u32, .fixed 4, .ro, 0, .any, 0x0⟩,
  ⟨0x8000, 0x8000, 0x06, 0x06, .u16, .fixed 2, .rw, 50, .span 50 1000, 0x0⟩,
  ⟨0x8000, 0x8000, 0x07, 0x07, .u16, .fixed 2, .rw, 288, .oneOf [0, 144, 288, 576, 1152], 0x0⟩,
  ⟨0x8000, 0x8000, 0x08, 0x08, .u16, .fixed 2, .rw, 0, .stepped 0 5000 250, 0x0⟩,
  ⟨0x8000, 0x8000, 0x09, 0x09, .u8, .fixed 1, .rw, 33, .span 25 66, 0x0⟩,
  ⟨0x8000, 0x8000, 0x0A, 0x0A, .u64, .fixed 8, .ro, 0, .any, 0x0⟩,
  ⟨0x8001, 0x8001, 0x00, 0x00, .u8, .fixed 1, .cst, 6, .any, 0x0⟩,
  ⟨0x8001, 0x8001, 0x01, 0x01, .u32, .fixed 4, .ro, 0, .any, 0x0⟩,
  ⟨0x8001, 0x8001, 0x02, 0x02, .u8, .fixed 1, .ro, 0, .any, 0x0⟩,
  ⟨0x8001, 0x8001, 0x03, 0x03, .ts, .fixed 8, .ro, 0, .any, 0x0⟩,
  ⟨0x8001, 0x8001, 0x04, 0x04, .u32, .fixed 4, .ro, 0, .any, 0x0⟩,
  ⟨0x8001, 0x8001, 0x05, 0x05, .u8, .fixed 1, .ro, 255, .any, 0x0⟩,
  ⟨0x8001, 0x8001, 0x06, 0x06, .u32, .fixed 4, .ro, 0, .any, 0x0⟩,
  ⟨0x8100, 0x813F, 0x00, 0x00, .u8, .fixed 1, .cst, 3, .any, 0x0⟩,
  ⟨0x8100, 0x813F, 0x01, 0x01, .u8, .fixed 1, .ro, 0, .any, 0x0⟩,
  ⟨0x8100, 0x813F, 0x02, 0x02, .u8, .fixed 1, .ro, 0, .any, 0x0⟩,
  ⟨0x8100, 0x813F, 0x03, 0x03, .u64, .fixed 8, .ro, 0, .any, 0x0⟩,
  ⟨0x8200, 0x8200, 0x00, 0x00, .u8, .fixed 1, .cst, 15, .any, 0x0⟩,
  ⟨0x8200, 0x8200, 0x01, 0x01, .u32, .fixed 4, .rw, 64000, .span 8000 256000, 0x0⟩]

/-- Dictionary rows of chapter 13, part 2. -/
def objRows13b : List ObjRow := [
  ⟨0x8200, 0x8200, 0x02, 0x02, .u32, .fixed 4, .rw, 8000, .span 1720 64000, 0x0⟩,
  ⟨0x8200, 0x8200, 0x03, 0x03, .u16, .fixed 2, .cst, 1720, .any, 0x0⟩,
  ⟨0x8200, 0x8200, 0x04, 0x04, .u32, .fixed 4, .rw, 16000, .span 2000 64000, 0x0⟩,
  ⟨0x8200, 0x8200, 0x05, 0x05, .u32, .fixed 4, .rw, 2000, .span 400 16000, 0x0⟩,
  ⟨0x8200, 0x8200, 0x06, 0x06, .u16, .fixed 2, .cst, 400, .any, 0x0⟩,
  ⟨0x8200, 0x8200, 0x07, 0x07, .u16, .fixed 2, .rw, 5, .span 1 100, 0x0⟩,
  ⟨0x8200, 0x8200, 0x08, 0x08, .u16, .fixed 2, .rw, 20, .span 1 1000, 0x0⟩,
  ⟨0x8200, 0x8200, 0x09, 0x09, .u16, .fixed 2, .ro, 0, .any, 0x0⟩,
  ⟨0x8200, 0x8200, 0x0A, 0x0A, .u64, .fixed 8, .ro, 0, .any, 0x0⟩,
  ⟨0x8200, 0x8200, 0x0B, 0x0B, .u32, .fixed 4, .ro, 0, .any, 0x0⟩,
  ⟨0x8200, 0x8200, 0x0C, 0x0C, .u32, .fixed 4, .ro, 11880, .any, 0x0⟩,
  ⟨0x8200, 0x8200, 0x0D, 0x0D, .u32, .fixed 4, .ro, 17800, .any, 0x0⟩,
  ⟨0x8200, 0x8200, 0x0E, 0x0E, .dom, .upTo 12288, .ro, 0, .any, 0x0⟩,
  ⟨0x8200, 0x8200, 0x0F, 0x0F, .u16, .fixed 2, .wo, 0, .any, 0xF800⟩,
  ⟨0x8300, 0x8300, 0x00, 0x00, .u8, .fixed 1, .cst, 6, .any, 0x0⟩,
  ⟨0x8300, 0x8300, 0x01, 0x01, .u8, .fixed 1, .wo, 0, .codes [1], 0x0⟩,
  ⟨0x8300, 0x8300, 0x02, 0x02, .u8, .fixed 1, .ro, 0, .any, 0x0⟩,
  ⟨0x8300, 0x8300, 0x03, 0x03, .u8, .fixed 1, .rw, 31, .any, 0xC0⟩,
  ⟨0x8300, 0x8300, 0x04, 0x04, .ts, .fixed 8, .rw, 0, .any, 0x0⟩,
  ⟨0x8300, 0x8300, 0x05, 0x05, .u8, .fixed 1, .ro, 255, .any, 0x0⟩,
  ⟨0x8300, 0x8300, 0x06, 0x06, .u32, .fixed 4, .ro, 0, .any, 0x0⟩,
  ⟨0x8400, 0x8400, 0x00, 0x00, .u8, .fixed 1, .cst, 8, .any, 0x0⟩,
  ⟨0x8400, 0x8400, 0x01, 0x01, .u8, .fixed 1, .ro, 0, .any, 0x0⟩,
  ⟨0x8400, 0x8400, 0x02, 0x02, .u32, .fixed 4, .ro, 0, .any, 0x0⟩]

/-- Dictionary rows of chapter 13, part 3. -/
def objRows13c : List ObjRow := [
  ⟨0x8400, 0x8400, 0x03, 0x03, .u8, .fixed 1, .wo, 0, .codes [0xA5], 0x0⟩,
  ⟨0x8400, 0x8400, 0x04, 0x04, .u8, .fixed 1, .wo, 0, .span 0 6, 0x0⟩,
  ⟨0x8400, 0x8400, 0x05, 0x05, .u32, .fixed 4, .rw, 10, .span 1 10000, 0x0⟩,
  ⟨0x8400, 0x8400, 0x06, 0x06, .u8, .fixed 1, .cst, 20, .any, 0x0⟩,
  ⟨0x8400, 0x8400, 0x07, 0x07, .u8, .fixed 1, .ro, 0, .any, 0x0⟩,
  ⟨0x8400, 0x8400, 0x08, 0x08, .u32, .fixed 4, .ro, 0, .any, 0x0⟩]

/-- Dictionary rows of chapter 14, part 1. -/
def objRows14a : List ObjRow := [
  ⟨0x9000, 0x9000, 0x00, 0x00, .u8, .fixed 1, .cst, 19, .any, 0x0⟩,
  ⟨0x9000, 0x9000, 0x01, 0x01, .u16, .fixed 2, .cst, 448, .any, 0x0⟩,
  ⟨0x9000, 0x9000, 0x02, 0x02, .i32, .fixed 4, .rw, 400, .signed 32 (320) 440, 0x0⟩,
  ⟨0x9000, 0x9000, 0x03, 0x03, .i32, .fixed 4, .rw, 380, .signed 32 (280) 420, 0x0⟩,
  ⟨0x9000, 0x9000, 0x04, 0x04, .i32, .fixed 4, .cst, 460, .any, 0x0⟩,
  ⟨0x9000, 0x9000, 0x05, 0x05, .i32, .fixed 4, .cst, 420, .any, 0x0⟩,
  ⟨0x9000, 0x9000, 0x06, 0x06, .u16, .fixed 2, .rw, 50, .span 10 1000, 0x0⟩,
  ⟨0x9000, 0x9000, 0x07, 0x07, .u8, .fixed 1, .rw, 2, .span 1 10, 0x0⟩,
  ⟨0x9000, 0x9000, 0x08, 0x08, .i32, .fixed 4, .rw, 320, .signed 32 (0) 420, 0x0⟩,
  ⟨0x9000, 0x9000, 0x09, 0x09, .u8, .fixed 1, .rw, 8, .span 1 56, 0x0⟩,
  ⟨0x9000, 0x9000, 0x0A, 0x0A, .u8, .fixed 1, .rw, 32, .span 0 255, 0x0⟩,
  ⟨0x9000, 0x9000, 0x0B, 0x0B, .i32, .fixed 4, .rw, 20, .signed 32 (0) 40, 0x0⟩,
  ⟨0x9000, 0x9000, 0x0C, 0x0C, .i32, .fixed 4, .ro, 0, .any, 0x0⟩,
  ⟨0x9000, 0x9000, 0x0D, 0x0D, .u16, .fixed 2, .ro, 0, .any, 0x0⟩,
  ⟨0x9000, 0x9000, 0x0E, 0x0E, .u16, .fixed 2, .ro, 0, .any, 0x0⟩,
  ⟨0x9000, 0x9000, 0x0F, 0x0F, .bool, .fixed 1, .ro, 0, .any, 0x0⟩,
  ⟨0x9000, 0x9000, 0x10, 0x10, .u32, .fixed 4, .ro, 0, .any, 0x0⟩,
  ⟨0x9000, 0x9000, 0x11, 0x11, .u32, .fixed 4, .ro, 0, .any, 0x0⟩,
  ⟨0x9000, 0x9000, 0x12, 0x12, .u16, .fixed 2, .ro, 65535, .any, 0x0⟩,
  ⟨0x9000, 0x9000, 0x13, 0x13, .u64, .fixed 8, .ro, 0, .any, 0x0⟩,
  ⟨0x9040, 0x907F, 0x00, 0x00, .u8, .fixed 1, .cst, 5, .any, 0x0⟩,
  ⟨0x9040, 0x907F, 0x01, 0x01, .i32, .fixed 4, .ro, 0, .any, 0x0⟩,
  ⟨0x9040, 0x907F, 0x02, 0x02, .i32, .fixed 4, .ro, 0, .any, 0x0⟩,
  ⟨0x9040, 0x907F, 0x03, 0x03, .u8, .fixed 1, .ro, 0, .any, 0x0⟩]

/-- Dictionary rows of chapter 14, part 2. -/
def objRows14b : List ObjRow := [
  ⟨0x9040, 0x907F, 0x04, 0x04, .u8, .fixed 1, .rw, 0, .span 0 56, 0x0⟩,
  ⟨0x9040, 0x907F, 0x05, 0x05, .u64, .fixed 8, .ro, 0, .any, 0x0⟩,
  ⟨0x9100, 0x92BF, 0x00, 0x00, .u8, .fixed 1, .cst, 7, .any, 0x0⟩,
  ⟨0x9100, 0x92BF, 0x01, 0x01, .i32, .fixed 4, .ro, 0, .any, 0x0⟩,
  ⟨0x9100, 0x92BF, 0x02, 0x02, .i32, .fixed 4, .ro, 0, .any, 0x0⟩,
  ⟨0x9100, 0x92BF, 0x03, 0x03, .bool, .fixed 1, .ro, 0, .any, 0x0⟩,
  ⟨0x9100, 0x92BF, 0x04, 0x04, .i32, .fixed 4, .ro, 0, .any, 0x0⟩,
  ⟨0x9100, 0x92BF, 0x05, 0x05, .u32, .fixed 4, .ro, 0, .any, 0x0⟩,
  ⟨0x9100, 0x92BF, 0x06, 0x06, .u16, .fixed 2, .ro, 0, .any, 0x0⟩,
  ⟨0x9100, 0x92BF, 0x07, 0x07, .i32, .fixed 4, .cst, 0, .any, 0x0⟩]

/-- Dictionary rows of chapter 15, part 1. -/
def objRows15a : List ObjRow := [
  ⟨0xA000, 0xA000, 0x00, 0x00, .u8, .fixed 1, .cst, 10, .any, 0x0⟩,
  ⟨0xA000, 0xA000, 0x01, 0x01, .u32, .fixed 4, .rw, 3600, .span 60 604800, 0x0⟩,
  ⟨0xA000, 0xA000, 0x02, 0x02, .u16, .fixed 2, .rw, 15, .span 5 50, 0x0⟩,
  ⟨0xA000, 0xA000, 0x03, 0x03, .u32, .fixed 4, .ro, 0, .any, 0x0⟩,
  ⟨0xA000, 0xA000, 0x04, 0x04, .u64, .fixed 8, .ro, 0, .any, 0x0⟩,
  ⟨0xA000, 0xA000, 0x05, 0x05, .u32, .fixed 4, .ro, 0, .any, 0x0⟩,
  ⟨0xA000, 0xA000, 0x06, 0x06, .u32, .fixed 4, .ro, 0, .any, 0x0⟩,
  ⟨0xA000, 0xA000, 0x07, 0x07, .u32, .fixed 4, .ro, 0, .any, 0x0⟩,
  ⟨0xA000, 0xA000, 0x08, 0x08, .u32, .fixed 4, .ro, 0, .any, 0x0⟩,
  ⟨0xA000, 0xA000, 0x09, 0x09, .u32, .fixed 4, .rw, 1000, .span 10 3600000, 0x0⟩,
  ⟨0xA000, 0xA000, 0x0A, 0x0A, .dom, .fixed 141, .ro, 0, .any, 0x0⟩,
  ⟨0xA001, 0xA001, 0x00, 0x00, .u8, .fixed 1, .cst, 6, .any, 0x0⟩,
  ⟨0xA001, 0xA001, 0x01, 0x01, .u8, .fixed 1, .rw, 0, .span 0 5, 0x0⟩,
  ⟨0xA001, 0xA001, 0x02, 0x02, .u32, .fixed 4, .rw, 0, .any, 0x0⟩,
  ⟨0xA001, 0xA001, 0x03, 0x03, .u8, .fixed 1, .wo, 0, .codes [1, 2], 0x0⟩,
  ⟨0xA001, 0xA001, 0x04, 0x04, .u8, .fixed 1, .ro, 0, .any, 0x0⟩,
  ⟨0xA001, 0xA001, 0x05, 0x05, .u64, .fixed 8, .ro, 0, .any, 0x0⟩,
  ⟨0xA001, 0xA001, 0x06, 0x06, .dom, .upTo 512, .ro, 0, .any, 0x0⟩,
  ⟨0xA010, 0xA011, 0x00, 0x00, .u8, .fixed 1, .cst, 13, .any, 0x0⟩,
  ⟨0xA010, 0xA011, 0x01, 0x01, .u8, .fixed 1, .ro, 0, .any, 0x0⟩,
  ⟨0xA010, 0xA011, 0x02, 0x02, .u32, .fixed 4, .rw, 1000, .span 250 60000, 0x0⟩,
  ⟨0xA010, 0xA011, 0x03, 0x03, .bool, .fixed 1, .rw, 1, .bool, 0x0⟩,
  ⟨0xA010, 0xA011, 0x04, 0x04, .u32, .fixed 4, .ro, 0, .any, 0x0⟩,
  ⟨0xA010, 0xA011, 0x05, 0x05, .u64, .fixed 8, .ro, 0, .any, 0x0⟩]

/-- Dictionary rows of chapter 15, part 2. -/
def objRows15b : List ObjRow := [
  ⟨0xA010, 0xA011, 0x06, 0x06, .u32, .fixed 4, .ro, 0, .any, 0x0⟩,
  ⟨0xA010, 0xA011, 0x07, 0x07, .u32, .fixed 4, .ro, 0, .any, 0x0⟩,
  ⟨0xA010, 0xA011, 0x08, 0x08, .u32, .fixed 4, .ro, 0, .any, 0x0⟩,
  ⟨0xA010, 0xA011, 0x09, 0x09, .u32, .fixed 4, .ro, 0, .any, 0x0⟩,
  ⟨0xA010, 0xA011, 0x0A, 0x0A, .u32, .fixed 4, .ro, 0, .any, 0x0⟩,
  ⟨0xA010, 0xA011, 0x0B, 0x0B, .u32, .fixed 4, .ro, 0, .any, 0x0⟩,
  ⟨0xA010, 0xA011, 0x0C, 0x0C, .u32, .fixed 4, .ro, 0, .any, 0x0⟩,
  ⟨0xA010, 0xA011, 0x0D, 0x0D, .dom, .fixed 8, .ro, 0, .any, 0x0⟩,
  ⟨0xA020, 0xA020, 0x00, 0x00, .u8, .fixed 1, .cst, 7, .any, 0x0⟩,
  ⟨0xA020, 0xA020, 0x01, 0x01, .u32, .fixed 4, .ro, 0, .any, 0x0⟩,
  ⟨0xA020, 0xA020, 0x02, 0x02, .u32, .fixed 4, .ro, 0, .any, 0x0⟩,
  ⟨0xA020, 0xA020, 0x03, 0x03, .u32, .fixed 4, .rw, 0, .any, 0x0⟩,
  ⟨0xA020, 0xA020, 0x04, 0x04, .dom, .fixed 4096, .ro, 0, .any, 0x0⟩,
  ⟨0xA020, 0xA020, 0x05, 0x05, .u8, .fixed 1, .rw, 0, .span 0 4, 0x0⟩,
  ⟨0xA020, 0xA020, 0x06, 0x06, .u16, .fixed 2, .rw, 10, .spans [(0, 0), (1, 10000)] 1, 0x0⟩,
  ⟨0xA020, 0xA020, 0x07, 0x07, .u8, .fixed 1, .wo, 0, .codes [1], 0x0⟩,
  ⟨0xA030, 0xA030, 0x00, 0x00, .u8, .fixed 1, .cst, 5, .any, 0x0⟩,
  ⟨0xA030, 0xA030, 0x01, 0x01, .u32, .fixed 4, .rw, 1000, .span 10 1000000, 0x0⟩,
  ⟨0xA030, 0xA030, 0x02, 0x02, .u16, .fixed 2, .rw, 0, .span 0 369, 0x0⟩,
  ⟨0xA030, 0xA030, 0x03, 0x03, .dom, .fixed 32, .ro, 0, .any, 0x0⟩,
  ⟨0xA030, 0xA030, 0x04, 0x04, .u32, .fixed 4, .ro, 0, .any, 0x0⟩,
  ⟨0xA030, 0xA030, 0x05, 0x05, .u32, .fixed 4, .ro, 0, .any, 0x0⟩,
  ⟨0xA040, 0xA040, 0x00, 0x00, .u8, .fixed 1, .cst, 4, .any, 0x0⟩,
  ⟨0xA040, 0xA040, 0x01, 0x01, .u8, .fixed 1, .wo, 0, .codes [0, 1], 0x0⟩]

/-- Dictionary rows of chapter 15, part 3. -/
def objRows15c : List ObjRow := [
  ⟨0xA040, 0xA040, 0x02, 0x02, .u8, .fixed 1, .ro, 0, .any, 0x0⟩,
  ⟨0xA040, 0xA040, 0x03, 0x03, .u8, .fixed 1, .ro, 15, .any, 0x0⟩,
  ⟨0xA040, 0xA040, 0x04, 0x04, .u32, .fixed 4, .ro, 0, .any, 0x0⟩]

/-- Every object of the dictionary. -/
def objRows : List ObjRow :=
  objRows01a ++ objRows03a ++ objRows03b ++ objRows04a ++ objRows04b ++ objRows05a ++ objRows05b ++ objRows05c ++ objRows06a ++ objRows06b ++ objRows06c ++ objRows07a ++ objRows07b ++ objRows07c ++ objRows08a ++ objRows08b ++ objRows09a ++ objRows09b ++ objRows10a ++ objRows10b ++ objRows10c ++ objRows11a ++ objRows11b ++ objRows11c ++ objRows12a ++ objRows12b ++ objRows12c ++ objRows12d ++ objRows13a ++ objRows13b ++ objRows13c ++ objRows14a ++ objRows14b ++ objRows15a ++ objRows15b ++ objRows15c

/-- Whether the row names the object. -/
def ObjRow.covers (r : ObjRow) (idx sub : Nat) : Bool :=
  r.i0 ≤ idx && idx ≤ r.i1 && r.s0 ≤ sub && sub ≤ r.s1

/-- The row of an object, if the manual defines it (R385). -/
def objRow (idx sub : Nat) : Option ObjRow := objRows.find? (·.covers idx sub)

/-- Whether the manual defines the index (R385). -/
def objIndex (idx : Nat) : Bool := objRows.any (fun r => r.i0 ≤ idx && idx ≤ r.i1)

end Sys2Proof.Machine

namespace Sys2Proof.Machine.Reg

/-- LAYER_COUNT (R31, Table 1.10). -/
abbrev layerCount : Nat := 0x2000 * 256 + 0x01
/-- SEAM_COUNT (R31, Table 1.10). -/
abbrev seamCount : Nat := 0x2000 * 256 + 0x02
/-- SIGNAL_GROUPS_TOTAL (R31, Table 1.10). -/
abbrev signalGroupsTotal : Nat := 0x2000 * 256 + 0x03
/-- LAYER (R31, Table 1.10). -/
abbrev layer (u : Nat) : Nat := (0x2001 + u) * 256 + 0x01
/-- DIE_KIND (R31, Table 1.10). -/
abbrev dieKind (u : Nat) : Nat := (0x2001 + u) * 256 + 0x02
/-- DIE_STEP (R31, Table 1.10). -/
abbrev dieStep (u : Nat) : Nat := (0x2001 + u) * 256 + 0x03
/-- CLOCK_HZ (R31, Table 1.10). -/
abbrev clockHz (u : Nat) : Nat := (0x2001 + u) * 256 + 0x04
/-- LAYER_STATE (R31, Table 1.10). -/
abbrev layerState (u : Nat) : Nat := (0x2001 + u) * 256 + 0x05
/-- SIGNAL_GROUPS (R31, Table 1.10). -/
abbrev signalGroups (u : Nat) : Nat := (0x2010 + u) * 256 + 0x01
/-- GROUPS_ONE_SPARE (R31, Table 1.10). -/
abbrev groupsOneSpare (u : Nat) : Nat := (0x2010 + u) * 256 + 0x02
/-- GROUPS_TWO_SPARES (R31, Table 1.10). -/
abbrev groupsTwoSpares (u : Nat) : Nat := (0x2010 + u) * 256 + 0x03
/-- GROUPS_EXHAUSTED (R31, Table 1.10). -/
abbrev seamGroupsExhausted (u : Nat) : Nat := (0x2010 + u) * 256 + 0x04
/-- FENCE (R31, Table 1.10). -/
abbrev fence (u : Nat) : Nat := (0x2010 + u) * 256 + 0x05
/-- POWER_BOND_ALARMS (R31, Table 1.10). -/
abbrev powerBondAlarms (u : Nat) : Nat := (0x2010 + u) * 256 + 0x06
/-- STEER_SEAM (R31, Table 1.10). -/
abbrev steerSeam : Nat := 0x2018 * 256 + 0x01
/-- STEER_GROUP (R31, Table 1.10). -/
abbrev steerGroup : Nat := 0x2018 * 256 + 0x02
/-- STEER_WORD (R31, Table 1.10). -/
abbrev steerWord : Nat := 0x2018 * 256 + 0x03
/-- LATE_COMPLETIONS (R31, Table 1.10). -/
abbrev lateCompletions : Nat := 0x2030 * 256 + 0x01
/-- RESERVED_ACCESSES (R31, Table 1.10). -/
abbrev reservedAccesses : Nat := 0x2030 * 256 + 0x02
/-- ACTIVE_SLOT (R96, Table 3.8). -/
abbrev activeSlot (u : Nat) : Nat := (0x3300 + u) * 256 + 0x01
/-- SHADOW_STATE (R96, Table 3.8). -/
abbrev shadowState (u : Nat) : Nat := (0x3300 + u) * 256 + 0x02
/-- SHADOW_SLOT (R96, Table 3.8). -/
abbrev shadowSlot (u : Nat) : Nat := (0x3300 + u) * 256 + 0x03
/-- PIN_MASK (R96, Table 3.8). -/
abbrev pinMask (u : Nat) : Nat := (0x3300 + u) * 256 + 0x04
/-- SWITCHES (R96, Table 3.8). -/
abbrev switches (u : Nat) : Nat := (0x3300 + u) * 256 + 0x05
/-- PREFETCHES (R96, Table 3.8). -/
abbrev prefetches (u : Nat) : Nat := (0x3300 + u) * 256 + 0x06
/-- LOADS (R96, Table 3.8). -/
abbrev loads (u : Nat) : Nat := (0x3300 + u) * 256 + 0x07
/-- PREFETCH_FAILS (R96, Table 3.8). -/
abbrev prefetchFails (u : Nat) : Nat := (0x3300 + u) * 256 + 0x08
/-- WRITEBACK_SKIPS (R96, Table 3.8). -/
abbrev writebackSkips (u : Nat) : Nat := (0x3300 + u) * 256 + 0x09
/-- CAPTURE_REQ (R96, Table 3.8). -/
abbrev captureReq (u : Nat) : Nat := (0x3300 + u) * 256 + 0x0A
/-- CAPTURE_STATUS (R96, Table 3.8). -/
abbrev captureStatus (u : Nat) : Nat := (0x3300 + u) * 256 + 0x0B
/-- CAPTURE_SLOT (R96, Table 3.8). -/
abbrev captureSlot (u : Nat) : Nat := (0x3300 + u) * 256 + 0x0C
/-- CAPTURE_TIME (R96, Table 3.8). -/
abbrev captureTime (u : Nat) : Nat := (0x3300 + u) * 256 + 0x0D
/-- CAPTURE_DATA (R96, Table 3.8). -/
abbrev captureData (u : Nat) : Nat := (0x3300 + u) * 256 + 0x0E
/-- SLOT_DESC (R96, Table 3.8). -/
abbrev slotDesc (u : Nat) (k : Nat) : Nat := (0x3300 + u) * 256 + (0x10 + k)
/-- CMD_SLOT (R96, Table 3.8). -/
abbrev cmdSlot (u : Nat) : Nat := (0x3300 + u) * 256 + 0x20
/-- CMD_SRC (R96, Table 3.8). -/
abbrev cmdSrc (u : Nat) : Nat := (0x3300 + u) * 256 + 0x21
/-- CMD_KERNEL (R96, Table 3.8). -/
abbrev cmdKernel (u : Nat) : Nat := (0x3300 + u) * 256 + 0x22
/-- CMD_IMAGE (R96, Table 3.8). -/
abbrev cmdImage (u : Nat) : Nat := (0x3300 + u) * 256 + 0x23
/-- CMD_BORDER_SIG (R96, Table 3.8). -/
abbrev cmdBorderSig (u : Nat) : Nat := (0x3300 + u) * 256 + 0x24
/-- CMD_FROM_REGION (R96, Table 3.8). -/
abbrev cmdFromRegion (u : Nat) : Nat := (0x3300 + u) * 256 + 0x25
/-- CMD_FROM_SLOT (R96, Table 3.8). -/
abbrev cmdFromSlot (u : Nat) : Nat := (0x3300 + u) * 256 + 0x26
/-- CMD_OP (R96, Table 3.8). -/
abbrev cmdOp (u : Nat) : Nat := (0x3300 + u) * 256 + 0x27
/-- CMD_STATUS (R96, Table 3.8). -/
abbrev cmdStatus (u : Nat) : Nat := (0x3300 + u) * 256 + 0x28
/-- REGIONS_IN_SERVICE (R127, Table 4.12). -/
abbrev regionsInService : Nat := 0x3000 * 256 + 0x01
/-- SPARE_PAIRS (R127, Table 4.12). -/
abbrev sparePairs : Nat := 0x3000 * 256 + 0x02
/-- SOLO_SPARES (R127, Table 4.12). -/
abbrev soloSpares : Nat := 0x3000 * 256 + 0x03
/-- TWIN_CAPABLE_PAIRS (R127, Table 4.12). -/
abbrev twinCapablePairs : Nat := 0x3000 * 256 + 0x04
/-- IDLE_NAP_US (R127, Table 4.12). -/
abbrev idleNapUs : Nat := 0x3000 * 256 + 0x05
/-- IDLE_SLEEP_US (R127, Table 4.12). -/
abbrev idleSleepUs : Nat := 0x3000 * 256 + 0x06
/-- REMAP_TABLE (R127, Table 4.12). -/
abbrev remapTable : Nat := 0x3000 * 256 + 0x07
/-- SLOT_MAP (R127, Table 4.12). -/
abbrev slotMap : Nat := 0x3000 * 256 + 0x08
/-- REMAP_GEN (R127, Table 4.12). -/
abbrev remapGen : Nat := 0x3000 * 256 + 0x09
/-- POSITION (R128, Table 4.13). -/
abbrev position (u : Nat) : Nat := (0x3100 + u) * 256 + 0x01
/-- DIE (R128, Table 4.13). -/
abbrev die (u : Nat) : Nat := (0x3100 + u) * 256 + 0x02
/-- RETIRED (R128, Table 4.13). -/
abbrev retired (u : Nat) : Nat := (0x3100 + u) * 256 + 0x03
/-- TWIN_CAPABLE (R128, Table 4.13). -/
abbrev twinCapable (u : Nat) : Nat := (0x3100 + u) * 256 + 0x04
/-- POWER_STATE (R128, Table 4.13). -/
abbrev powerState (u : Nat) : Nat := (0x3100 + u) * 256 + 0x05
/-- RUN (R128, Table 4.13). -/
abbrev run (u : Nat) : Nat := (0x3100 + u) * 256 + 0x06
/-- SPAN_ANCHOR (R128, Table 4.13). -/
abbrev spanAnchor (u : Nat) : Nat := (0x3100 + u) * 256 + 0x07
/-- SPAN_SHAPE (R128, Table 4.13). -/
abbrev spanShape (u : Nat) : Nat := (0x3100 + u) * 256 + 0x08
/-- PORT_ROUTE (R128, Table 4.13). -/
abbrev portRoute (u : Nat) : Nat := (0x3100 + u) * 256 + 0x09
/-- INTEGRITY_EVENTS (R128, Table 4.13). -/
abbrev integrityEvents (u : Nat) : Nat := (0x3100 + u) * 256 + 0x0A
/-- STREAM_TOO_LONG (R128, Table 4.13). -/
abbrev streamTooLong (u : Nat) : Nat := (0x3100 + u) * 256 + 0x0B
/-- STREAM_PADDED (R128, Table 4.13). -/
abbrev streamPadded (u : Nat) : Nat := (0x3100 + u) * 256 + 0x0C
/-- STREAM_IN_REFUSED (R128, Table 4.13). -/
abbrev streamInRefused (u : Nat) : Nat := (0x3100 + u) * 256 + 0x0D
/-- TAG_REUSE (R128, Table 4.13). -/
abbrev tagReuse (u : Nat) : Nat := (0x3100 + u) * 256 + 0x0E
/-- REGION_RESET (R128, Table 4.13). -/
abbrev regionReset (u : Nat) : Nat := (0x3100 + u) * 256 + 0x0F
/-- BORDER_STATE (R128, Table 4.14). -/
abbrev borderState (u : Nat) : Nat := (0x3200 + u) * 256 + 0x01
/-- OPENINGS (R128, Table 4.14). -/
abbrev openings (u : Nat) : Nat := (0x3200 + u) * 256 + 0x02
/-- SIG_KEEPS (R128, Table 4.14). -/
abbrev sigKeeps (u : Nat) : Nat := (0x3200 + u) * 256 + 0x03
/-- MAP_FAULTS (R128, Table 4.14). -/
abbrev mapFaults (u : Nat) : Nat := (0x3200 + u) * 256 + 0x04
/-- BORDER_MAP (R128, Table 4.14). -/
abbrev borderMap (u : Nat) (k : Nat) : Nat := (0x3200 + u) * 256 + (0x10 + k)
/-- CAPACITY (R166, Table 5.8). -/
abbrev capacity : Nat := 0x6000 * 256 + 0x01
/-- BANKS_IN_SERVICE (R166, Table 5.8). -/
abbrev banksInService : Nat := 0x6000 * 256 + 0x02
/-- PATROL_PERIOD_S (R166, Table 5.8). -/
abbrev patrolPeriodS : Nat := 0x6000 * 256 + 0x03
/-- PATROL_PASSES (R166, Table 5.8). -/
abbrev patrolPasses : Nat := 0x6000 * 256 + 0x04
/-- PATROL_LINE (R166, Table 5.8). -/
abbrev patrolLine : Nat := 0x6000 * 256 + 0x05
/-- RETIRE_UE_LIMIT (R166, Table 5.8). -/
abbrev retireUeLimit : Nat := 0x6000 * 256 + 0x06
/-- RETIRE_CE_LIMIT (R166, Table 5.8). -/
abbrev retireCeLimit : Nat := 0x6000 * 256 + 0x07
/-- RETIRE_GRACE_MS (R166, Table 5.8). -/
abbrev retireGraceMs : Nat := 0x6000 * 256 + 0x08
/-- REPAIR_THRESHOLD (R166, Table 5.8). -/
abbrev repairThreshold : Nat := 0x6000 * 256 + 0x09
/-- FRAME_MAP (R166, Table 5.8). -/
abbrev frameMap : Nat := 0x6000 * 256 + 0x0A
/-- WIPE_TARGET (R166, Table 5.8). -/
abbrev wipeTarget : Nat := 0x6000 * 256 + 0x0B
/-- WIPE_CMD (R166, Table 5.8). -/
abbrev wipeCmd : Nat := 0x6000 * 256 + 0x0C
/-- WIPE_STATUS (R166, Table 5.8). -/
abbrev wipeStatus : Nat := 0x6000 * 256 + 0x0D
/-- SHOOTDOWN_ENTRY (R166, Table 5.8). -/
abbrev shootdownEntry : Nat := 0x6000 * 256 + 0x0E
/-- SHOOTDOWN_CMD (R166, Table 5.8). -/
abbrev shootdownCmd : Nat := 0x6000 * 256 + 0x0F
/-- SHOOTDOWN_STATUS (R166, Table 5.8). -/
abbrev shootdownStatus : Nat := 0x6000 * 256 + 0x10
/-- RETIRE_BANK (R166, Table 5.8). -/
abbrev retireBank : Nat := 0x6000 * 256 + 0x11
/-- VOTE_MENDS (R166, Table 5.8). -/
abbrev voteMends : Nat := 0x6000 * 256 + 0x12
/-- BANK_STATE (R166, Table 5.9). -/
abbrev bankState (u : Nat) : Nat := (0x6100 + u) * 256 + 0x01
/-- CE1 (R166, Table 5.9). -/
abbrev ce1 (u : Nat) : Nat := (0x6100 + u) * 256 + 0x02
/-- CE2 (R166, Table 5.9). -/
abbrev ce2 (u : Nat) : Nat := (0x6100 + u) * 256 + 0x03
/-- UE (R166, Table 5.9). -/
abbrev ue (u : Nat) : Nat := (0x6100 + u) * 256 + 0x04
/-- CE_PASS (R166, Table 5.9). -/
abbrev cePass (u : Nat) : Nat := (0x6100 + u) * 256 + 0x05
/-- POISONED_LINES (R166, Table 5.9). -/
abbrev poisonedLines (u : Nat) : Nat := (0x6100 + u) * 256 + 0x06
/-- REPAIR (R166, Table 5.9). -/
abbrev repair (u : Nat) : Nat := (0x6100 + u) * 256 + 0x07
/-- LAST_UE_LINE (R166, Table 5.9). -/
abbrev lastUeLine (u : Nat) : Nat := (0x6100 + u) * 256 + 0x08
/-- LAST_UE_TIME (R166, Table 5.9). -/
abbrev lastUeTime (u : Nat) : Nat := (0x6100 + u) * 256 + 0x09
/-- COUNTER_CLEAR (R166, Table 5.9). -/
abbrev counterClear (u : Nat) : Nat := (0x6100 + u) * 256 + 0x0A
/-- PORT_PATH (R166, Table 5.10). -/
abbrev portPath (u : Nat) : Nat := (0x6200 + u) * 256 + 0x01
/-- CACHE_HITS (R166, Table 5.10). -/
abbrev cacheHits (u : Nat) : Nat := (0x6200 + u) * 256 + 0x02
/-- CACHE_MISSES (R166, Table 5.10). -/
abbrev cacheMisses (u : Nat) : Nat := (0x6200 + u) * 256 + 0x03
/-- TB_MISSES (R166, Table 5.10). -/
abbrev tbMisses (u : Nat) : Nat := (0x6200 + u) * 256 + 0x04
/-- POISON_COMPLETIONS (R166, Table 5.10). -/
abbrev poisonCompletions (u : Nat) : Nat := (0x6200 + u) * 256 + 0x05
/-- DENIED_COMPLETIONS (R166, Table 5.10). -/
abbrev deniedCompletions (u : Nat) : Nat := (0x6200 + u) * 256 + 0x06
/-- DMA_CHANNELS (R174, Table 5.14). -/
abbrev dmaChannels : Nat := 0x6400 * 256 + 0x01
/-- DMA_BYTES (R174, Table 5.14). -/
abbrev dmaBytes : Nat := 0x6400 * 256 + 0x02
/-- DMA_HALTS (R174, Table 5.14). -/
abbrev dmaHalts : Nat := 0x6400 * 256 + 0x03
/-- DMA_ENABLE (R174, Table 5.14). -/
abbrev dmaEnable (u : Nat) : Nat := (0x6410 + u) * 256 + 0x01
/-- DMA_RING_BASE (R174, Table 5.14). -/
abbrev dmaRingBase (u : Nat) : Nat := (0x6410 + u) * 256 + 0x02
/-- DMA_LOG2 (R174, Table 5.14). -/
abbrev dmaLog2 (u : Nat) : Nat := (0x6410 + u) * 256 + 0x03
/-- DMA_VECTOR (R174, Table 5.14). -/
abbrev dmaVector (u : Nat) : Nat := (0x6410 + u) * 256 + 0x04
/-- DMA_STATE (R174, Table 5.14). -/
abbrev dmaState (u : Nat) : Nat := (0x6410 + u) * 256 + 0x05
/-- DMA_LAST_INDEX (R174, Table 5.14). -/
abbrev dmaLastIndex (u : Nat) : Nat := (0x6410 + u) * 256 + 0x06
/-- DMA_LAST_STATUS (R174, Table 5.14). -/
abbrev dmaLastStatus (u : Nat) : Nat := (0x6410 + u) * 256 + 0x07
/-- DMA_LAST_DONE (R174, Table 5.14). -/
abbrev dmaLastDone (u : Nat) : Nat := (0x6410 + u) * 256 + 0x08
/-- DMA_CMD (R174, Table 5.14). -/
abbrev dmaCmd (u : Nat) : Nat := (0x6410 + u) * 256 + 0x09
/-- DMA_DESCS (R174, Table 5.14). -/
abbrev dmaDescs (u : Nat) : Nat := (0x6410 + u) * 256 + 0x0A
/-- DMA_OVERRUNS (R174, Table 5.14). -/
abbrev dmaOverruns (u : Nat) : Nat := (0x6410 + u) * 256 + 0x0B
/-- SCARABS (R217, Table 6.13). -/
abbrev scarabs : Nat := 0x5000 * 256 + 0x01
/-- RESERVE_US (R217, Table 6.13). -/
abbrev reserveUs : Nat := 0x5000 * 256 + 0x02
/-- STEAL_AGE_US (R217, Table 6.13). -/
abbrev stealAgeUs : Nat := 0x5000 * 256 + 0x03
/-- STEAL_RADIUS (R217, Table 6.13). -/
abbrev stealRadius : Nat := 0x5000 * 256 + 0x04
/-- PREEMPT_LIMIT_US (R217, Table 6.13). -/
abbrev preemptLimitUs : Nat := 0x5000 * 256 + 0x05
/-- RESTART_LIMIT (R217, Table 6.13). -/
abbrev restartLimit : Nat := 0x5000 * 256 + 0x06
/-- DISPATCHES (R217, Table 6.13). -/
abbrev dispDispatches : Nat := 0x5000 * 256 + 0x07
/-- STEALS (R217, Table 6.13). -/
abbrev steals : Nat := 0x5000 * 256 + 0x08
/-- PREEMPTIONS (R217, Table 6.13). -/
abbrev preemptions : Nat := 0x5000 * 256 + 0x09
/-- PREEMPT_CANCELS (R217, Table 6.13). -/
abbrev preemptCancels : Nat := 0x5000 * 256 + 0x0A
/-- RESTARTS (R217, Table 6.13). -/
abbrev restarts : Nat := 0x5000 * 256 + 0x0B
/-- PROPOSAL_HEAD (R217, Table 6.13). -/
abbrev proposalHead : Nat := 0x5000 * 256 + 0x0C
/-- PROPOSAL_POP (R217, Table 6.13). -/
abbrev proposalPop : Nat := 0x5000 * 256 + 0x0D
/-- PROPOSALS_DROPPED (R217, Table 6.13). -/
abbrev proposalsDropped : Nat := 0x5000 * 256 + 0x0E
/-- HCMD_KIND (R217, Table 6.13). -/
abbrev hcmdKind : Nat := 0x5001 * 256 + 0x01
/-- HCMD_RUN (R217, Table 6.13). -/
abbrev hcmdRun : Nat := 0x5001 * 256 + 0x02
/-- HCMD_TARGET (R217, Table 6.13). -/
abbrev hcmdTarget : Nat := 0x5001 * 256 + 0x03
/-- HCMD_GO (R217, Table 6.13). -/
abbrev hcmdGo : Nat := 0x5001 * 256 + 0x04
/-- HCMD_STATUS (R217, Table 6.13). -/
abbrev hcmdStatus : Nat := 0x5001 * 256 + 0x05
/-- STATE (R217, Table 6.13). -/
abbrev scarabState (u : Nat) : Nat := (0x5100 + u) * 256 + 0x01
/-- READY_BY_LEVEL (R217, Table 6.13). -/
abbrev readyByLevel (u : Nat) : Nat := (0x5100 + u) * 256 + 0x02
/-- DELAYED (R217, Table 6.13). -/
abbrev delayed (u : Nat) : Nat := (0x5100 + u) * 256 + 0x03
/-- DEPUTY (R217, Table 6.13). -/
abbrev deputy (u : Nat) : Nat := (0x5100 + u) * 256 + 0x04
/-- DISPATCHES (R217, Table 6.13). -/
abbrev scarabDispatches (u : Nat) : Nat := (0x5100 + u) * 256 + 0x05
/-- STEALS_IN (R217, Table 6.13). -/
abbrev stealsIn (u : Nat) : Nat := (0x5100 + u) * 256 + 0x06
/-- STEALS_OUT (R217, Table 6.13). -/
abbrev stealsOut (u : Nat) : Nat := (0x5100 + u) * 256 + 0x07
/-- CONTROL (R217, Table 6.13). -/
abbrev control (u : Nat) : Nat := (0x5100 + u) * 256 + 0x08
/-- TRAP_ADDR (R217, Table 6.13). -/
abbrev trapAddr (u : Nat) : Nat := (0x5100 + u) * 256 + 0x09
/-- KTABLE_BASE (R217, Table 6.13). -/
abbrev ktableBase : Nat := 0x5200 * 256 + 0x01
/-- KERNEL_SEL (R217, Table 6.13). -/
abbrev kernelSel : Nat := 0x5200 * 256 + 0x02
/-- SEL_LAST_ANCHOR (R217, Table 6.13). -/
abbrev selLastAnchor : Nat := 0x5200 * 256 + 0x03
/-- SEL_RUNS (R217, Table 6.13). -/
abbrev selRuns : Nat := 0x5200 * 256 + 0x04
/-- SEL_RESIDENT (R217, Table 6.13). -/
abbrev selResident : Nat := 0x5200 * 256 + 0x05
/-- KERNEL_UPDATE (R217, Table 6.13). -/
abbrev kernelUpdate : Nat := 0x5200 * 256 + 0x06
/-- DESC_FAULTS (R217, Table 6.13). -/
abbrev descFaults : Nat := 0x5200 * 256 + 0x07
/-- RUNS_IN_TABLE (R217, Table 6.13). -/
abbrev runsInTable : Nat := 0x5300 * 256 + 0x01
/-- RUN_SEL (R217, Table 6.13). -/
abbrev runSel : Nat := 0x5300 * 256 + 0x02
/-- RUN_ENTRY (R217, Table 6.13). -/
abbrev runEntry : Nat := 0x5300 * 256 + 0x03
/-- RUN_ABORT (R217, Table 6.13). -/
abbrev runAbort : Nat := 0x5300 * 256 + 0x04
/-- ROUTE_TABLE (R217, Table 6.13). -/
abbrev routeTable : Nat := 0x5300 * 256 + 0x05
/-- INTAKE_STALLS (R217, Table 6.13). -/
abbrev intakeStalls : Nat := 0x5300 * 256 + 0x06
/-- ROUTE_REFUSED (R217, Table 6.13). -/
abbrev routeRefused : Nat := 0x5300 * 256 + 0x07
/-- ENABLE (R217, Table 6.13). -/
abbrev enable (u : Nat) : Nat := (0x5340 + u) * 256 + 0x01
/-- SQ_BASE (R217, Table 6.13). -/
abbrev sqBase (u : Nat) : Nat := (0x5340 + u) * 256 + 0x02
/-- SQ_LOG2 (R217, Table 6.13). -/
abbrev sqLog2 (u : Nat) : Nat := (0x5340 + u) * 256 + 0x03
/-- CQ_BASE (R217, Table 6.13). -/
abbrev cqBase (u : Nat) : Nat := (0x5340 + u) * 256 + 0x04
/-- CQ_LOG2 (R217, Table 6.13). -/
abbrev cqLog2 (u : Nat) : Nat := (0x5340 + u) * 256 + 0x05
/-- INTAKE_SCARAB (R217, Table 6.13). -/
abbrev intakeScarab (u : Nat) : Nat := (0x5340 + u) * 256 + 0x06
/-- MSIX_VECTOR (R217, Table 6.13). -/
abbrev msixVector (u : Nat) : Nat := (0x5340 + u) * 256 + 0x07
/-- OVERRUNS (R217, Table 6.13). -/
abbrev overruns (u : Nat) : Nat := (0x5340 + u) * 256 + 0x08
/-- CQ_STALLS (R217, Table 6.13). -/
abbrev cqStalls (u : Nat) : Nat := (0x5340 + u) * 256 + 0x09
/-- CQ_WRITE_ERRORS (R217, Table 6.13). -/
abbrev cqWriteErrors (u : Nat) : Nat := (0x5340 + u) * 256 + 0x0A
/-- TRACE_ENABLE (R217, Table 6.13). -/
abbrev traceEnable : Nat := 0x5400 * 256 + 0x01
/-- KIND_MASK (R217, Table 6.13). -/
abbrev kindMask : Nat := 0x5400 * 256 + 0x02
/-- TRACE_SEL (R217, Table 6.13). -/
abbrev traceSel : Nat := 0x5400 * 256 + 0x03
/-- TRACE_LOST (R217, Table 6.13). -/
abbrev traceLost : Nat := 0x5400 * 256 + 0x04
/-- TRACE_RING (R217, Table 6.13). -/
abbrev traceRing : Nat := 0x5400 * 256 + 0x05
/-- STREAM_BASE (R217, Table 6.13). -/
abbrev streamBase : Nat := 0x5400 * 256 + 0x06
/-- STREAM_BYTES (R217, Table 6.13). -/
abbrev streamBytes : Nat := 0x5400 * 256 + 0x07
/-- STREAM_WRITTEN (R217, Table 6.13). -/
abbrev streamWritten : Nat := 0x5400 * 256 + 0x08
/-- IX2_QDEPTH (R217, Table 6.13). -/
abbrev ix2Qdepth (u : Nat) : Nat := (0x5800 + u) * 256 + 0x01
/-- IX2_WAIT_US (R217, Table 6.13). -/
abbrev ix2WaitUs (u : Nat) : Nat := (0x5800 + u) * 256 + 0x02
/-- IX2_LOAD_PM (R217, Table 6.13). -/
abbrev ix2LoadPm (u : Nat) : Nat := (0x5800 + u) * 256 + 0x03
/-- IX2_RUNS (R217, Table 6.13). -/
abbrev ix2Runs (u : Nat) : Nat := (0x5800 + u) * 256 + 0x04
/-- MIG_ACTIVE_MAX (R244, Table 7.6). -/
abbrev migActiveMax : Nat := 0x6300 * 256 + 0x01
/-- SAMPLE_SHIFT (R244, Table 7.6). -/
abbrev sampleShift : Nat := 0x6300 * 256 + 0x02
/-- SAMPLE_EPOCH_US (R244, Table 7.6). -/
abbrev sampleEpochUs : Nat := 0x6300 * 256 + 0x03
/-- MIG_THRESHOLD (R244, Table 7.6). -/
abbrev migThreshold : Nat := 0x6300 * 256 + 0x04
/-- HYST (R244, Table 7.6). -/
abbrev hyst : Nat := 0x6300 * 256 + 0x05
/-- MIG_COOLDOWN_MS (R244, Table 7.6). -/
abbrev migCooldownMs : Nat := 0x6300 * 256 + 0x06
/-- MIG_FINAL_CHUNKS (R244, Table 7.6). -/
abbrev migFinalChunks : Nat := 0x6300 * 256 + 0x07
/-- MIG_MAX_ROUNDS (R244, Table 7.6). -/
abbrev migMaxRounds : Nat := 0x6300 * 256 + 0x08
/-- MIG_LIMIT_US (R244, Table 7.6). -/
abbrev migLimitUs : Nat := 0x6300 * 256 + 0x09
/-- MIG_ACTIVE (R244, Table 7.6). -/
abbrev migActive : Nat := 0x6300 * 256 + 0x0A
/-- MIG_STARTED (R244, Table 7.6). -/
abbrev migStarted : Nat := 0x6300 * 256 + 0x0B
/-- MIG_DONE (R244, Table 7.6). -/
abbrev migDone : Nat := 0x6300 * 256 + 0x0C
/-- MIG_ABANDONED (R244, Table 7.6). -/
abbrev migAbandoned : Nat := 0x6300 * 256 + 0x0D
/-- MIG_NO_FRAME (R244, Table 7.6). -/
abbrev migNoFrame : Nat := 0x6300 * 256 + 0x0E
/-- MIG_STRAY_WRITES (R244, Table 7.6). -/
abbrev migStrayWrites : Nat := 0x6300 * 256 + 0x0F
/-- SAMPLES_DROPPED (R244, Table 7.6). -/
abbrev samplesDropped : Nat := 0x6300 * 256 + 0x10
/-- BYTES_MOVED (R244, Table 7.6). -/
abbrev bytesMoved : Nat := 0x6300 * 256 + 0x11
/-- LAST_ABANDON_STATUS (R244, Table 7.6). -/
abbrev lastAbandonStatus : Nat := 0x6300 * 256 + 0x12
/-- CTX_RELOCATIONS (R244, Table 7.6). -/
abbrev ctxRelocations : Nat := 0x6300 * 256 + 0x13
/-- POOL_MAP (R244, Table 7.6). -/
abbrev poolMap : Nat := 0x6301 * 256 + 0x01
/-- POOL_FRAME (R244, Table 7.6). -/
abbrev poolFrame : Nat := 0x6301 * 256 + 0x02
/-- POOL_CMD (R244, Table 7.6). -/
abbrev poolCmd : Nat := 0x6301 * 256 + 0x03
/-- POOL_STATUS (R244, Table 7.6). -/
abbrev poolStatus : Nat := 0x6301 * 256 + 0x04
/-- POOL_FREE_MA (R244, Table 7.6). -/
abbrev poolFreeMa : Nat := 0x6301 * 256 + 0x05
/-- POOL_FREE_MB (R244, Table 7.6). -/
abbrev poolFreeMb : Nat := 0x6301 * 256 + 0x06
/-- HMIG_ENTRY (R244, Table 7.6). -/
abbrev hmigEntry : Nat := 0x6302 * 256 + 0x01
/-- HMIG_DEST_NODE (R244, Table 7.6). -/
abbrev hmigDestNode : Nat := 0x6302 * 256 + 0x02
/-- HMIG_DEST_DIE (R244, Table 7.6). -/
abbrev hmigDestDie : Nat := 0x6302 * 256 + 0x03
/-- HMIG_DEST_FRAME (R244, Table 7.6). -/
abbrev hmigDestFrame : Nat := 0x6302 * 256 + 0x04
/-- HMIG_GO (R244, Table 7.6). -/
abbrev hmigGo : Nat := 0x6302 * 256 + 0x05
/-- HMIG_STATUS (R244, Table 7.6). -/
abbrev hmigStatus : Nat := 0x6302 * 256 + 0x06
/-- HMIG_SLOT (R244, Table 7.6). -/
abbrev hmigSlot : Nat := 0x6302 * 256 + 0x07
/-- HMIG_CANCEL (R244, Table 7.6). -/
abbrev hmigCancel : Nat := 0x6302 * 256 + 0x08
/-- PROP_COUNT (R244, Table 7.6). -/
abbrev propCount : Nat := 0x6303 * 256 + 0x01
/-- PROP_HEAD (R244, Table 7.6). -/
abbrev propHead : Nat := 0x6303 * 256 + 0x02
/-- PROP_POP (R244, Table 7.6). -/
abbrev propPop : Nat := 0x6303 * 256 + 0x03
/-- PROP_DROPPED (R244, Table 7.6). -/
abbrev propDropped : Nat := 0x6303 * 256 + 0x04
/-- MSLOT_STATE (R244, Table 7.7). -/
abbrev mslotState (u : Nat) : Nat := (0x6320 + u) * 256 + 0x01
/-- MSLOT_REASON (R244, Table 7.7). -/
abbrev mslotReason (u : Nat) : Nat := (0x6320 + u) * 256 + 0x02
/-- MSLOT_ENTRY (R244, Table 7.7). -/
abbrev mslotEntry (u : Nat) : Nat := (0x6320 + u) * 256 + 0x03
/-- MSLOT_SRC (R244, Table 7.7). -/
abbrev mslotSrc (u : Nat) : Nat := (0x6320 + u) * 256 + 0x04
/-- MSLOT_DST (R244, Table 7.7). -/
abbrev mslotDst (u : Nat) : Nat := (0x6320 + u) * 256 + 0x05
/-- MSLOT_ROUND (R244, Table 7.7). -/
abbrev mslotRound (u : Nat) : Nat := (0x6320 + u) * 256 + 0x06
/-- MSLOT_DIRTY (R244, Table 7.7). -/
abbrev mslotDirty (u : Nat) : Nat := (0x6320 + u) * 256 + 0x07
/-- MSLOT_START (R244, Table 7.7). -/
abbrev mslotStart (u : Nat) : Nat := (0x6320 + u) * 256 + 0x08
/-- MSLOT_LAST_STATUS (R244, Table 7.7). -/
abbrev mslotLastStatus (u : Nat) : Nat := (0x6320 + u) * 256 + 0x09
/-- HEAT_USED (R244, Table 7.7). -/
abbrev heatUsed (u : Nat) : Nat := (0x6340 + u) * 256 + 0x01
/-- HEAT_TABLE (R244, Table 7.7). -/
abbrev heatTable (u : Nat) : Nat := (0x6340 + u) * 256 + 0x02
/-- SAMPLES (R244, Table 7.7). -/
abbrev heatSamples (u : Nat) : Nat := (0x6340 + u) * 256 + 0x03
/-- DRAIN_SCANS (R244, Table 7.7). -/
abbrev drainScans (u : Nat) : Nat := (0x6380 + u) * 256 + 0x01
/-- DRAIN_FOUND (R244, Table 7.7). -/
abbrev drainFound (u : Nat) : Nat := (0x6380 + u) * 256 + 0x02
/-- DRAIN_MOVED (R244, Table 7.7). -/
abbrev drainMoved (u : Nat) : Nat := (0x6380 + u) * 256 + 0x03
/-- DRAIN_PINNED (R244, Table 7.7). -/
abbrev drainPinned (u : Nat) : Nat := (0x6380 + u) * 256 + 0x04
/-- DRAIN_POISON_SKIPS (R244, Table 7.7). -/
abbrev drainPoisonSkips (u : Nat) : Nat := (0x6380 + u) * 256 + 0x05
/-- STATIONS (R273, Table 8.17). -/
abbrev stations : Nat := 0xB000 * 256 + 0x01
/-- HDR_DISCARDS (R273, Table 8.17). -/
abbrev hdrDiscards : Nat := 0xB000 * 256 + 0x02
/-- TOO_LONG_REFUSALS (R273, Table 8.17). -/
abbrev tooLongRefusals : Nat := 0xB000 * 256 + 0x03
/-- MALFORMED_REFUSALS (R273, Table 8.17). -/
abbrev malformedRefusals : Nat := 0xB000 * 256 + 0x04
/-- FENCE_REFUSALS (R273, Table 8.17). -/
abbrev fenceRefusals : Nat := 0xB000 * 256 + 0x05
/-- STATION_GATE_NS (R273, Table 8.17). -/
abbrev stationGateNs : Nat := 0xB000 * 256 + 0x06
/-- INITIATOR_MAP (R273, Table 8.17). -/
abbrev initiatorMap : Nat := 0xB000 * 256 + 0x07
/-- RISER_REROUTES (R273, Table 8.17). -/
abbrev riserReroutes : Nat := 0xB000 * 256 + 0x08
/-- STATS_ENABLE (R273, Table 8.17). -/
abbrev statsEnable : Nat := 0xB010 * 256 + 0x01
/-- STATS_FREEZE (R273, Table 8.17). -/
abbrev statsFreeze : Nat := 0xB010 * 256 + 0x02
/-- LAT_SHIFT (R273, Table 8.17). -/
abbrev latShift : Nat := 0xB010 * 256 + 0x03
/-- STATS_CLEAR (R273, Table 8.17). -/
abbrev statsClear : Nat := 0xB010 * 256 + 0x04
/-- STATION_KIND (R273, Table 8.17). -/
abbrev stationKind (u : Nat) : Nat := (0xB040 + u) * 256 + 0x01
/-- GATED (R273, Table 8.17). -/
abbrev gated (u : Nat) : Nat := (0xB040 + u) * 256 + 0x02
/-- WAKES (R273, Table 8.17). -/
abbrev wakes (u : Nat) : Nat := (0xB040 + u) * 256 + 0x03
/-- REQ_FLITS (R273, Table 8.17). -/
abbrev reqFlits (u : Nat) : Nat := (0xB040 + u) * 256 + 0x04
/-- DAT_BEATS (R273, Table 8.17). -/
abbrev datBeats (u : Nat) : Nat := (0xB040 + u) * 256 + 0x05
/-- RSP_FLITS (R273, Table 8.17). -/
abbrev rspFlits (u : Nat) : Nat := (0xB040 + u) * 256 + 0x06
/-- SNP_FLITS (R273, Table 8.17). -/
abbrev snpFlits (u : Nat) : Nat := (0xB040 + u) * 256 + 0x07
/-- CREDIT_STALLS (R273, Table 8.17). -/
abbrev creditStalls (u : Nat) : Nat := (0xB040 + u) * 256 + 0x08
/-- FENCED_PORTS (R273, Table 8.17). -/
abbrev fencedPorts (u : Nat) : Nat := (0xB040 + u) * 256 + 0x09
/-- TX_REQ (R273, Table 8.18). -/
abbrev txReq (u : Nat) : Nat := (0xB100 + u) * 256 + 0x01
/-- TX_DAT (R273, Table 8.18). -/
abbrev txDat (u : Nat) : Nat := (0xB100 + u) * 256 + 0x02
/-- TX_RSP (R273, Table 8.18). -/
abbrev txRsp (u : Nat) : Nat := (0xB100 + u) * 256 + 0x03
/-- TX_SNP (R273, Table 8.18). -/
abbrev txSnp (u : Nat) : Nat := (0xB100 + u) * 256 + 0x04
/-- RX_REQ (R273, Table 8.18). -/
abbrev rxReq (u : Nat) : Nat := (0xB100 + u) * 256 + 0x05
/-- RX_DAT (R273, Table 8.18). -/
abbrev rxDat (u : Nat) : Nat := (0xB100 + u) * 256 + 0x06
/-- RX_RSP (R273, Table 8.18). -/
abbrev rxRsp (u : Nat) : Nat := (0xB100 + u) * 256 + 0x07
/-- RX_SNP (R273, Table 8.18). -/
abbrev rxSnp (u : Nat) : Nat := (0xB100 + u) * 256 + 0x08
/-- HIST_REQ (R273, Table 8.18). -/
abbrev histReq (u : Nat) : Nat := (0xB100 + u) * 256 + 0x09
/-- HIST_DAT (R273, Table 8.18). -/
abbrev histDat (u : Nat) : Nat := (0xB100 + u) * 256 + 0x0A
/-- HIST_RSP (R273, Table 8.18). -/
abbrev histRsp (u : Nat) : Nat := (0xB100 + u) * 256 + 0x0B
/-- HIST_SNP (R273, Table 8.18). -/
abbrev histSnp (u : Nat) : Nat := (0xB100 + u) * 256 + 0x0C
/-- LANES (R310, Table 9.11). -/
abbrev lanes : Nat := 0x4000 * 256 + 0x01
/-- LANES_UP (R310, Table 9.11). -/
abbrev lanesUp : Nat := 0x4000 * 256 + 0x02
/-- STAGE_LIMIT_US (R310, Table 9.11). -/
abbrev stageLimitUs : Nat := 0x4000 * 256 + 0x03
/-- ATTEMPTS_PER_RATE (R310, Table 9.11). -/
abbrev attemptsPerRate : Nat := 0x4000 * 256 + 0x04
/-- BAD_BLOCKS (R310, Table 9.11). -/
abbrev badBlocks : Nat := 0x4000 * 256 + 0x05
/-- TRAIN_CRC_ERRORS (R310, Table 9.11). -/
abbrev trainCrcErrors : Nat := 0x4000 * 256 + 0x06
/-- FEC_UNCORR_ALL (R310, Table 9.11). -/
abbrev fecUncorrAll : Nat := 0x4000 * 256 + 0x07
/-- OCTET_SEL (R310, Table 9.11). -/
abbrev octetSel : Nat := 0x4001 * 256 + 0x01
/-- SSC_PPM (R310, Table 9.11). -/
abbrev sscPpm : Nat := 0x4001 * 256 + 0x02
/-- SSC_KHZ (R310, Table 9.11). -/
abbrev sscKhz : Nat := 0x4001 * 256 + 0x03
/-- OCTET_ACTIVE (R310, Table 9.11). -/
abbrev octetActive : Nat := 0x4001 * 256 + 0x04
/-- LANE_EN (R310, Table 9.12). -/
abbrev laneEn (u : Nat) : Nat := (0x4100 + u) * 256 + 0x01
/-- STATE (R310, Table 9.12). -/
abbrev laneState (u : Nat) : Nat := (0x4100 + u) * 256 + 0x02
/-- RATE_MAX (R310, Table 9.12). -/
abbrev rateMax (u : Nat) : Nat := (0x4100 + u) * 256 + 0x03
/-- RATE_MIN (R310, Table 9.12). -/
abbrev rateMin (u : Nat) : Nat := (0x4100 + u) * 256 + 0x04
/-- RATE (R310, Table 9.12). -/
abbrev rate (u : Nat) : Nat := (0x4100 + u) * 256 + 0x05
/-- SIGNAL (R310, Table 9.12). -/
abbrev signal (u : Nat) : Nat := (0x4100 + u) * 256 + 0x06
/-- POLARITY_INV (R310, Table 9.12). -/
abbrev polarityInv (u : Nat) : Nat := (0x4100 + u) * 256 + 0x07
/-- LANE_MAP (R310, Table 9.12). -/
abbrev laneMap (u : Nat) : Nat := (0x4100 + u) * 256 + 0x08
/-- PARTNER_NODE (R310, Table 9.12). -/
abbrev lanePartnerNode (u : Nat) : Nat := (0x4100 + u) * 256 + 0x09
/-- SKEW_BLOCKS (R310, Table 9.12). -/
abbrev skewBlocks (u : Nat) : Nat := (0x4100 + u) * 256 + 0x0A
/-- TX_PRE (R310, Table 9.12). -/
abbrev txPre (u : Nat) : Nat := (0x4100 + u) * 256 + 0x0B
/-- TX_POST (R310, Table 9.12). -/
abbrev txPost (u : Nat) : Nat := (0x4100 + u) * 256 + 0x0C
/-- WAKE_EN (R310, Table 9.12). -/
abbrev wakeEn (u : Nat) : Nat := (0x4100 + u) * 256 + 0x0D
/-- BRINGUPS (R310, Table 9.12). -/
abbrev bringups (u : Nat) : Nat := (0x4100 + u) * 256 + 0x0E
/-- STAGE_FAILS (R310, Table 9.12). -/
abbrev stageFails (u : Nat) : Nat := (0x4100 + u) * 256 + 0x0F
/-- LAST_FAIL_STAGE (R310, Table 9.12). -/
abbrev lastFailStage (u : Nat) : Nat := (0x4100 + u) * 256 + 0x10
/-- CDR_LOSSES (R310, Table 9.12). -/
abbrev cdrLosses (u : Nat) : Nat := (0x4100 + u) * 256 + 0x11
/-- FEC_CODEWORDS (R310, Table 9.12). -/
abbrev fecCodewords (u : Nat) : Nat := (0x4100 + u) * 256 + 0x12
/-- FEC_CORR_SYMBOLS (R310, Table 9.12). -/
abbrev fecCorrSymbols (u : Nat) : Nat := (0x4100 + u) * 256 + 0x13
/-- FEC_UNCORR (R310, Table 9.12). -/
abbrev fecUncorr (u : Nat) : Nat := (0x4100 + u) * 256 + 0x14
/-- LANE_CMD (R310, Table 9.12). -/
abbrev laneCmd (u : Nat) : Nat := (0x4100 + u) * 256 + 0x15
/-- TEST_PATTERN (R310, Table 9.12). -/
abbrev testPattern (u : Nat) : Nat := (0x4100 + u) * 256 + 0x16
/-- TEST_LOCK (R310, Table 9.12). -/
abbrev testLock (u : Nat) : Nat := (0x4100 + u) * 256 + 0x17
/-- TEST_BITS (R310, Table 9.12). -/
abbrev testBits (u : Nat) : Nat := (0x4100 + u) * 256 + 0x18
/-- TEST_ERRORS (R310, Table 9.12). -/
abbrev testErrors (u : Nat) : Nat := (0x4100 + u) * 256 + 0x19
/-- EYE_SEL (R310, Table 9.12). -/
abbrev eyeSel (u : Nat) : Nat := (0x4100 + u) * 256 + 0x1A
/-- EYE_PHASE (R310, Table 9.12). -/
abbrev eyePhase (u : Nat) : Nat := (0x4100 + u) * 256 + 0x1B
/-- EYE_VOLT (R310, Table 9.12). -/
abbrev eyeVolt (u : Nat) : Nat := (0x4100 + u) * 256 + 0x1C
/-- EYE_DWELL_LOG2 (R310, Table 9.12). -/
abbrev eyeDwellLog2 (u : Nat) : Nat := (0x4100 + u) * 256 + 0x1D
/-- EYE_GO (R310, Table 9.12). -/
abbrev eyeGo (u : Nat) : Nat := (0x4100 + u) * 256 + 0x1E
/-- EYE_STATUS (R310, Table 9.12). -/
abbrev eyeStatus (u : Nat) : Nat := (0x4100 + u) * 256 + 0x1F
/-- EYE_ERRORS (R310, Table 9.12). -/
abbrev eyeErrors (u : Nat) : Nat := (0x4100 + u) * 256 + 0x20
/-- LINK_STATE (R356, Table 10.10). -/
abbrev linkState (u : Nat) : Nat := (0x4400 + u) * 256 + 0x01
/-- WIDTH (R356, Table 10.10). -/
abbrev width (u : Nat) : Nat := (0x4400 + u) * 256 + 0x02
/-- ACTIVE_SET (R356, Table 10.10). -/
abbrev activeSet (u : Nat) : Nat := (0x4400 + u) * 256 + 0x03
/-- PARTNER_NODE (R356, Table 10.10). -/
abbrev linkPartnerNode (u : Nat) : Nat := (0x4400 + u) * 256 + 0x04
/-- PARTNER_LINK (R356, Table 10.10). -/
abbrev partnerLink (u : Nat) : Nat := (0x4400 + u) * 256 + 0x05
/-- CRED_Q (R356, Table 10.10). -/
abbrev credQ (u : Nat) : Nat := (0x4400 + u) * 256 + 0x06
/-- CRED_W (R356, Table 10.10). -/
abbrev credW (u : Nat) : Nat := (0x4400 + u) * 256 + 0x07
/-- CRED_K (R356, Table 10.10). -/
abbrev credK (u : Nat) : Nat := (0x4400 + u) * 256 + 0x08
/-- RESV_D (R356, Table 10.10). -/
abbrev resvD (u : Nat) : Nat := (0x4400 + u) * 256 + 0x09
/-- RESV_C (R356, Table 10.10). -/
abbrev resvC (u : Nat) : Nat := (0x4400 + u) * 256 + 0x0A
/-- RESV_A (R356, Table 10.10). -/
abbrev resvA (u : Nat) : Nat := (0x4400 + u) * 256 + 0x0B
/-- FLUSH (R356, Table 10.10). -/
abbrev flush (u : Nat) : Nat := (0x4400 + u) * 256 + 0x0C
/-- CREDITS_NOW (R356, Table 10.10). -/
abbrev creditsNow (u : Nat) : Nat := (0x4400 + u) * 256 + 0x0D
/-- TX_CONTAINERS (R356, Table 10.10). -/
abbrev txContainers (u : Nat) : Nat := (0x4400 + u) * 256 + 0x0E
/-- RX_CONTAINERS (R356, Table 10.10). -/
abbrev rxContainers (u : Nat) : Nat := (0x4400 + u) * 256 + 0x0F
/-- CRC_FAILS (R356, Table 10.10). -/
abbrev crcFails (u : Nat) : Nat := (0x4400 + u) * 256 + 0x10
/-- REPLAYS (R356, Table 10.10). -/
abbrev replays (u : Nat) : Nat := (0x4400 + u) * 256 + 0x11
/-- NAKS_SENT (R356, Table 10.10). -/
abbrev naksSent (u : Nat) : Nat := (0x4400 + u) * 256 + 0x12
/-- DUP_DISCARDS (R356, Table 10.10). -/
abbrev dupDiscards (u : Nat) : Nat := (0x4400 + u) * 256 + 0x13
/-- WIDTH_CHANGES (R356, Table 10.10). -/
abbrev widthChanges (u : Nat) : Nat := (0x4400 + u) * 256 + 0x14
/-- RECOVERIES (R356, Table 10.10). -/
abbrev recoveries (u : Nat) : Nat := (0x4400 + u) * 256 + 0x15
/-- PARTNER_LOSSES (R356, Table 10.10). -/
abbrev partnerLosses (u : Nat) : Nat := (0x4400 + u) * 256 + 0x16
/-- LOSS_CAUSE (R356, Table 10.10). -/
abbrev lossCause (u : Nat) : Nat := (0x4400 + u) * 256 + 0x17
/-- LOSS_TIME (R356, Table 10.10). -/
abbrev lossTime (u : Nat) : Nat := (0x4400 + u) * 256 + 0x18
/-- PROTO_ERRORS (R356, Table 10.10). -/
abbrev protoErrors (u : Nat) : Nat := (0x4400 + u) * 256 + 0x19
/-- INIT_REFUSALS (R356, Table 10.10). -/
abbrev initRefusals (u : Nat) : Nat := (0x4400 + u) * 256 + 0x1A
/-- LINK_IDLE_US (R356, Table 10.10). -/
abbrev linkIdleUs (u : Nat) : Nat := (0x4400 + u) * 256 + 0x1B
/-- LINK_LAYOUT (R356, Table 10.11). -/
abbrev linkLayout (u : Nat) : Nat := (0x4600 + u) * 256 + 0x01
/-- CT_THRESHOLD (R356, Table 10.11). -/
abbrev ctThreshold (u : Nat) : Nat := (0x4600 + u) * 256 + 0x02
/-- RXBUF_FREE (R356, Table 10.11). -/
abbrev rxbufFree (u : Nat) : Nat := (0x4600 + u) * 256 + 0x03
/-- REPLAY_USED (R356, Table 10.11). -/
abbrev replayUsed (u : Nat) : Nat := (0x4600 + u) * 256 + 0x04
/-- EGRESS_OPEN (R356, Table 10.11). -/
abbrev egressOpen (u : Nat) : Nat := (0x4600 + u) * 256 + 0x05
/-- PROXY_OPEN (R356, Table 10.11). -/
abbrev proxyOpen (u : Nat) : Nat := (0x4600 + u) * 256 + 0x06
/-- UNDELIVERED (R356, Table 10.11). -/
abbrev undelivered (u : Nat) : Nat := (0x4600 + u) * 256 + 0x07
/-- NODE_ID (R356, Table 10.12). -/
abbrev nodeId : Nat := 0x4800 * 256 + 0x01
/-- NID_STRAP (R356, Table 10.12). -/
abbrev nidStrap : Nat := 0x4800 * 256 + 0x02
/-- ADAPT_MODE (R356, Table 10.12). -/
abbrev adaptMode : Nat := 0x4800 * 256 + 0x03
/-- ROUTE_HOLDOFF_US (R356, Table 10.12). -/
abbrev routeHoldoffUs : Nat := 0x4800 * 256 + 0x04
/-- NODE_LOST_US (R356, Table 10.12). -/
abbrev nodeLostUs : Nat := 0x4800 * 256 + 0x05
/-- ROUTE_SEL (R356, Table 10.12). -/
abbrev routeSel : Nat := 0x4800 * 256 + 0x06
/-- ROUTE_LIVE (R356, Table 10.12). -/
abbrev routeLive : Nat := 0x4800 * 256 + 0x07
/-- ROUTE_STAGED (R356, Table 10.12). -/
abbrev routeStaged : Nat := 0x4800 * 256 + 0x08
/-- NODE_STATUS (R356, Table 10.12). -/
abbrev nodeStatus : Nat := 0x4800 * 256 + 0x09
/-- PATH_LOST_COMPLETIONS (R356, Table 10.12). -/
abbrev pathLostCompletions : Nat := 0x4800 * 256 + 0x0A
/-- ROUTE_SWITCHES (R356, Table 10.12). -/
abbrev routeSwitches : Nat := 0x4800 * 256 + 0x0B
/-- HOLDOFFS (R356, Table 10.12). -/
abbrev holdoffs : Nat := 0x4800 * 256 + 0x0C
/-- TIME_PARENT (R356, Table 10.12). -/
abbrev timeParent : Nat := 0x4801 * 256 + 0x01
/-- TIME_INTERVAL_US (R356, Table 10.12). -/
abbrev timeIntervalUs : Nat := 0x4801 * 256 + 0x02
/-- SWARM_OFFSET (R356, Table 10.12). -/
abbrev swarmOffset : Nat := 0x4801 * 256 + 0x03
/-- SWARM_TIME (R356, Table 10.12). -/
abbrev swarmTime : Nat := 0x4801 * 256 + 0x04
/-- TIME_STATE (R356, Table 10.12). -/
abbrev timeState : Nat := 0x4801 * 256 + 0x05
/-- PATH_DELAY (R356, Table 10.12). -/
abbrev pathDelay : Nat := 0x4801 * 256 + 0x06
/-- TIME_STEPS (R356, Table 10.12). -/
abbrev timeSteps : Nat := 0x4801 * 256 + 0x07
/-- CFG_STATE (R384, Table 11.15). -/
abbrev cfgState : Nat := 0x7000 * 256 + 0x01
/-- MODE_PINS (R384, Table 11.15). -/
abbrev modePins : Nat := 0x7000 * 256 + 0x02
/-- IMAGE_USED (R384, Table 11.15). -/
abbrev imageUsed : Nat := 0x7000 * 256 + 0x03
/-- FAIL_CODE (R384, Table 11.15). -/
abbrev failCode : Nat := 0x7000 * 256 + 0x04
/-- GOLDEN_FAIL_CODE (R384, Table 11.15). -/
abbrev goldenFailCode : Nat := 0x7000 * 256 + 0x05
/-- FRAMES_DONE (R384, Table 11.15). -/
abbrev framesDone : Nat := 0x7000 * 256 + 0x06
/-- FRAMES_TOTAL (R384, Table 11.15). -/
abbrev framesTotal : Nat := 0x7000 * 256 + 0x07
/-- FRAME_RETRIES (R384, Table 11.15). -/
abbrev frameRetries : Nat := 0x7000 * 256 + 0x08
/-- LOAD_START (R384, Table 11.15). -/
abbrev loadStart : Nat := 0x7000 * 256 + 0x09
/-- START_EDGE (R384, Table 11.15). -/
abbrev startEdge : Nat := 0x7000 * 256 + 0x0A
/-- LIMIT_IN_FORCE_MS (R384, Table 11.15). -/
abbrev limitInForceMs : Nat := 0x7000 * 256 + 0x0B
/-- PUSH_NEXT (R384, Table 11.15). -/
abbrev pushNext : Nat := 0x7000 * 256 + 0x0C
/-- PUSH_LIMIT_MS (R384, Table 11.15). -/
abbrev pushLimitMs : Nat := 0x7000 * 256 + 0x0D
/-- PUSH_DISCARDS (R384, Table 11.15). -/
abbrev pushDiscards : Nat := 0x7000 * 256 + 0x0E
/-- IMAGE_DIGEST (R384, Table 11.15). -/
abbrev imageDigest : Nat := 0x7000 * 256 + 0x0F
/-- IMAGE_VERSION (R384, Table 11.15). -/
abbrev imageVersion : Nat := 0x7000 * 256 + 0x10
/-- IMAGE_ROLLBACK (R384, Table 11.15). -/
abbrev imageRollback : Nat := 0x7000 * 256 + 0x11
/-- OWNER_STATE (R384, Table 11.15). -/
abbrev ownerState : Nat := 0x7001 * 256 + 0x01
/-- OWNER_DIGEST_0 to _3 (R384, Table 11.15). -/
abbrev ownerDigest (k : Nat) : Nat := 0x7001 * 256 + (0x02 + k)
/-- REVOKED (R384, Table 11.15). -/
abbrev revoked : Nat := 0x7001 * 256 + 0x06
/-- ROLLBACK_COUNT (R384, Table 11.15). -/
abbrev rollbackCount : Nat := 0x7001 * 256 + 0x07
/-- IMAGE_KEY_SET (R384, Table 11.15). -/
abbrev imageKeySet : Nat := 0x7001 * 256 + 0x08
/-- MGMT_PATHS (R384, Table 11.15). -/
abbrev mgmtPaths : Nat := 0x7001 * 256 + 0x09
/-- FUSE_OP (R384, Table 11.15). -/
abbrev fuseOp : Nat := 0x7001 * 256 + 0x0A
/-- FUSE_SLOT (R384, Table 11.15). -/
abbrev fuseSlot : Nat := 0x7001 * 256 + 0x0B
/-- FUSE_VALUE (R384, Table 11.15). -/
abbrev fuseValue : Nat := 0x7001 * 256 + 0x0C
/-- FUSE_AUTH (R384, Table 11.15). -/
abbrev fuseAuth : Nat := 0x7001 * 256 + 0x0D
/-- FUSE_GO (R384, Table 11.15). -/
abbrev fuseGo : Nat := 0x7001 * 256 + 0x0E
/-- FUSE_STATUS (R384, Table 11.15). -/
abbrev fuseStatus : Nat := 0x7001 * 256 + 0x0F
/-- PKG_ADDR (R384, Table 11.15). -/
abbrev pkgAddr : Nat := 0x7002 * 256 + 0x01
/-- PKG_BYTES (R384, Table 11.15). -/
abbrev pkgBytes : Nat := 0x7002 * 256 + 0x02
/-- PKG_CMD (R384, Table 11.15). -/
abbrev pkgCmd : Nat := 0x7002 * 256 + 0x03
/-- PKG_SCARAB (R384, Table 11.15). -/
abbrev pkgScarab : Nat := 0x7002 * 256 + 0x04
/-- PKG_STATUS (R384, Table 11.15). -/
abbrev pkgStatus : Nat := 0x7002 * 256 + 0x05
/-- PKG_FAIL (R384, Table 11.15). -/
abbrev pkgFail : Nat := 0x7002 * 256 + 0x06
/-- PKG_COUNT (R384, Table 11.15). -/
abbrev pkgCount : Nat := 0x7002 * 256 + 0x07
/-- PKG_LOG_DIGEST (R384, Table 11.15). -/
abbrev pkgLogDigest : Nat := 0x7002 * 256 + 0x08
/-- FW_VERSION_A (R384, Table 11.15). -/
abbrev fwVersionA : Nat := 0x7002 * 256 + 0x09
/-- FW_VERSION_B (R384, Table 11.15). -/
abbrev fwVersionB : Nat := 0x7002 * 256 + 0x0A
/-- FW_ACTIVE (R384, Table 11.15). -/
abbrev fwActive : Nat := 0x7002 * 256 + 0x0B
/-- UCODE_STAGED (R384, Table 11.15). -/
abbrev ucodeStaged : Nat := 0x7002 * 256 + 0x0C
/-- UCODE_VERSIONS (R384, Table 11.15). -/
abbrev ucodeVersions : Nat := 0x7002 * 256 + 0x0D
/-- NONCE (R384, Table 11.15). -/
abbrev nonce : Nat := 0x7003 * 256 + 0x01
/-- ATTEST_GO (R384, Table 11.15). -/
abbrev attestGo : Nat := 0x7003 * 256 + 0x02
/-- ATTEST_STATUS (R384, Table 11.15). -/
abbrev attestStatus : Nat := 0x7003 * 256 + 0x03
/-- REPORT (R384, Table 11.15). -/
abbrev report : Nat := 0x7003 * 256 + 0x04
/-- ID_PUBKEY (R384, Table 11.15). -/
abbrev idPubkey : Nat := 0x7003 * 256 + 0x05
/-- DEVICE_CERT (R384, Table 11.15). -/
abbrev deviceCert : Nat := 0x7003 * 256 + 0x06
/-- VENDOR_NAME (R418, Table 12.15). -/
abbrev vendorName : Nat := 0x1000 * 256 + 0x01
/-- DEVICE_NAME (R418, Table 12.15). -/
abbrev deviceName : Nat := 0x1000 * 256 + 0x02
/-- ORDERING_CODE (R418, Table 12.15). -/
abbrev orderingCode : Nat := 0x1000 * 256 + 0x03
/-- GRADE (R418, Table 12.15). -/
abbrev grade : Nat := 0x1000 * 256 + 0x04
/-- SERIAL (R418, Table 12.15). -/
abbrev serial : Nat := 0x1000 * 256 + 0x05
/-- DICT_VERSION (R418, Table 12.15). -/
abbrev dictVersion : Nat := 0x1000 * 256 + 0x06
/-- PCI_VENDOR_ID (R418, Table 12.15). -/
abbrev pciVendorId : Nat := 0x1000 * 256 + 0x07
/-- PCI_DEVICE_ID (R418, Table 12.15). -/
abbrev pciDeviceId : Nat := 0x1000 * 256 + 0x08
/-- TIMESTAMP (R418, Table 12.15). -/
abbrev timestamp : Nat := 0x1000 * 256 + 0x09
/-- LMP_STALL_MS (R418, Table 12.15). -/
abbrev lmpStallMs : Nat := 0x1100 * 256 + 0x01
/-- MBOX_VECTOR (R418, Table 12.15). -/
abbrev mboxVector : Nat := 0x1100 * 256 + 0x02
/-- CHANNELS_BUSY (R418, Table 12.15). -/
abbrev channelsBusy : Nat := 0x1100 * 256 + 0x03
/-- LMP_TRANSFERS (R418, Table 12.15). -/
abbrev lmpTransfers : Nat := 0x1100 * 256 + 0x04
/-- LMP_ABORTS_SENT (R418, Table 12.15). -/
abbrev lmpAbortsSent : Nat := 0x1100 * 256 + 0x05
/-- LMP_ABORTS_RECEIVED (R418, Table 12.15). -/
abbrev lmpAbortsReceived : Nat := 0x1100 * 256 + 0x06
/-- LAST_ABORT_CODE (R418, Table 12.15). -/
abbrev lastAbortCode : Nat := 0x1100 * 256 + 0x07
/-- FWD_LIMIT_MS (R418, Table 12.15). -/
abbrev fwdLimitMs : Nat := 0x1100 * 256 + 0x08
/-- FWD_REQUESTS (R418, Table 12.15). -/
abbrev fwdRequests : Nat := 0x1100 * 256 + 0x09
/-- USB4_ENABLE (R418, Table 12.15). -/
abbrev usb4Enable : Nat := 0x1110 * 256 + 0x01
/-- USB4_STATE (R418, Table 12.15). -/
abbrev usb4State : Nat := 0x1110 * 256 + 0x02
/-- USB4_GEN (R418, Table 12.15). -/
abbrev usb4Gen : Nat := 0x1110 * 256 + 0x03
/-- PCIE_UP (R418, Table 12.15). -/
abbrev pcieUp : Nat := 0x1110 * 256 + 0x04
/-- MSIX_ENABLED (R418, Table 12.15). -/
abbrev msixEnabled : Nat := 0x1110 * 256 + 0x05
/-- BAR_WRITE_ERRORS (R418, Table 12.15). -/
abbrev barWriteErrors : Nat := 0x1110 * 256 + 0x06
/-- DISCONNECTS (R418, Table 12.15). -/
abbrev disconnects : Nat := 0x1110 * 256 + 0x07
/-- CAN_ENABLE (R418, Table 12.15). -/
abbrev canEnable (u : Nat) : Nat := (0x1120 + u) * 256 + 0x01
/-- NOM_KBPS (R418, Table 12.15). -/
abbrev nomKbps (u : Nat) : Nat := (0x1120 + u) * 256 + 0x02
/-- DATA_KBPS (R418, Table 12.15). -/
abbrev dataKbps (u : Nat) : Nat := (0x1120 + u) * 256 + 0x03
/-- NOM_SP_PM (R418, Table 12.15). -/
abbrev nomSpPm (u : Nat) : Nat := (0x1120 + u) * 256 + 0x04
/-- DATA_SP_PM (R418, Table 12.15). -/
abbrev dataSpPm (u : Nat) : Nat := (0x1120 + u) * 256 + 0x05
/-- BUS_STATE (R418, Table 12.15). -/
abbrev busState (u : Nat) : Nat := (0x1120 + u) * 256 + 0x06
/-- TEC (R418, Table 12.15). -/
abbrev tec (u : Nat) : Nat := (0x1120 + u) * 256 + 0x07
/-- REC (R418, Table 12.15). -/
abbrev rec (u : Nat) : Nat := (0x1120 + u) * 256 + 0x08
/-- FRAMES_RX (R418, Table 12.15). -/
abbrev framesRx (u : Nat) : Nat := (0x1120 + u) * 256 + 0x09
/-- FRAMES_TX (R418, Table 12.15). -/
abbrev framesTx (u : Nat) : Nat := (0x1120 + u) * 256 + 0x0A
/-- FRAMES_IGNORED (R418, Table 12.15). -/
abbrev framesIgnored (u : Nat) : Nat := (0x1120 + u) * 256 + 0x0B
/-- HEARTBEAT_MS (R418, Table 12.15). -/
abbrev heartbeatMs (u : Nat) : Nat := (0x1120 + u) * 256 + 0x0C
/-- ALERT_DEST (R418, Table 12.15). -/
abbrev alertDest (u : Nat) : Nat := (0x1120 + u) * 256 + 0x0D
/-- BUS_OFFS (R418, Table 12.15). -/
abbrev busOffs (u : Nat) : Nat := (0x1120 + u) * 256 + 0x0E
/-- MODE (R418, Table 12.16). -/
abbrev mode (k : Nat) : Nat := 0x1200 * 256 + (0x01 + k)
/-- MODE_STAGED (R418, Table 12.16). -/
abbrev modeStaged (k : Nat) : Nat := 0x1201 * 256 + (0x01 + k)
/-- COMMIT_EPOCH (R418, Table 12.16). -/
abbrev commitEpoch : Nat := 0x1240 * 256 + 0x01
/-- COMMIT_SCOPE (R418, Table 12.16). -/
abbrev commitScope : Nat := 0x1240 * 256 + 0x02
/-- COMMIT_GROUPS (R418, Table 12.16). -/
abbrev commitGroups : Nat := 0x1240 * 256 + 0x03
/-- COMMIT_NODES (R418, Table 12.16). -/
abbrev commitNodes : Nat := 0x1240 * 256 + 0x04
/-- COMMIT_GO (R418, Table 12.16). -/
abbrev commitGo : Nat := 0x1240 * 256 + 0x05
/-- COMMIT_STATE (R418, Table 12.16). -/
abbrev commitState : Nat := 0x1240 * 256 + 0x06
/-- COMMIT_APPLY_AT (R418, Table 12.16). -/
abbrev commitApplyAt : Nat := 0x1240 * 256 + 0x07
/-- COMMIT_REASON (R418, Table 12.16). -/
abbrev commitReason : Nat := 0x1240 * 256 + 0x08
/-- COMMIT_FIRST_UNIT (R418, Table 12.16). -/
abbrev commitFirstUnit : Nat := 0x1240 * 256 + 0x09
/-- UNIT_REPLIES (R418, Table 12.16). -/
abbrev unitReplies : Nat := 0x1240 * 256 + 0x0A
/-- NODE_REPLIES (R418, Table 12.16). -/
abbrev nodeReplies : Nat := 0x1240 * 256 + 0x0B
/-- LAST_EPOCH (R418, Table 12.16). -/
abbrev lastEpoch : Nat := 0x1240 * 256 + 0x0C
/-- EPOCH_US (R418, Table 12.16). -/
abbrev epochUs : Nat := 0x1240 * 256 + 0x0D
/-- SWARM_WINDOW_US (R418, Table 12.16). -/
abbrev swarmWindowUs : Nat := 0x1240 * 256 + 0x0E
/-- SWARM_LEAD_US (R418, Table 12.16). -/
abbrev swarmLeadUs : Nat := 0x1240 * 256 + 0x0F
/-- APPLY_WAIT_US (R418, Table 12.16). -/
abbrev applyWaitUs : Nat := 0x1240 * 256 + 0x10
/-- COMMIT_VECTOR (R418, Table 12.16). -/
abbrev commitVector : Nat := 0x1240 * 256 + 0x11
/-- PART_STATE (R418, Table 12.16). -/
abbrev partState : Nat := 0x1241 * 256 + 0x01
/-- PART_EPOCH (R418, Table 12.16). -/
abbrev partEpoch : Nat := 0x1241 * 256 + 0x02
/-- PART_COORD (R418, Table 12.16). -/
abbrev partCoord : Nat := 0x1241 * 256 + 0x03
/-- PART_SINCE (R418, Table 12.16). -/
abbrev partSince : Nat := 0x1241 * 256 + 0x04
/-- COMMIT_RESOLVE (R418, Table 12.16). -/
abbrev commitResolve : Nat := 0x1241 * 256 + 0x05
/-- RESOLVES (R418, Table 12.16). -/
abbrev resolves : Nat := 0x1241 * 256 + 0x06
/-- COMMIT_LOG (R418, Table 12.16). -/
abbrev commitLog : Nat := 0x1242 * 256 + 0x00
/-- REFCLK_HZ (R449, Table 13.11). -/
abbrev refclkHz : Nat := 0x8000 * 256 + 0x01
/-- ROOT_HZ (R449, Table 13.11). -/
abbrev rootHz : Nat := 0x8000 * 256 + 0x02
/-- ROOT_LOCK (R449, Table 13.11). -/
abbrev rootLock : Nat := 0x8000 * 256 + 0x03
/-- FABRIC_DIV (R449, Table 13.11). -/
abbrev fabricDiv : Nat := 0x8000 * 256 + 0x04
/-- FABRIC_HZ (R449, Table 13.11). -/
abbrev fabricHz : Nat := 0x8000 * 256 + 0x05
/-- SOFT_START_US (R449, Table 13.11). -/
abbrev softStartUs : Nat := 0x8000 * 256 + 0x06
/-- AUXCLK_DIV (R449, Table 13.11). -/
abbrev auxclkDiv : Nat := 0x8000 * 256 + 0x07
/-- AUXCLK_SSC_PPM (R449, Table 13.11). -/
abbrev auxclkSscPpm : Nat := 0x8000 * 256 + 0x08
/-- AUXCLK_SSC_KHZ (R449, Table 13.11). -/
abbrev auxclkSscKhz : Nat := 0x8000 * 256 + 0x09
/-- CRICKET_COUNT (R449, Table 13.11). -/
abbrev cricketCount : Nat := 0x8000 * 256 + 0x0A
/-- STOPS (R449, Table 13.11). -/
abbrev stops : Nat := 0x8001 * 256 + 0x01
/-- LAST_STOP_CAUSE (R449, Table 13.11). -/
abbrev lastStopCause : Nat := 0x8001 * 256 + 0x02
/-- LAST_STOP_TIME (R449, Table 13.11). -/
abbrev lastStopTime : Nat := 0x8001 * 256 + 0x03
/-- LAST_STOP_US (R449, Table 13.11). -/
abbrev lastStopUs : Nat := 0x8001 * 256 + 0x04
/-- RAILS_IN_RANGE (R449, Table 13.11). -/
abbrev railsInRange : Nat := 0x8001 * 256 + 0x05
/-- SUPPLY_EVENTS (R449, Table 13.11). -/
abbrev supplyEvents : Nat := 0x8001 * 256 + 0x06
/-- SKIP_REQ (R449, Table 13.11). -/
abbrev skipReq (u : Nat) : Nat := (0x8100 + u) * 256 + 0x01
/-- SKIP_MAX (R449, Table 13.11). -/
abbrev skipMax (u : Nat) : Nat := (0x8100 + u) * 256 + 0x02
/-- SKIPPED_EDGES (R449, Table 13.11). -/
abbrev skippedEdges (u : Nat) : Nat := (0x8100 + u) * 256 + 0x03
/-- SLEW_FAB (R449, Table 13.12). -/
abbrev slewFab : Nat := 0x8200 * 256 + 0x01
/-- BURST_FAB (R449, Table 13.12). -/
abbrev burstFab : Nat := 0x8200 * 256 + 0x02
/-- REGION_WAKE_MA (R449, Table 13.12). -/
abbrev regionWakeMa : Nat := 0x8200 * 256 + 0x03
/-- SLEW_LANE (R449, Table 13.12). -/
abbrev slewLane : Nat := 0x8200 * 256 + 0x04
/-- BURST_LANE (R449, Table 13.12). -/
abbrev burstLane : Nat := 0x8200 * 256 + 0x05
/-- LANE_WAKE_MA (R449, Table 13.12). -/
abbrev laneWakeMa : Nat := 0x8200 * 256 + 0x06
/-- WG_AGE_US (R449, Table 13.12). -/
abbrev wgAgeUs : Nat := 0x8200 * 256 + 0x07
/-- HOST_WAKE_LIMIT_US (R449, Table 13.12). -/
abbrev hostWakeLimitUs : Nat := 0x8200 * 256 + 0x08
/-- WG_QUEUED (R449, Table 13.12). -/
abbrev wgQueued : Nat := 0x8200 * 256 + 0x09
/-- WG_GRANTS (R449, Table 13.12). -/
abbrev wgGrants : Nat := 0x8200 * 256 + 0x0A
/-- WG_MAX_WAIT_NS (R449, Table 13.12). -/
abbrev wgMaxWaitNs : Nat := 0x8200 * 256 + 0x0B
/-- WG_BOUND_FAB_NS (R449, Table 13.12). -/
abbrev wgBoundFabNs : Nat := 0x8200 * 256 + 0x0C
/-- WG_BOUND_LANE_NS (R449, Table 13.12). -/
abbrev wgBoundLaneNs : Nat := 0x8200 * 256 + 0x0D
/-- WG_QUEUE (R449, Table 13.12). -/
abbrev wgQueue : Nat := 0x8200 * 256 + 0x0E
/-- WG_GRANT (R449, Table 13.12). -/
abbrev wgGrant : Nat := 0x8200 * 256 + 0x0F
/-- HIBERNATE (R449, Table 13.12). -/
abbrev hibernate : Nat := 0x8300 * 256 + 0x01
/-- DEVICE_POWER (R449, Table 13.12). -/
abbrev devicePower : Nat := 0x8300 * 256 + 0x02
/-- WAKE_SOURCES (R449, Table 13.12). -/
abbrev wakeSources : Nat := 0x8300 * 256 + 0x03
/-- HIBERNATE_ALARM (R449, Table 13.12). -/
abbrev hibernateAlarm : Nat := 0x8300 * 256 + 0x04
/-- LAST_WAKE_SOURCE (R449, Table 13.12). -/
abbrev lastWakeSource : Nat := 0x8300 * 256 + 0x05
/-- HIBERNATIONS (R449, Table 13.12). -/
abbrev hibernations : Nat := 0x8300 * 256 + 0x06
/-- LAST_RESET_CAUSE (R449, Table 13.12). -/
abbrev lastResetCause : Nat := 0x8400 * 256 + 0x01
/-- DEVICE_RESETS (R449, Table 13.12). -/
abbrev deviceResets : Nat := 0x8400 * 256 + 0x02
/-- DEVICE_RESET (R449, Table 13.12). -/
abbrev deviceReset : Nat := 0x8400 * 256 + 0x03
/-- DIE_RESET (R449, Table 13.12). -/
abbrev dieReset : Nat := 0x8400 * 256 + 0x04
/-- DIE_RESET_HOLD_US (R449, Table 13.12). -/
abbrev dieResetHoldUs : Nat := 0x8400 * 256 + 0x05
/-- DRAIN_WINDOW_US (R449, Table 13.12). -/
abbrev drainWindowUs : Nat := 0x8400 * 256 + 0x06
/-- DIE_RESET_STATUS (R449, Table 13.12). -/
abbrev dieResetStatus : Nat := 0x8400 * 256 + 0x07
/-- FENCE_LEFTOVERS (R449, Table 13.12). -/
abbrev fenceLeftovers : Nat := 0x8400 * 256 + 0x08
/-- SENSORS (R464, Table 14.2). -/
abbrev sensors : Nat := 0x9000 * 256 + 0x01
/-- WARN (R464, Table 14.2). -/
abbrev warn : Nat := 0x9000 * 256 + 0x02
/-- TARGET (R464, Table 14.2). -/
abbrev target : Nat := 0x9000 * 256 + 0x03
/-- TRIP (R464, Table 14.2). -/
abbrev trip : Nat := 0x9000 * 256 + 0x04
/-- TRIP_CLEAR (R464, Table 14.2). -/
abbrev tripClear : Nat := 0x9000 * 256 + 0x05
/-- RISE_LIMIT (R464, Table 14.2). -/
abbrev riseLimit : Nat := 0x9000 * 256 + 0x06
/-- RISE_WINDOW_MS (R464, Table 14.2). -/
abbrev riseWindowMs : Nat := 0x9000 * 256 + 0x07
/-- RISE_FLOOR (R464, Table 14.2). -/
abbrev riseFloor : Nat := 0x9000 * 256 + 0x08
/-- GAIN_ABS (R464, Table 14.2). -/
abbrev gainAbs : Nat := 0x9000 * 256 + 0x09
/-- GAIN_RATE (R464, Table 14.2). -/
abbrev gainRate : Nat := 0x9000 * 256 + 0x0A
/-- HOST_MARGIN (R464, Table 14.2). -/
abbrev hostMargin : Nat := 0x9000 * 256 + 0x0B
/-- T_MAX (R464, Table 14.2). -/
abbrev tMax : Nat := 0x9000 * 256 + 0x0C
/-- T_MAX_SENSOR (R464, Table 14.2). -/
abbrev tMaxSensor : Nat := 0x9000 * 256 + 0x0D
/-- SUSPECTS (R464, Table 14.2). -/
abbrev suspects : Nat := 0x9000 * 256 + 0x0E
/-- WARN_ACTIVE (R464, Table 14.2). -/
abbrev warnActive : Nat := 0x9000 * 256 + 0x0F
/-- WARNINGS (R464, Table 14.2). -/
abbrev warnings : Nat := 0x9000 * 256 + 0x10
/-- TRIPS (R464, Table 14.2). -/
abbrev trips : Nat := 0x9000 * 256 + 0x11
/-- LAST_TRIP_SENSOR (R464, Table 14.2). -/
abbrev lastTripSensor : Nat := 0x9000 * 256 + 0x12
/-- SAMPLES (R464, Table 14.2). -/
abbrev thermSamples : Nat := 0x9000 * 256 + 0x13
/-- AREA_T (R464, Table 14.2). -/
abbrev areaT (u : Nat) : Nat := (0x9040 + u) * 256 + 0x01
/-- AREA_RATE (R464, Table 14.2). -/
abbrev areaRate (u : Nat) : Nat := (0x9040 + u) * 256 + 0x02
/-- TARGET_LEVEL (R464, Table 14.2). -/
abbrev targetLevel (u : Nat) : Nat := (0x9040 + u) * 256 + 0x03
/-- HOST_LEVEL (R464, Table 14.2). -/
abbrev hostLevel (u : Nat) : Nat := (0x9040 + u) * 256 + 0x04
/-- THROTTLE_TICKS (R464, Table 14.2). -/
abbrev throttleTicks (u : Nat) : Nat := (0x9040 + u) * 256 + 0x05
/-- RAW (R464, Table 14.2). -/
abbrev raw (u : Nat) : Nat := (0x9100 + u) * 256 + 0x01
/-- WORKING (R464, Table 14.2). -/
abbrev working (u : Nat) : Nat := (0x9100 + u) * 256 + 0x02
/-- SUSPECT (R464, Table 14.2). -/
abbrev suspect (u : Nat) : Nat := (0x9100 + u) * 256 + 0x03
/-- NEIGHBOUR_MEDIAN (R464, Table 14.2). -/
abbrev neighbourMedian (u : Nat) : Nat := (0x9100 + u) * 256 + 0x04
/-- SUSPECT_EVENTS (R464, Table 14.2). -/
abbrev suspectEvents (u : Nat) : Nat := (0x9100 + u) * 256 + 0x05
/-- RUN_COUNT (R464, Table 14.2). -/
abbrev runCount (u : Nat) : Nat := (0x9100 + u) * 256 + 0x06
/-- CAL_OFFSET (R464, Table 14.2). -/
abbrev calOffset (u : Nat) : Nat := (0x9100 + u) * 256 + 0x07
/-- SWEEP_S (R489, Table 15.10). -/
abbrev sweepS : Nat := 0xA000 * 256 + 0x01
/-- MARGIN_PS (R489, Table 15.10). -/
abbrev marginPs : Nat := 0xA000 * 256 + 0x02
/-- SWEEPS_DONE (R489, Table 15.10). -/
abbrev sweepsDone : Nat := 0xA000 * 256 + 0x03
/-- VISITS (R489, Table 15.10). -/
abbrev visits : Nat := 0xA000 * 256 + 0x04
/-- TRANSIENTS (R489, Table 15.10). -/
abbrev transients : Nat := 0xA000 * 256 + 0x05
/-- SPARES_STEERED (R489, Table 15.10). -/
abbrev sparesSteered : Nat := 0xA000 * 256 + 0x06
/-- GROUPS_EXHAUSTED (R489, Table 15.10). -/
abbrev healthGroupsExhausted : Nat := 0xA000 * 256 + 0x07
/-- TRIGGERED_VISITS (R489, Table 15.10). -/
abbrev triggeredVisits : Nat := 0xA000 * 256 + 0x08
/-- HOST_BOND_LIMIT_MS (R489, Table 15.10). -/
abbrev hostBondLimitMs : Nat := 0xA000 * 256 + 0x09
/-- HEALTH_FUSES (R489, Table 15.10). -/
abbrev healthFuses : Nat := 0xA000 * 256 + 0x0A
/-- BOND_SEAM (R489, Table 15.10). -/
abbrev bondSeam : Nat := 0xA001 * 256 + 0x01
/-- BOND_GROUP (R489, Table 15.10). -/
abbrev bondGroup : Nat := 0xA001 * 256 + 0x02
/-- BOND_CMD (R489, Table 15.10). -/
abbrev bondCmd : Nat := 0xA001 * 256 + 0x03
/-- BOND_STATUS (R489, Table 15.10). -/
abbrev bondStatus : Nat := 0xA001 * 256 + 0x04
/-- BOND_RESULT (R489, Table 15.10). -/
abbrev bondResult : Nat := 0xA001 * 256 + 0x05
/-- BOND_PENDING (R489, Table 15.10). -/
abbrev bondPending : Nat := 0xA001 * 256 + 0x06
/-- LB_STATE (R489, Table 15.10). -/
abbrev lbState (u : Nat) : Nat := (0xA010 + u) * 256 + 0x01
/-- SWEEP_MS (R489, Table 15.10). -/
abbrev sweepMs (u : Nat) : Nat := (0xA010 + u) * 256 + 0x02
/-- AUDIT_EN (R489, Table 15.10). -/
abbrev auditEn (u : Nat) : Nat := (0xA010 + u) * 256 + 0x03
/-- SWEEPS (R489, Table 15.10). -/
abbrev sweeps (u : Nat) : Nat := (0xA010 + u) * 256 + 0x04
/-- REC_CORRECTED (R489, Table 15.10). -/
abbrev recCorrected (u : Nat) : Nat := (0xA010 + u) * 256 + 0x05
/-- REC_UNCORR (R489, Table 15.10). -/
abbrev recUncorr (u : Nat) : Nat := (0xA010 + u) * 256 + 0x06
/-- SEAL_MENDS (R489, Table 15.10). -/
abbrev sealMends (u : Nat) : Nat := (0xA010 + u) * 256 + 0x07
/-- PLANE_MENDS (R489, Table 15.10). -/
abbrev planeMends (u : Nat) : Nat := (0xA010 + u) * 256 + 0x08
/-- PLANE_FAULTS (R489, Table 15.10). -/
abbrev planeFaults (u : Nat) : Nat := (0xA010 + u) * 256 + 0x09
/-- DIVERGENCES (R489, Table 15.10). -/
abbrev divergences (u : Nat) : Nat := (0xA010 + u) * 256 + 0x0A
/-- TAKEOVERS (R489, Table 15.10). -/
abbrev takeovers (u : Nat) : Nat := (0xA010 + u) * 256 + 0x0B
/-- LATCH_MENDS (R489, Table 15.10). -/
abbrev latchMends (u : Nat) : Nat := (0xA010 + u) * 256 + 0x0C
/-- PROGRESS (R489, Table 15.10). -/
abbrev progress (u : Nat) : Nat := (0xA010 + u) * 256 + 0x0D
/-- LOG_SEQ (R489, Table 15.10). -/
abbrev logSeq : Nat := 0xA020 * 256 + 0x01
/-- LOG_LOST (R489, Table 15.10). -/
abbrev logLost : Nat := 0xA020 * 256 + 0x02
/-- LOG_CURSOR (R489, Table 15.10). -/
abbrev logCursor : Nat := 0xA020 * 256 + 0x03
/-- LOG_WINDOW (R489, Table 15.10). -/
abbrev logWindow : Nat := 0xA020 * 256 + 0x04
/-- LOG_MIN_SEVERITY (R489, Table 15.10). -/
abbrev logMinSeverity : Nat := 0xA020 * 256 + 0x05
/-- LOG_COALESCE_MS (R489, Table 15.10). -/
abbrev logCoalesceMs : Nat := 0xA020 * 256 + 0x06
/-- LOG_CLEAR (R489, Table 15.10). -/
abbrev logClear : Nat := 0xA020 * 256 + 0x07
/-- LEDGER_LIMIT_US (R489, Table 15.10). -/
abbrev ledgerLimitUs : Nat := 0xA030 * 256 + 0x01
/-- LEDGER_SEL (R489, Table 15.10). -/
abbrev ledgerSel : Nat := 0xA030 * 256 + 0x02
/-- LEDGER_VIEW (R489, Table 15.10). -/
abbrev ledgerView : Nat := 0xA030 * 256 + 0x03
/-- LEDGER_TIMEOUTS (R489, Table 15.10). -/
abbrev ledgerTimeouts : Nat := 0xA030 * 256 + 0x04
/-- LEDGER_REPORTS (R489, Table 15.10). -/
abbrev ledgerReports : Nat := 0xA030 * 256 + 0x05
/-- FW_SWITCH (R489, Table 15.10). -/
abbrev fwSwitch : Nat := 0xA040 * 256 + 0x01
/-- FW_SWITCH_STATUS (R489, Table 15.10). -/
abbrev fwSwitchStatus : Nat := 0xA040 * 256 + 0x02
/-- STEWARDS_UP (R489, Table 15.10). -/
abbrev stewardsUp : Nat := 0xA040 * 256 + 0x03
/-- HANDOVERS (R489, Table 15.10). -/
abbrev handovers : Nat := 0xA040 * 256 + 0x04

end Sys2Proof.Machine.Reg
end

