-- ==== Sys2Proof/Machine/SMap.lean ====
section
/-! DEFINITION. Sparse stores keyed by a number: a list of key and value pairs in one canonical form, keys strictly
rising and no entry equal to what an unlisted key reads as. Memory, the register file, the context stores and the
ledgers of the model are such lists, so equal contents are equal data. -/

namespace Sys2Proof.Machine

/-- A sparse store: key and value pairs, keys strictly rising. -/
abbrev SMap (α : Type) := List (Nat × α)

/-- What the store holds at key `k`; an unlisted key reads as `d k`. -/
def SMap.get {α : Type} (d : Nat → α) : SMap α → Nat → α
  | [], k => d k
  | (k', v) :: m, k => if k' = k then v else SMap.get d m k

/-- The store without key `k`. -/
def SMap.drop {α : Type} (m : SMap α) (k : Nat) : SMap α := m.filter (fun p => !(p.1 == k))

/-- Insertion of a pair before the first greater key. -/
def SMap.ins {α : Type} : SMap α → Nat → α → SMap α
  | [], k, v => [(k, v)]
  | (k', v') :: m, k, v => if k < k' then (k, v) :: (k', v') :: m else (k', v') :: SMap.ins m k v

/-- The store with `v` at key `k`; writing what an unlisted key reads as removes the entry. -/
def SMap.set {α : Type} [DecidableEq α] (d : Nat → α) (m : SMap α) (k : Nat) (v : α) : SMap α :=
  if v = d k then SMap.drop m k else SMap.ins (SMap.drop m k) k v

/-- What a store of plain values holds at a key: an unlisted key reads as the type's zero. -/
def SMap.look {α : Type} [Inhabited α] (m : SMap α) (k : Nat) : α := m.get (fun _ => default) k

/-- The store of plain values with `v` at a key. -/
def SMap.put {α : Type} [Inhabited α] [DecidableEq α] (m : SMap α) (k : Nat) (v : α) : SMap α :=
  m.set (fun _ => default) k v

/-- The canonical form: keys strictly rising, no listed value equal to what the key would read as unlisted. -/
def SMap.wf {α : Type} [DecidableEq α] (d : Nat → α) : SMap α → Bool
  | [] => true
  | (k, v) :: m => decide (v ≠ d k) && m.all (fun p => decide (k < p.1)) && SMap.wf d m

/-- The entries whose key satisfies `p`. -/
def SMap.keep {α : Type} (p : Nat → Bool) (m : SMap α) : SMap α := m.filter (fun e => p e.1)

/-- The listed keys. -/
def SMap.keys {α : Type} (m : SMap α) : List Nat := m.map (·.1)

end Sys2Proof.Machine
end

