-- ==== Sys2Proof/Machine/State.lean ====
section
/-! DEFINITION. The state of the block: every register, queue, buffer, counter, mode and pin the spec gives it, as plain
data, and the queue of waiting commands. Each structure's field defaults are the values after power-on reset (R10,
R443), so that the block after power-on reset is the structure with every field at its default. -/

namespace Sys2Proof.Machine

open Sys2Proof

/-- A stopping reason of a command. The spec lets no command stop the device, so there is none. -/
inductive Fault where
  deriving DecidableEq, Repr

/-- A refusal to run a command. -/
inductive Refusal where
  /-- Raised by a dispatch arm whose command has no meaning yet. Safe: the machine stops. -/
  | notModelled (mnemonic : String)
  deriving DecidableEq, Repr

/-- What the block sends outside (model's own record of it, newest first): the kind, the unit it leaves by, and its
words. The spec's outputs are pins and links; the block never reads this list. -/
inductive OutKind where
  /-- An MSI-X message (R399): unit is the vector. -/
  | msix
  /-- A CAN frame (R402): unit is the port; identifier, then bytes. -/
  | can
  /-- A flit or packet entering an on-die network: unit is the initiator; network, class, words. -/
  | flit
  /-- A container on a link (R317): unit is the link index; the 576 bits. -/
  | container
  /-- A control block on a link (R320): unit is the link index; the 128 bits. -/
  | control
  /-- A lane signal outside its code: unit is the lane; 0 electrical idle, 2 and a burst's bits (R302), 3, the pattern and the bits of a
  pattern test (R308). -/
  | lane
  /-- A codeword on a lane (R283): unit is the lane; its 544 symbols, first symbol first. -/
  | line
  /-- The outcome of a register command: the abort code, 0 for done. -/
  | result
  /-- A completion to an accessor (R19): status, then data. -/
  | completion
  /-- A completion of the PCIe endpoint to the host (R400): unit is the tag; the completion status, the poisoned-TLP bit, and the data. -/
  | pcie
  /-- A message of the stewards to their own node (R414): unit is the node; command and fields. -/
  | node
  /-- A byte or word of a configuration port (R362): unit is the port. -/
  | port
  /-- The level of a control pin: unit is the pin. -/
  | pin
  deriving DecidableEq, Repr

/-- One item sent outside. -/
structure Output where
  kind : OutKind
  unit : Nat
  words : List Nat
  deriving DecidableEq, Repr

/-- An event log entry (Table 15.4). -/
structure LogEntry where
  time : Nat
  seq : Nat
  code : Nat
  srcKind : Nat
  srcNum : Nat
  severity : Nat
  rep : Nat
  data : Nat
  deriving DecidableEq, Repr

/-- States of a ledger entry (Table 15.7). -/
inductive LedgerState where
  | free | opened | closed
  deriving DecidableEq, Repr

/-- A ledger entry (Table 15.7). `limit` is LEDGER_LIMIT_US in force when it opened (R484), `openAt` the run time at
which it opened, and `fenced` marks a path fenced under the entry. -/
structure LedgerEntry where
  state : LedgerState := .free
  openTime : Nat := 0
  addr : Nat := 0
  node : Nat := 0
  dstStn : Nat := 0
  dstPort : Nat := 0
  op : Nat := 0
  status : Nat := 0
  beatsReq : Nat := 0
  beatsDone : Nat := 0
  limit : Nat := 0
  openAt : Nat := 0
  deriving DecidableEq, Repr

/-- Identity and fuses (R368, R443, R472): kept for the life of the device. -/
structure Fuses where
  grade : Nat := 1
  serial : Nat := 0
  /-- DIE_STEP of each layer. -/
  dieStep : List Nat := [0, 0, 0, 0, 0, 0, 0]
  /-- Owner digests; `none` where the slot is unprogrammed. -/
  owner : List (Option Nat) := [none, none, none, none]
  revoked : Nat := 0
  rollback : Nat := 0
  /-- The image key fuses, once set. -/
  imageKey : Option Nat := none
  /-- Blown bits of MGMT_PATHS. -/
  mgmtPaths : Nat := 0
  /-- The device's private unwrapping and identity secrets are not readable; the public key and certificate are. -/
  idPub : Nat := 0
  cert : List Byte := []
  /-- Health fuses of Table 15.2, in table order, each from its bit 0. -/
  health : Nat := 0
  /-- CAL_OFFSET of each sensor, two's complement. -/
  calOffset : SMap Nat := []
  deriving DecidableEq, Repr

/-- The device's power and reset mode (R434, R441, R442). -/
inductive PowerMode where
  /-- PORn held low. -/
  | por
  /-- Device reset in force, waiting for its release. -/
  | deviceReset
  | run
  | hibernate
  deriving DecidableEq, Repr

/-- A stop in force (R437 to R440). -/
structure Stop where
  /-- The causes present, one bit per LAST_STOP_CAUSE code. -/
  present : Nat
  /-- Time at which the stop was declared. -/
  since : Nat
  /-- Time of the last declaration. -/
  last : Nat
  /-- A rail fell below its retention level during the stop. -/
  retentionLost : Bool
  deriving DecidableEq, Repr

/-- Steps of a die-level reset (Table 13.9). -/
inductive DieResetStep where
  | draining | held | released | ready
  deriving DecidableEq, Repr

/-- A die-level reset in progress (R444). -/
structure DieReset where
  layer : Nat
  step : DieResetStep
  /-- Run time at which the fence was raised, and that of the last step since. -/
  fenceAt : Nat
  stepAt : Nat
  /-- Slots whose load, clear or copy the reset ended: region, slot position and slot, cleared once the die is ready. -/
  targets : List (Nat × Nat × Nat) := []
  deriving DecidableEq, Repr

/-- Clocks, stops, resets and Hibernate. Times are in root periods of the always-on time base. -/
structure Clk where
  mode : PowerMode := .por
  /-- The always-on time base, in root periods since the release of PORn (R423). -/
  now : Nat := 0
  /-- Time for which REFCLK was absent, when the counters held (R423). -/
  lost : Nat := 0
  /-- Time for which the clocked domains were stopped, when no limit advanced (R439). -/
  stopped : Nat := 0
  stop : Option Stop := none
  /-- A device reset accepted and the time at which it takes effect, with its cause (R442). -/
  resetDue : Option (Nat × Nat) := none
  /-- Time at which a device reset in force may be released; `none` while RSTn holds it. -/
  releaseAt : Option Nat := none
  /-- The reset cause in force (R442). -/
  resetCause : Nat := 0
  /-- Whether the fabric clock runs, its origin (R424), and the divider in force. -/
  fabricOn : Bool := false
  fabricOrigin : Nat := 0
  fabricDiv : Nat := 24
  /-- The skip window last entered, with the level in force in each region (R426), and the soft start level. -/
  window : Nat := 0
  level : SMap Nat := []
  softLevel : Nat := 0
  /-- The last fabric edge taken. -/
  lastEdge : Option Nat := none
  /-- FABRIC_DIV waiting for its cricket tick (R420). -/
  divDue : Option (Nat × Nat) := none
  /-- AUXCLK settings in force: divider, ppm, kHz (R422), and those waiting for their tick. -/
  aux : Nat × Nat × Nat := (288, 0, 33)
  auxDue : Option (Nat × Nat × Nat × Nat) := none
  dieReset : Option DieReset := none
  /-- The last cricket tick at which per-tick work was done. -/
  lastTick : Nat := 0
  /-- Entry into Hibernate has begun and waits for regions that may not enter Sleep yet (R89, R434). -/
  hibernating : Bool := false
  deriving DecidableEq, Repr

/-- Slot states (Table 3.2). -/
inductive SlotState where
  | empty | loading | loaded | damaged
  deriving DecidableEq, Repr

/-- The code of a slot state. -/
def SlotState.code : SlotState → Nat
  | .empty => 0 | .loading => 1 | .loaded => 2 | .damaged => 3

/-- A slot descriptor (Table 3.1) without PIN, which mirrors PIN_MASK (R98), and PLANE, which follows ACTIVE_SLOT and
SHADOW_SLOT. -/
structure SlotDesc where
  borderSig : Nat := 0
  lastIn : Nat := 0
  uncorr : Nat := 0
  image : Nat := 0
  kernel : Nat := 0
  gen : Nat := 0
  dirty : Bool := false
  state : SlotState := .empty
  deriving DecidableEq, Repr

/-- The kinds of context operation that the configuration die serves in order (R88). -/
inductive CtxKind where
  | load | prefetch | clear | copy
  deriving DecidableEq, Repr

/-- A context operation: its target and source, and who asked for it. -/
structure CtxOp where
  kind : CtxKind
  who : Who
  /-- Logical region commanded, and the physical slot position 136·die + position that it had. -/
  region : Nat
  phys : Nat
  slot : Nat
  src : Nat := 0
  kernel : Nat := 0
  image : Nat := 0
  sig : Nat := 0
  map : Nat := 0
  /-- Source of a copy: logical region for a commanded copy, physical slot position for a relocation (R241). -/
  fromUnit : Nat := 0
  fromSlot : Nat := 0
  /-- The physical slot position of the source of a copy that has passed its checks (R84). -/
  fromPhys : Nat := 0
  /-- It has passed its checks and Table 3.6 (R87), and its place in the order of visibility (R79). -/
  passed : Bool := false
  /-- The status with which it ends in its turn, where it has been refused (R87). -/
  ending : Option Nat := none
  seq : Nat := 0
  deriving DecidableEq, Repr

/-- A pending switch of one span (R72): every region switches at one edge; `run` is the run it serves. -/
structure SwitchReq where
  regions : List Nat
  who : Who
  run : Option Nat
  /-- The whole set of a run that starts with this switch; empty for any other switch. -/
  starts : List Nat := []
  deriving DecidableEq, Repr

/-- The context store, the planes and the operations on them. Physical slot position `p` is 136·die + position. -/
structure Ctx where
  /-- Records of context slot `16·p + slot`, by cell index; an unlisted record is blank (R54). -/
  store : SMap (SMap Nat) := []
  desc : SMap SlotDesc := []
  /-- Border map of context slot `16·p + slot` (R113), and the slots whose map holds an uncorrectable word (R114). -/
  maps : SMap Nat := []
  mapBad : List Nat := []
  /-- Planes of physical slot `p`, by cell index (R62). -/
  active : SMap (SMap Nat) := []
  shadow : SMap (SMap Nat) := []
  /-- Operations of physical slot `p` in the order they became visible, still to be served (R88). -/
  waiting : SMap (List CtxOp) := []
  /-- The operations queued for an engine of a die, each the head of its region's order, in order of visibility (R79), and the
  number of operations that have become visible. -/
  opSeq : Nat := 0
  engineQueue : SMap (List CtxOp) := []
  /-- Loads, clears and copies holding an engine of a die (R79). -/
  running : SMap (List CtxOp) := []
  /-- The prefetch in progress of physical slot `p` (R66). -/
  prefetch : SMap (Option CtxOp) := []
  switches : List SwitchReq := []
  /-- The context slot whose state is being written back, of physical slot `p` (R75). -/
  writeBack : SMap (Option Nat) := []
  /-- Captures: pending of region r; taken and travelling to the buffer: slot, time and bits (R91, R94). -/
  captureDue : SMap Bool := []
  captureTaken : SMap (Option (Nat × Nat × Nat)) := []
  /-- Context slots with a record skipped by write-back, whose newest state only the shadow plane holds, and those whose
  state was so lost (R77). -/
  skipped : SMap Bool := []
  lost : SMap Bool := []
  /-- Run time at which a record of a context slot was last skipped by a write-back (R202). -/
  skipAt : SMap Nat := []
  /-- The first failure of what a scarab ordered for region r: 16 times the kind plus the status, 0 for none (R526). -/
  opStatus : SMap Nat := []
  deriving DecidableEq, Repr

/-- Use of a physical slot (Table 4.2). -/
inductive SlotUse where
  | used | spare | retired
  deriving DecidableEq, Repr

/-- The use of a physical slot after power-on reset: column 16 is spare (R102, R103). -/
def SlotUse.default (p : Nat) : SlotUse := if (p % 136) % 17 = 16 then .spare else .used

/-- A memory tag of a region bridge (R120): whether it is open, and the completion waiting to be presented. -/
structure Tag where
  isOpen : Bool := false
  /-- Status and data of a completion held in the bridge, not yet presented. -/
  done : Option (Nat × Nat) := none
  write : Bool := false
  /-- Clock count of the edge at which its completion was presented: it may be used again from the next one (R120). -/
  shown : Option Nat := none
  /-- Final translated address, for completions that travel over the networks. -/
  addr : Nat := 0
  deriving DecidableEq, Repr

/-- A stream-in packet in delivery to a region (R122): its sideband, its stream beats, whether one of its DAT beats carries poison,
and the stream beats that have passed. -/
structure InPacket where
  sb : Nat
  beats : List Nat
  poison : Bool
  taken : Nat := 0
  deriving DecidableEq, Repr

/-- Region bridges, elytra and region power. -/
structure Rgn where
  slotUse : SMap SlotUse := []
  /-- Positions whose TWIN_OK is 0 (R103). -/
  twinLost : List Nat := []
  /-- Memory tags: tag of region r at key 64·r + tag. -/
  tags : SMap Tag := []
  /-- BF port wires driven to the design and FB port wires sampled at the last edge (Tables 4.7, 4.8). -/
  bf : SMap Nat := []
  fb : SMap Nat := []
  /-- Clock count of the last edge of the region's clock, held or not (R119). -/
  edgeAt : SMap (Option Nat) := []
  /-- Memory requests that have passed at the bridge and are not yet carried out, as the FB words that carried them, oldest first
  (R119, R120). -/
  passed : SMap (List Nat) := []
  /-- The stream-out packet partly taken, its beats in order, and the packet whose last beat has come: channel and beats (R121,
  R123). -/
  outPart : SMap (List Nat) := []
  outDone : SMap (Option (Nat × List Nat)) := []
  /-- The stream-in packet in delivery (R122). -/
  inPacket : SMap (Option InPacket) := []
  /-- What an object of a retired region reads as: the value it held at retirement, by key (R99, R128, R167, R274). -/
  kept : SMap (Option Nat) := []
  /-- SWITCH_PENDING of each region (R123). -/
  pendingFlag : SMap Bool := []
  /-- A DONE_VALID presented while the riser is fenced (R448). -/
  doneHeld : SMap (Option Nat) := []
  /-- Time since which the region has held no run (R126); `none` while it holds one. -/
  idleSince : SMap (Option Nat) := []
  /-- Border closing after a switch, a reset or the start: edges left and the mask of borders kept (R115). -/
  closing : SMap (Nat × Nat) := []
  /-- HOLD values of the input wires of border q of region r at key 8·r + q: west, east, south, north, twin (R110). -/
  hold : SMap Nat := []
  /-- Map fault of the active context (R114). -/
  mapFault : SMap Bool := []
  /-- Integrity events already raised for the active plane, per region (R45). -/
  raised : SMap (List Nat) := []
  /-- Region reset waiting for its edge (R38). -/
  resetDue : SMap Bool := []
  /-- The last edge at which a reset took effect, and the last at which the flip-flops were held for a switch or a
  capture (R69, R74, R91). -/
  resetAt : SMap (Option Nat) := []
  heldEdge : SMap (Option Nat) := []
  /-- The last edge at which they were held for a capture: its capture edge (R91, R93). -/
  frozenEdge : SMap (Option Nat) := []
  /-- The last switch edge (R69). -/
  switchAt : SMap (Option Nat) := []
  /-- A wake granted and under way: the state left (R428). -/
  regionWake : SMap (Option Nat) := []
  /-- Regions held at skip level 64 for good (R469). -/
  heldOut : List Nat := []
  /-- Slots to be retired whose elytra are closed for good, their clocks running on (R106, R117). -/
  shut : List Nat := []
  deriving DecidableEq, Repr

/-- A translation buffer entry (R142): the run and page it is tagged with, the map address it was read from, and the
page map entry. -/
structure TbEntry where
  run : Nat
  page : Nat
  mapAddr : Nat
  entry : Nat
  deriving DecidableEq, Repr

/-- A memory request made with a translated entry and not yet performed at its bank (R143): region, tag, map address. -/
structure UsedEntry where
  region : Nat
  tag : Nat
  mapAddr : Nat
  /-- The entry's value, of a request that waits for a wipe at its bank (R143, R155). -/
  entry : Option Nat := none
  deriving DecidableEq, Repr

/-- A DMA request that is open: its tag, whether it is a write, and the first line and line count within the transfer
that it carries. -/
structure DmaReq where
  tag : Nat
  write : Bool
  first : Nat
  lines : Nat
  deriving DecidableEq, Repr

/-- The descriptor a DMA channel is working on (R171, R172). -/
structure DmaJob where
  index : Nat
  desc : Nat
  /-- DMA_RING_BASE when the descriptor was taken: where it is written back (R173). -/
  ring : Nat
  /-- Next source line and destination line to issue, counted from the first line of each. -/
  nextRead : Nat := 0
  nextWrite : Nat := 0
  open_ : List DmaReq := []
  /-- Source lines read, by line number from the first: their data, and which have come. -/
  got : SMap Nat := []
  gotLines : List Nat := []
  /-- Destination lines committed, as a list of line numbers. -/
  committed : List Nat := []
  /-- The statuses that stopped the transfer, each with its time; nothing further is issued once one is present (R172). -/
  stopped : List (Nat × Nat) := []
  deriving DecidableEq, Repr

/-- A DMA channel's doorbell page and work (R169, Table 5.11). -/
structure Dma where
  cons : Nat := 0
  prodRd : Nat := 0
  refused : Bool := false
  dbCount : Nat := 0
  job : Option DmaJob := none
  deriving DecidableEq, Repr

/-- Stacked memory, library memory, ports and DMA. -/
structure Mem where
  /-- The data arrays: the DT79 column word of word w (local offset div 8) is bytes 10·w to 10·w + 9 (R144). An
  unlisted byte reads 0. -/
  cells : List Host.Cell := []
  /-- The line state array: line (local offset div 64), three copies of VALID at bit 2·k and POISON at 2·k + 1 (R150). -/
  lines : SMap Nat := []
  /-- Distinct lines in which position j of bank b was corrected, at key 80·b + j (R162). -/
  posLines : SMap (List Nat) := []
  /-- Run time at which a bank became DRAINING (R164). -/
  drainSince : SMap (Option Nat) := []
  /-- Port caches: set of the port of physical slot p at key 128·p + set, most recent first: line, data (R136). -/
  caches : SMap (List (Nat × Nat)) := []
  /-- Translation buffers, by physical slot (R142). -/
  tb : SMap (List TbEntry) := []
  used : List UsedEntry := []
  /-- Wipe in progress: whether of a frame, and the bank or frame (R155, R156). -/
  wipe : Option (Bool × Nat) := none
  /-- Whether an access of an engine has met a wipe in the step under way: the engine waits (R155). -/
  stalled : Bool := false
  /-- Trace records that wait for a wipe: scarab, local offset, and the record's 16 bytes (R155, R215). -/
  postponed : List (Nat × Nat × Nat) := []
  dma : SMap Dma := []
  deriving DecidableEq, Repr

/-- Run states (Table 6.4). -/
inductive RState where
  | free | delayed | ready | starting | running | switching | preempting | preempted | ending
  deriving DecidableEq, Repr

/-- The code of a run state. -/
def RState.code : RState → Nat
  | .free => 0 | .delayed => 1 | .ready => 2 | .starting => 3 | .running => 4 | .switching => 5 | .preempting => 6
  | .preempted => 7 | .ending => 8

/-- A run table entry (Table 6.3): the host's descriptor word and the scarabs' fields, and what the scarabs keep for the
run while it is placed. -/
structure Run where
  desc : Nat := 0
  /-- A boot run (R376). -/
  boot : Bool := false
  state : RState := .free
  enqTime : Nat := 0
  startTime : Nat := 0
  /-- Time active in regions, in root periods, up to `activeFrom` (ACTIVE_US is its value in microseconds). -/
  active : Nat := 0
  anchor : Nat := 0xFF
  home : Nat := 0
  phase : Nat := 0
  preempts : Nat := 0
  lastStatus : Nat := 0
  restarts : Nat := 0
  ring : Nat := 0
  /-- Intake order, for the delay list (R191). -/
  order : Nat := 0
  /-- Run time at which it entered its list (R197, R207), and, for IX2, at which its wait began (R216). -/
  listedAt : Nat := 0
  waitFrom : Nat := 0
  /-- The regions of its set, in span order, with the slot each is to run, and the slots it holds (R181). -/
  set : List Nat := []
  slots : List Nat := []
  /-- GEN of each of `slots` when the run switched it in (R202). -/
  gens : List Nat := []
  held : List (Nat × Nat) := []
  /-- Slots and number of the phase it is switching to (R204); empty while it waits for a replaceable slot. -/
  nextSlots : List Nat := []
  nextPhase : Nat := 0
  /-- Whether it has started since it was last a new run: a resumption gives no START_VALID (R124). -/
  started : Bool := false
  /-- Times at which it last switched in and since which it has been active, in run time. -/
  switchedAt : Nat := 0
  activeFrom : Nat := 0
  /-- Run time at which SWITCH_PENDING was raised for a preemption or a yield (R201), and who preempts. -/
  pendingFrom : Nat := 0
  preemptor : Option Nat := none
  /-- It asked to yield (R203), or the host preempted it (R214): then it goes to the tail or the head of its list. -/
  yielded : Bool := false
  hostPreempt : Bool := false
  /-- The rule under which its start was chosen (DETAIL of its DISPATCH record). -/
  rule : Nat := 0
  loads : Nat := 0
  /-- Final status and result once known to be coming: DONE_WORD or abort. -/
  done : Option (Nat × Nat) := none
  poisoned : Bool := false
  /-- The status of an attempt that retirement or a fence ends, while its set drains (R209, R447). -/
  retiring : Option Nat := none
  endTime : Nat := 0
  /-- Failures in succession of its start, resumption or phase change (R526). -/
  fails : Nat := 0
  /-- Its contexts are being staged for a preemption, while it stays at the head of its list (R200, step 1). -/
  staging : Bool := false
  /-- Run time before which a cancelled preemption may not be tried again (R201). -/
  notBeforePreempt : Nat := 0
  stalled : Bool := false
  /-- Its state in a context slot it holds has been discarded (R77). -/
  stateLost : Bool := false
  /-- Anchor of its last start edge, 0xFF before the first (R187). -/
  lastAnchor : Nat := 0xFF
  deriving DecidableEq, Repr

/-- What a scarab's kernel cache holds of one kernel, item by item (R179). -/
structure KernelItem where
  kernel : Nat
  desc : Option Nat := none
  assign : SMap (Option Nat) := []
  images : SMap (Option Nat) := []
  deriving DecidableEq, Repr

/-- A scarab (R191, R215). -/
structure Scarab where
  /-- Ready lists by priority, head first. -/
  ready : SMap (List Nat) := []
  delay : List Nat := []
  trace : List Nat := []
  traceLost : Nat := 0
  streamed : Nat := 0
  cache : List KernelItem := []
  deriving DecidableEq, Repr

/-- A ring pair's doorbell page (Table 6.5). -/
structure Ring where
  prod : Nat := 0
  cons : Nat := 0
  dbRefused : Bool := false
  dbCount : Nat := 0
  cqProd : Nat := 0
  cqCons : Nat := 0
  cqRefused : Bool := false
  cqCount : Nat := 0
  lap : Bool := true
  deriving DecidableEq, Repr

/-- A reservation (R197): the run and the regions it covers. -/
structure Reservation where
  run : Nat
  set : List Nat
  deriving DecidableEq, Repr

/-- The host's placement command in progress (R214). -/
structure HCmd where
  kind : Nat
  run : Nat
  target : Nat
  /-- Run time at which it was accepted. -/
  since : Nat
  deriving DecidableEq, Repr

/-- Dispatch. -/
structure Disp where
  runs : SMap Run := []
  /-- Runs in the order of intake, counted. -/
  intakes : Nat := 0
  rings : SMap Ring := []
  /-- Rings whose intake is paused for want of a run table entry (R186). -/
  paused : List Nat := []
  scarabs : SMap Scarab := []
  /-- Last set of each kernel: its anchor plus one, 0 for none (R190). -/
  lastSet : SMap Nat := []
  /-- Regions whose active plane is marked as not resident (R179). -/
  stale : SMap Bool := []
  /-- The run a region is claimed for while it is starting. -/
  claim : SMap (Option Nat) := []
  reserved : List Reservation := []
  /-- The last round of a thief: the clock count of its tick, plus one, and the scarab (R207). -/
  round : Nat × Nat := (0, 0)
  /-- Scarabs returning to RUNNING, with the tick at which they do (R212): the clock count plus one, 0 for none. -/
  restartDue : SMap Nat := []
  /-- Scarabs back in RUNNING whose work their deputy still does, until its next evaluation (R212). -/
  returning : SMap (Option Nat) := []
  proposals : List Nat := []
  hcmd : Option HCmd := none
  /-- IX2 counters: the last waits of runs anchored at a region, and the intervals in which it held a run. -/
  waits : SMap (List Nat) := []
  heldFrom : SMap (Option Nat) := []
  heldPast : SMap (List (Nat × Nat)) := []
  deriving DecidableEq, Repr

/-- A heat record (Table 7.1), with the kernel and the page of its latest sample (Table 7.5). -/
structure Heat where
  entry : Nat := 0
  la : Nat := 0
  lb : Nat := 0
  last : Nat := 0
  kernel : Nat := 0
  page : Nat := 0
  deriving DecidableEq, Repr

/-- A sample that waits in its port for delivery (R220). -/
structure Sample where
  region : Nat
  home : Nat
  entry : Nat
  kernel : Nat
  page : Nat
  deriving DecidableEq, Repr

/-- Why a migration runs (MSLOT_REASON). -/
inductive MigReason where
  | hot | drain | host
  deriving DecidableEq, Repr

/-- The code of a reason. -/
def MigReason.code : MigReason → Nat
  | .hot => 0 | .drain => 1 | .host => 2

/-- A migration that is ready and waits for a slot (R224): the entry's local offset and the value read. `frame` is a
frame the host named. -/
structure MigReady where
  scarab : Nat
  reason : MigReason
  entry : Nat
  value : Nat
  node : Nat
  die : Nat
  frame : Option Nat := none
  /-- The bank whose drain asks for it, and the heat record it came from. -/
  bank : Nat := 0
  heat : Nat := 0
  deriving DecidableEq, Repr

/-- A copy access over the networks that a migration has open: its ledger tag, whether it is the write of a line block,
and the block's first line and length. -/
structure MigOpen where
  tag : Nat
  write : Bool
  first : Nat
  lines : Nat
  /-- Lines of a write that carry data: a line not valid at S is not written (R229). -/
  written : Nat := 0
  deriving DecidableEq, Repr

/-- What a migration slot keeps beside its registers (R228): the value CLAIM wrote, the limits in force when CLAIM
completed (R244), the tracker, the chunks last taken, and the line blocks still to be copied over the networks. -/
structure MigJob where
  ready : MigReady
  value : Nat
  finalChunks : Nat := 0
  maxRounds : Nat := 0
  limitUs : Nat := 0
  since : Nat := 0
  tracker : Option Nat := none
  /-- Chunks marked at the last take that are still to be copied; `taken` once the bitmap has come. -/
  chunks : Nat := 0
  taken : Bool := false
  /-- The take under way asks a tracker of another node for its count (R228); `carry` is the chunks of such a take that FINAL has
  still to copy. -/
  asking : Bool := false
  carry : Nat := 0
  /-- The FINAL take has been performed at the tracker (R236). -/
  finalTaken : Bool := false
  fenced : Bool := false
  todo : List (Nat × Nat) := []
  copies : List MigOpen := []
  /-- Message of its SNP command whose answers are awaited, and the statuses that stop it. -/
  msg : Option Nat := none
  failed : List Nat := []
  /-- The status of a migration that is being abandoned, and when it was (R233). -/
  ending : Option Nat := none
  endingAt : Nat := 0
  /-- The part of RELEASE or ABANDON under way: the tracker's, the frame's (R228). -/
  part : Nat := 0
  /-- Lines of S as they were at the FINAL take, where a stray write has changed them since (R236): line, data, VALID and POISON. -/
  kept : List (Nat × Nat × Bool × Bool) := []
  deriving DecidableEq, Repr

/-- A tracker of a memory die (R229): the frame it watches, its dirty bitmap, and the node that armed it. -/
structure Tracker where
  frame : Nat
  bits : Nat := 0
  node : Nat := 0
  deriving DecidableEq, Repr

/-- Sampling, heat, the frame pool and the migrations (chapter 7). -/
structure Mig where
  /-- Heat record i of scarab k at key 512·k + i. -/
  heat : SMap Heat := []
  samples : List Sample := []
  /-- Requests counted since the last sample of a region, since its last switch-in (R220). -/
  counted : SMap Nat := []
  pool : List Nat := []
  /-- An epoch has ended whose evaluation waits for a wipe (R155, R222). -/
  epochOwed : Bool := false
  /-- The frame of a POOL_CMD add in progress (R225). -/
  adding : Option Nat := none
  ready : List MigReady := []
  jobs : SMap (Option MigJob) := []
  /-- Tracker q of memory die d at key 16·d + q. -/
  trackers : SMap (Option Tracker) := []
  /-- Page map entry addresses fenced at every port, refills of which wait (R230). -/
  fenced : List Nat := []
  /-- Tracker requests that wait for a free tracker: the header and the frame (Table 7.2, step 2). -/
  armWait : List (Nat × Nat) := []
  /-- The host's command that waits for a FRAME_GRANT of another node (R237, R239). -/
  hostWait : Option MigReady := none
  /-- Frames of another node that were granted in place of the one the host named, to be released: scarab, node, frame (R239). -/
  hostHeld : List (Nat × Nat × Nat) := []
  proposals : List Nat := []
  /-- Values of 0x6300.02 to .09 in force (R244): a write takes effect at the next epoch end. -/
  inForce : List Nat := [6, 1000, 256, 2, 100, 16, 4, 1000]
  /-- Banks for which the scan in progress has logged POOL_EMPTY. -/
  poolEmpty : List Nat := []
  /-- Banks whose last complete scan found no entry (R164, R240). -/
  scanClean : List Nat := []
  deriving DecidableEq, Repr

/-- A packet under way whose latency is measured (R272): network, initiator and tag, and the time of injection. -/
structure Flight where
  net : Nat
  ini : Nat
  tag : Nat
  since : Nat
  deriving DecidableEq, Repr

/-- An SNP command whose acknowledgements are awaited (R259): sender, MSG_ID, how many are still to come and the statuses
received. -/
structure SnpOp where
  ini : Nat
  msg : Nat
  left : Nat
  statuses : List Nat := []
  deriving DecidableEq, Repr

/-- A shootdown or fence that a tap still has to acknowledge (R143, R230): the command's header, the map address, and the
tap, 16·die + tap. -/
structure TapAck where
  hdr : Nat
  entry : Nat
  tap : Nat
  deriving DecidableEq, Repr

/-- A refill or request that waits at a region's port: for the lift of a migration fence (R230) or the end of a wipe
(R155). -/
structure HeldReq where
  region : Nat
  tag : Nat
  write : Bool
  line : Nat
  mask : Nat
  data : Nat
  deriving DecidableEq, Repr

/-- A flit or beat in a station's input buffer (R264): its packet, flow number, destination and length; the cycle from which it may
leave, and the sides or ports that it still has to leave by. -/
structure NocUnit where
  pkt : Nat
  flow : Nat
  dst : Nat
  port : Nat
  units : Nat
  last : Bool
  ready : Nat
  todo : List Nat
  deriving DecidableEq, Repr

/-- A packet that has been sent and has not arrived: its network, its class, the station and the port it was sent from, its flit, header
or shared sideband, and the cycle at which its last unit reaches its port. -/
structure NocPacket where
  id : Nat
  net : Nat
  cls : Nat
  stn : Nat
  port : Nat
  word : Nat
  units : Nat
  /-- Units that have not entered yet: a packet that a link is still receiving (R332). -/
  more : Nat := 0
  doneAt : Nat := 0
  deriving DecidableEq, Repr

/-- The stations of the four networks as they stood at a network cycle (R253, R264): input buffers, credits in use and on their way
back, the packet that a link out carries in a class, the input served last, the class carried last, egress buffers, and the cycles in
which a flit waited for a credit; and what each station counts (R271, Table 8.17). -/
structure Noc where
  cycle : Nat := 0
  next : Nat := 0
  pkts : List NocPacket := []
  bufs : SMap (List NocUnit) := []
  used : SMap Nat := []
  back : List (Nat × Nat) := []
  busy : SMap (Option Nat) := []
  turn : SMap Nat := []
  mix : SMap Nat := []
  egress : SMap Nat := []
  stalls : SMap Nat := []
  /-- Flits and beats forwarded by station s on network n, at key 4·s + n. -/
  passed : SMap Nat := []
  /-- The cycle, plus one, at which a station's inputs or outputs last carried anything; the stations that are gated, and their wakes. -/
  last : SMap Nat := []
  gated : List Nat := []
  wakes : SMap Nat := []
  deriving DecidableEq, Repr

/-- A transaction of an access that waits at its initiator for a tag (R255): its SIZE and LEN, and the beats of a write. -/
structure Unsent where
  ini : Nat
  node : Nat
  addr : Nat
  write : Bool
  size : Nat
  len : Nat
  beats : List Beat
  deriving DecidableEq, Repr

/-- An access at a tap that waits: its REQ flit, the beats of its data, and the headers of the writes before it, by its SRC to its
lines, whose data had not come when it came (R134). -/
structure Waiting where
  flit : Nat
  beats : List Beat
  after : List Nat := []
  deriving DecidableEq, Repr

/-- The networks' stations and the destinations' pairing of headers with data. -/
structure Net where
  noc : Noc := {}
  /-- Transactions that wait for a tag of their initiator, oldest first. -/
  unsent : List Unsent := []
  /-- Stations at which an SNP command has raised the fence of a seam alone: seam and station (Table 8.11). -/
  fenceAt : List (Nat × Nat) := []
  /-- REQ headers accepted whose data has not arrived (R270), and data whose header has not. -/
  headers : List Nat := []
  early : List (Nat × List Beat) := []
  /-- SRC and TAG of refused packets whose data is discarded (R265). -/
  refused : List (Nat × Nat) := []
  /-- Accesses at a tap that wait, in the order they came: for a wipe to end (R155), or for what came before them (R134). -/
  waiting : List Waiting := []
  flights : List Flight := []
  snp : List SnpOp := []
  acks : List TapAck := []
  /-- Seams whose fence an SNP command has raised (Table 8.11). -/
  fences : List Nat := []
  held : List HeldReq := []
  deriving DecidableEq, Repr

/-- An eye count in progress (R307): the settings latched at EYE_GO. -/
structure EyeCount where
  sel : Nat
  phase : Nat
  volt : Nat
  dwell : Nat
  since : Nat
  deriving DecidableEq, Repr

/-- What a lane's transmitter keeps (R279, R283, R284, R294): it sends blocks since an alignment block opened its superframe; since an
alignment block it sends the link stream; the alignment blocks sent of the superframe, the last 58 payload bits sent, and the message
bits not in a codeword yet, with their number. -/
structure LaneTx where
  on : Bool := false
  up : Bool := false
  align : Nat := 0
  history : Nat := 0
  part : Nat := 0
  bits : Nat := 0
  deriving DecidableEq, Repr

/-- What a link's transmitter keeps (R280, R313, R314): block slots since the last alignment block, the same on every lane; blocks of the
link stream in the slot being filled; bits of the container stream not in a data block yet, with their number; blocks have been given
out that no codeword has carried yet. -/
structure LinkTx where
  slot : Nat := 0
  row : List Nat := []
  stream : Nat := 0
  streamBits : Nat := 0
  owed : Bool := false
  deriving DecidableEq, Repr

/-- What a lane keeps beside its registers (chapter 9). -/
structure LaneRun where
  tx : LaneTx := {}
  /-- Run time of entry into its state, and whether link training was host-assisted at that entry (R297). -/
  since : Nat := 0
  hosted : Bool := false
  /-- Successive failed attempts at the rate in use in none of which a lane of the link passed ALIGN, and whether one has in the
  attempt under way (R295). -/
  fails : Nat := 0
  aligned : Bool := false
  /-- LANE of the last valid TRAIN blocks and how many in succession gave it (R292), with OCTET received. -/
  trainLane : Nat := 0
  trainCount : Nat := 0
  /-- RX_STAGE = LOCKED received, and FEC passed (R294). -/
  partnerLocked : Bool := false
  locked : Bool := false
  /-- Successive codewords decoded, and uncorrectable, to the last (R294, R299). -/
  goodWords : Nat := 0
  badWords : Nat := 0
  /-- Answers for the next TRAIN block (R296). -/
  preAck : Nat := 0
  postAck : Nat := 0
  /-- Run time since which signal detect, or the loop's lock, has stood without a break in DETECT or CDR (R290). -/
  steady : Nat := 0
  /-- The block stream within the codewords received (R278 to R286): whether the comma has been found in them, the blocks since the
  last alignment slot, the last 58 bits received, the blocks still to be disregarded after comma alignment, the bits of a block not
  whole yet and their number, whether any of them came from an uncorrectable codeword, the alignment slots since the last match, and
  whether the last codeword was uncorrectable. -/
  framed : Bool := false
  slot : Nat := 0
  history : Nat := 0
  skip : Nat := 0
  part : Nat := 0
  partBits : Nat := 0
  tainted : Bool := false
  missed : Nat := 0
  marked : Bool := false
  /-- The lane waits for its wake to be granted, and then begins at the rate in use rather than RATE_MAX (R298, R303). -/
  waking : Bool := false
  keepRate : Bool := false
  /-- It then enters TEST (log 86). -/
  testNext : Bool := false
  eye : Option EyeCount := none
  /-- Run time of the checker's lock (R308). -/
  lockedAt : Nat := 0
  deriving DecidableEq, Repr

/-- An egress record (R334): the link, the sender's SRC and TAG, the operation (0 READ, 1 WRITE, 2 CAS, 3 STREAM, 4 SNP),
the destination node, the beats confirmed and those asked for, and the SNP operation. -/
structure Egress where
  lk : Nat
  src : Nat
  tag : Nat
  op : Nat
  node : Nat
  beats : Nat := 0
  asked : Nat := 1
  snp : Nat := 0
  since : Nat := 0
  /-- LEDGER_LIMIT_US in force when it opened (R484). -/
  limit : Nat := 0
  addr : Nat := 0
  /-- OPEN_TIME. -/
  openTime : Nat := 0
  deriving DecidableEq, Repr

/-- A proxy entry of an octet (R333): its own tag or MSG_ID, and the originals; `flit` is a WRITE header that waits for its
data. An entry whose link has been lost reports what it did (R343). -/
structure Proxy where
  octet : Nat
  lk : Nat
  ptag : Nat
  op : Nat
  src : Nat
  tag : Nat
  flit : Option Nat := none
  /-- A WRITE header that has not been forwarded yet (R333). -/
  waiting : Bool := false
  /-- The status with which a WRITE or CAS that cannot be forwarded completes once its data has come. -/
  refusal : Option Nat := none
  lost : Bool := false
  /-- Beats forwarded before a flush (R337). -/
  flushed : Option Nat := none
  node : Nat := 0
  snp : Nat := 0
  /-- Acknowledgements that a command to every tap or bridge still waits for, and those that have come. -/
  acks : Nat := 1
  statuses : List Nat := []
  deriving DecidableEq, Repr

/-- A DAT packet being received on a link: its head, the MASK words so far, and its beats. -/
structure RxPacket where
  head : Nat
  masks : List Nat := []
  beats : List Beat := []
  /-- Its forwarding has begun (R332), and the beats forwarded before a flush (R337). -/
  begun : Bool := false
  flushed : Option Nat := none
  /-- Where a W packet is forwarded to, station, port and proxy tag, and how many beats have been forwarded; none where it is
  swallowed. -/
  dest : Option (Nat × Nat × Nat) := none
  sent : Nat := 0
  deriving DecidableEq, Repr

/-- The final response of a proxy entry, while it is not acknowledged: the entry's own tag and originals, and the status and beats due
(R333, R343). -/
structure Owed where
  ptag : Nat
  node : Nat
  src : Nat
  tag : Nat
  status : Nat
  beats : Nat
  deriving DecidableEq, Repr

/-- A container that waits for a credit or for the link: class (0 Q, 1 W, 2 RSP, 3 K, 4 D, 5 A), VN and TYPE, payload, and the response
that it ends. -/
structure TxItem where
  cls : Nat
  vt : Nat
  payload : Nat
  src : Nat
  tag : Nat
  answer : Option Owed := none
  deriving DecidableEq, Repr

/-- The state of one link (R321 to R343). -/
structure LinkRun where
  /-- Run time of entry into its state; whether it holds no state from before (FRESH). -/
  since : Nat := 0
  fresh : Bool := true
  /-- Transmitter: next sequence, containers not acknowledged (oldest first), credits, waiting containers. -/
  seq : Nat := 0
  replay : List (Nat × Nat) := []
  /-- Responses whose last container, by sequence, is not acknowledged (R343). -/
  answers : List (Nat × Owed) := []
  creditQ : Nat := 0
  creditW : Nat := 0
  creditK : Nat := 0
  queue : List TxItem := []
  /-- Successive replays with no ACK progress, and the time of the last progress or send (R327). -/
  replays : Nat := 0
  progressAt : Nat := 0
  /-- Receiver: sequence expected, discarding after a CRC failure, the time of its last NAK, containers accepted since the
  last ACK, the time plus one of the first of them, and credits to return. -/
  expect : Nat := 0
  discarding : Bool := false
  nakAt : Nat := 0
  accepted : Nat := 0
  acceptedAt : Nat := 0
  oweQ : Nat := 0
  oweW : Nat := 0
  oweK : Nat := 0
  inW : Option RxPacket := none
  inD : Option RxPacket := none
  /-- SRC and TAG of the WRITEs and CASes received whose data has not begun to come (R319). -/
  expectW : List (Nat × Nat) := []
  /-- A container was ended in the middle of a data block (R314); the partner's allocations (R322); INIT blocks sent and
  the partner's valid INIT; flushes whose FLUSH block has been sent (R335). -/
  half : Bool := false
  allocQ : Nat := 0
  allocW : Nat := 0
  allocK : Nat := 0
  inits : Nat := 0
  partnerInit : Option Nat := none
  flushSent : Nat := 0
  /-- Lanes the partner receives UP, and the time of the last LANES sent (R338); a FLUSH waiting for its acknowledgement is
  in the FLUSH object. -/
  partnerUp : Nat := 0
  lanesAt : Nat := 0
  lastTx : Nat := 0
  lastRx : Nat := 0
  /-- Time since which nothing but NULL containers and control blocks has passed (R340). -/
  quietSince : Nat := 0
  /-- Run time, plus one, since which no lane has had a signal and no EIOS came before (R342). -/
  darkSince : Nat := 0
  idleAsked : Bool := false
  askedAt : Nat := 0
  /-- Run time, plus one, at which it began to leave IDLE (R340). -/
  leaving : Nat := 0
  tx : LinkTx := {}
  deriving DecidableEq, Repr

/-- An undelivered result reported to initiator 368 (R343). -/
structure Undelivered where
  reporter : Nat
  tag : Nat
  lk : Nat
  node : Nat
  src : Nat
  srcTag : Nat
  deriving DecidableEq, Repr

/-- Swarm time as a child keeps it (R352): the open request's ID, its t1 with fraction, the run time it was sent, whether
an exchange has been made since it was acquired, and the correction still to be slewed. -/
structure SwarmTime where
  id : Nat := 0
  sent : Option (Nat × Nat) := none
  acquired : Bool := false
  slew : Int := 0
  slewedAt : Nat := 0
  lastAsk : Nat := 0
  deriving DecidableEq, Repr

/-- The lanes, the route table and the links (chapters 9 and 10). -/
structure Link where
  lanes : SMap LaneRun := []
  runs : SMap LinkRun := []
  egress : List Egress := []
  proxies : List Proxy := []
  /-- REQ flits, and SNP headers with their payload, held back at an octet's port for want of a record or a reservation
  (R330, R334), with the octet. -/
  heldBack : List (Nat × Nat) := []
  heldSnp : List (Nat × Nat × List Nat) := []
  /-- REQ containers and STREAM packets that wait in a receive buffer for a proxy tag (R333), with the link: flits. -/
  rxHeld : List (Nat × List Nat) := []
  rxStreams : List (Nat × Nat × List Beat) := []
  /-- SSC_PPM and SSC_KHZ of each octet (R305), the latter less its default of 33. -/
  sscPpm : SMap Nat := []
  sscKhz : SMap (Option Nat) := []
  undelivered : List Undelivered := []
  /-- Stations of the trackers armed through a proxy: link, original SRC, tracker, station. -/
  armed : List (Nat × Nat × Nat × Nat) := []
  time : SwarmTime := {}
  /-- Live and staged route entries by node (R346). -/
  routes : SMap Nat := []
  staged : SMap Nat := []
  /-- Choices held off: run time, plus one, until which link lk is held off for node n, at key 512·n + lk (R348). -/
  holdoff : SMap Nat := []
  /-- Run time, plus one, since which a node has been unreachable, and the nodes lost (R349). -/
  unreach : SMap Nat := []
  lost : List Nat := []
  deriving DecidableEq, Repr


/-- A package that a firmware or microcode slot holds: VERSION, COMPAT and the digest of its header and directory. -/
structure Firm where
  version : Nat := 0
  compat : Nat := 0
  digest : Nat := 0
  deriving DecidableEq, Repr

/-- The steps of configuration (R371), and what the configuration path waits for. -/
inductive CfgStep where
  /-- Nothing: not released, mode 0b101 and above, or an image that started. -/
  | none
  /-- A copy of the flash directory (R359). -/
  | directory
  /-- The firmware package, the microcode package, the device image. -/
  | firmware | microcode | image
  /-- Boot runs are entered and the global start is awaited (R377). -/
  | starting
  deriving DecidableEq, Repr

/-- A directory entry (Table 11.4). -/
structure SegEntry where
  offset : Nat
  length : Nat
  kind : Nat
  target : Nat
  tag : Nat
  digest : Nat
  aad : List Byte
  deriving DecidableEq, Repr

/-- A region table entry (Table 11.8). -/
structure RegionEntry where
  region : Nat
  slot : Nat
  boot : Bool
  image : Nat
  kernel : Nat
  sig : Nat
  map : Nat
  deriving DecidableEq, Repr

/-- A boot run entry (Table 11.9). -/
structure BootRun where
  kernel : Nat
  anchor : Nat
  shape : Nat
  argLine : Nat
  cring : Nat
  prio : Nat
  flags : Nat
  deriving DecidableEq, Repr

/-- A SHA-512 computation: the eight words, the bytes not yet a block, and the length so far. -/
structure ShaState where
  h : List Nat
  rest : List Byte := []
  len : Nat := 0
  deriving DecidableEq, Repr

/-- The package in progress (R361 to R368). -/
structure Pkg where
  type : Nat
  keySlot : Nat
  totalFrames : Nat
  version : Nat
  rollback : Nat
  compat : Nat
  salt : List Byte
  /-- SHA-512 of the bytes from 0x000 to the end of the directory, the bytes of its first unit, and the directory. -/
  digest : Nat
  unit0 : Nat
  dir : List SegEntry
  /-- The rolling key K[n] of the segment in progress (R366). -/
  key : Nat
  seg : Nat := 0
  frame : Nat := 0
  tries : Nat := 0
  ghash : Nat := 0
  sha : ShaState
  /-- Bytes of the segment's stream that are not yet a whole record, and how many of the stream came before. -/
  carry : List Byte := []
  taken : Nat := 0
  regions : List RegionEntry := []
  bootRuns : List BootRun := []
  settings : List (Nat × Nat × Nat × Nat) := []
  /-- Frame rows loaded, by 16·region + slot (R365). -/
  rows : SMap Nat := []
  /-- Context slots, user memory frames and library ranges written (R373). -/
  slots : List (Nat × Nat) := []
  frames : List Nat := []
  library : List (Nat × Nat) := []
  deriving DecidableEq, Repr

/-- A run-time package command in progress (R378): the command, its code once checked, and the library ranges whose reads
are denied until it ends (R379). -/
structure PkgJob where
  cmd : Nat
  type : Nat
  code : Nat
  status : Nat
  library : List (Nat × Nat) := []
  firm : Option Firm := none
  digest : Nat := 0
  /-- The scarab that command 5 loads. -/
  scarab : Nat := 0
  /-- The target ranges of the LIBRARY segments that have started (R379). -/
  targets : List (Nat × Nat) := []
  /-- The package is still to be read: a wipe holds its lines (R155). -/
  unread : Bool := false
  deriving DecidableEq, Repr

/-- Configuration and trust (chapter 11). -/
structure Cfg where
  step : CfgStep := .none
  /-- The second attempt of the step: the other slot, or the golden image. -/
  second : Bool := false
  /-- Directory copies tried, FW_PREF and LIMIT_MS (R359); the flash offers the octal profile, as far as is known (R358). -/
  copies : Nat := 0
  octal : Bool := true
  fwPref : Nat := 0
  /-- PRIMARY, GOLDEN, FW_A, FW_B, UC_A and UC_B of the directory in use. -/
  dir : List Nat := []
  pkg : Option Pkg := none
  /-- Run time of the first byte of the attempt, and of the last byte pushed. -/
  since : Nat := 0
  heard : Nat := 0
  /-- The packages of firmware slots A and B, the microcode staged and that of each scarab. -/
  fwA : Option Firm := none
  fwB : Option Firm := none
  staged : Option Firm := none
  ucode : SMap (Option Firm) := []
  /-- KEY_SLOT of the running image. -/
  keySlot : Nat := 0xFF
  /-- The boot ROM ended its failed configuration with FAULTn asserted (R373). -/
  fault : Bool := false
  /-- The fuse operation in progress: operation, slot and value (R370), and the bytes last written to FUSE_VALUE. -/
  fuseJob : Option (Nat × Nat × Nat) := none
  fuseLen : Nat := 64
  pkgJob : Option PkgJob := none
  /-- The report being signed (R383). -/
  attest : Option Nat := none
  /-- Bytes of the unit being received, whether it awaits its check, and whether a frame was refused (R512 to R514). -/
  unit : List Byte := []
  checking : Bool := false
  refused : Bool := false
  /-- Levels of the parallel port: PREADY and PREFUSE after the last edge, and whether PCSn has been sampled high since the
  refusal. -/
  ready : Bool := false
  refuse : Bool := false
  released : Bool := false
  deriving DecidableEq, Repr

/-- A mailbox channel (Table 12.5): REQUEST and RESPONSE are 4,096 bytes, held as numbers. -/
structure Mbox where
  busy : Bool := false
  ready : Bool := false
  refused : Bool := false
  reqLen : Nat := 0
  rspLen : Nat := 0
  request : Nat := 0
  response : Nat := 0
  /-- Bytes of the request whose messages have been served, and the answer that waits to be placed in RESPONSE. -/
  taken : Nat := 0
  answer : Option (List Byte) := none
  deriving DecidableEq, Repr

/-- The kinds of transfer that stay open over several messages (R390, R392). -/
inductive XferKind where
  | segRead | segWrite | blkRead | blkWrite
  deriving DecidableEq, Repr

/-- An open transfer (R390 to R393). -/
structure Xfer where
  via : Via
  kind : XferKind
  idx : Nat
  sub : Nat
  xid : Nat
  size : Nat
  /-- The copy being read, or the bytes written so far. -/
  buf : List Byte := []
  /-- Bytes sent and acknowledged of a read. -/
  pos : Nat := 0
  /-- TOGGLE of the last accepted SEG_DATA, if any, and the answer it got. -/
  toggle : Option Bool := none
  answer : List Byte := []
  /-- BLKSIZE in force, the highest SEQ received or sent in the block, and whether the last data has passed. -/
  blkSize : Nat := 0
  seq : Nat := 0
  last : Bool := false
  /-- Run time of the server's last message. -/
  since : Nat
  deriving DecidableEq, Repr

/-- A message forwarded to another node (R405): its remote channel, and the run time at which it was sent while its
response is awaited; the channel is kept while its transfer is open. -/
structure Forward where
  via : Via
  node : Nat
  ch : Nat
  hdr : Nat
  since : Option Nat
  deriving DecidableEq, Repr

/-- What a message of the stewards to a channel of another node's mailbox does next (R354, R405): reads CH_STATUS to see that the
channel is free, writes REQUEST, writes MSG_LEN, reads CH_STATUS until the response is there, reads RESPONSE, writes RSP_DONE. The
response is then ready. -/
inductive CourierStage where
  | probe | request | submit | poll | fetch | finish | ready
  deriving DecidableEq, Repr

/-- Such a message: its node, channel and bytes, and the transport its response is returned on, if any. -/
structure Courier where
  id : Nat
  node : Nat
  ch : Nat
  bytes : List Byte
  via : Option Via
  /-- Whether it is the first message of its transfer, which may take another channel. -/
  fresh : Bool
  stage : CourierStage
  /-- Bytes of REQUEST written, the tag of the transaction that is open, the response's length and the response. -/
  sent : Nat := 0
  tag : Option Nat := none
  rspLen : Nat := 0
  response : List Byte := []
  deriving DecidableEq, Repr

/-- The management transports (chapter 12). -/
structure Lmp where
  mbox : SMap Mbox := []
  xfers : List Xfer := []
  forwards : List Forward := []
  /-- Messages of the stewards to other nodes, oldest first, and the number of the next. -/
  couriers : List Courier := []
  courierSeq : Nat := 0
  /-- Run time, plus one, of the last heartbeat of each port. -/
  heartbeat : SMap Nat := []
  /-- Bus Master Enable, the mask and the pending bits of the MSI-X vectors (R398, R399). -/
  bme : Bool := false
  masked : Nat := 2 ^ 64 - 1
  pending : Nat := 0
  /-- Address and data of each vector in the MSI-X table (R398). -/
  vectors : SMap Nat := []
  deriving DecidableEq, Repr

/-- A change that a device commit carries (R105, R106, R252): a slot to be retired (136·die + position), a position whose
TWIN_OK falls, or a slot whose riser is rerouted. -/
inductive Remap where
  | slot (p : Nat)
  | twin (q : Nat)
  | riser (p : Nat)
  deriving DecidableEq, Repr

/-- The commit that runs, or that this node takes part in (R410, R414). -/
structure CommitRun where
  epoch : Nat
  groups : Nat
  /-- The change of a commit started by the device itself. -/
  change : Option Remap := none
  /-- This node coordinates participants; and it takes part under a coordinator. -/
  coord : Bool := false
  part : Bool := false
  /-- Run times at which prepare was sent to the nodes and to the units, while replies of theirs are awaited. -/
  nodeSince : Option Nat := none
  unitSince : Option Nat := none
  /-- The swarm time, in units of 10 ns, at which a decided change applies. -/
  applyAt : Option Nat := none
  /-- A participant's outcome came by QUERY_OK: its acknowledgement is still owed. -/
  owes : Bool := false
  deriving DecidableEq, Repr

/-- Epoch commits (R407 to R417). -/
structure Commit where
  run : Option CommitRun := none
  /-- Changes of device commits that wait, and those whose commit aborted with the run time at which it begins again
  (R409). -/
  waiting : List Remap := []
  retry : List (Remap × Nat) := []
  /-- Run time of the last decision to abort by a reply, and whether nodes or units replied: a lower-numbered reply of that
  edge is named instead (R412). -/
  abortEdge : Option (Bool × Nat) := none
  /-- Whether that decision pushed a record: a participant pushes none (R415). -/
  recorded : Bool := false
  /-- Run time of a participant's STAGED reply or its last QUERY, and whether it waits for no further answer (R416). -/
  askedAt : Nat := 0
  /-- Nodes that have become reachable again since (R416). -/
  back : List Nat := []
  quiet : Bool := false
  /-- The epoch whose nodes NODE_REPLIES shows. -/
  nodeEpoch : Nat := 0
  deriving DecidableEq, Repr

/-- The JTAG instruction in force, and the boundary register as last shifted in (R517 to R519). -/
structure Jtag where
  ir : Nat := 1
  boundary : Nat := 0
  shift : Nat := 0
  deriving DecidableEq, Repr
/-- A wake request (Table 13.13): rail 0 VDD_FAB, 1 VDD_LANE. -/
structure WakeReq where
  rail : Nat
  unit : Nat
  priority : Nat
  kind : Nat
  /-- Timestamp at which it became visible, and the same in run time. -/
  time : Nat
  since : Nat
  /-- The host has not granted it within HOST_WAKE_LIMIT_US: it stands in the hardware order (R433). -/
  aged : Bool := false
  deriving DecidableEq, Repr

/-- The wake governor (R430 to R433). -/
structure Wg where
  queue : List WakeReq := []
  /-- Credit of each rail in hundredths of a milliampere, and the REFCLK edge up to which it was counted. -/
  tokensFab : Nat := 800000
  tokensLane : Nat := 200000
  countedAt : Nat := 0
  /-- The requests the host has named, rail and unit, the newest first: each moved to the head (R433). -/
  named : List (Nat × Nat) := []
  deriving DecidableEq, Repr


/-- Thermal sensing (chapter 14): the sample taken and not yet in force, with the clock count of its tenth tick, and the
area temperatures of the rise windows, newest first (R460). -/
structure Therm where
  pending : Option (Nat × List Int) := none
  windows : SMap (List Int) := []
  deriving DecidableEq, Repr
/-- An exhausted bond group whose lasting change has not been made yet (R469 to R471): `row` is its row of Table 15.1, `unit`
the physical slot, the position, tap 16·die + t or engine 8·die + e it serves, `e0` the run time of its exhaustion. -/
structure Exhausted where
  seam : Nat
  group : Nat
  row : Nat
  unit : Nat
  e0 : Nat
  /-- The lasting change has been called for: in hardware mode, by RETIRE or by the host's limit. -/
  acted : Bool
  /-- The window edge has been taken. -/
  ended : Bool := false
  deriving DecidableEq, Repr

/-- A ladybird (R474 to R478): the next record it reads, counted over its die; the run time, plus one, at which it was found
stalled; and whether its sweep has ended since the last sweep counted. -/
structure Ladybird where
  cursor : Option Nat := none
  stalledAt : Nat := 0
  /-- It sweeps the whole die after a takeover. -/
  wholeDie : Bool := false
  wrapped : Bool := false
  /-- The stewards found that it does not advance. -/
  down : Bool := false
  deriving DecidableEq, Repr

/-- A firmware hand-over in progress (R487). -/
structure HandOver where
  slot : Nat
  cold : Bool
  deriving DecidableEq, Repr

/-- The steering word of a bond group as it is held: a triplicated, voted latch on each side of the seam (R15). -/
structure SteerLatch where
  lower : Nat × Nat × Nat := (0, 0, 0)
  upper : Nat × Nat × Nat := (0, 0, 0)
  deriving DecidableEq, Repr, Inhabited

/-- Bonds, scrubbing and the trouble record. -/
structure Health where
  /-- The event log, newest first (R479). -/
  log : List LogEntry := []
  /-- Steering latches: group g of seam s at key g·8 + s (R15, Table 1.5). -/
  steer : SMap SteerLatch := []
  exhausted : List Exhausted := []
  /-- Every group exhausted so far: seam, group. -/
  dead : List (Nat × Nat) := []
  /-- The next group each seam's weevil visits (R466). -/
  weevil : SMap Nat := []
  /-- The start sweep is under way (R473). -/
  startSweep : Bool := false
  /-- A visit asked for by BOND_CMD = TEST that waits for its idle slot: seam, group. -/
  bondTest : Option (Nat × Nat) := none
  /-- Ladybird k of configuration die d at key 2·d + k. -/
  ladybird : SMap Ladybird := []
  /-- Triplicated parameter latches: parameter q of die d at key 4·d + q holds the three copies (R474); unlisted
  latches agree with the dictionary. -/
  latch : SMap (Option (Nat × Nat × Nat)) := []
  handOver : Option HandOver := none
  deriving DecidableEq, Repr

/-- Everything the spec gives the block but its queue of commands. -/
structure Block where
  /-- The dictionary objects, by key; an unlisted object reads its default (R10). -/
  regs : SMap Nat := []
  fuses : Fuses := {}
  clk : Clk := {}
  ctx : Ctx := {}
  rgn : Rgn := {}
  mem : Mem := {}
  disp : Disp := {}
  wg : Wg := {}
  mig : Mig := {}
  net : Net := {}
  link : Link := {}
  health : Health := {}
  therm : Therm := {}
  cfg : Cfg := {}
  lmp : Lmp := {}
  commit : Commit := {}
  jtag : Jtag := {}
  ledger : SMap LedgerEntry := []
  /-- What has been sent outside, newest first. -/
  outbox : List Output := []
  /-- The model's own counter of free values drawn. -/
  free : Nat := 0
  deriving DecidableEq, Repr

/-- The state: the block and the commands waiting for it, first in, first out. -/
structure State where
  pending : List Instr := []
  blk : Block := {}
  deriving DecidableEq, Repr

/-- The machine at power-on reset: PORn low, every object at its default (R10, R441), no command waiting. -/
def State.reset : State := {}

end Sys2Proof.Machine
end

