-- ==== Sys2Proof/WellFormed.lean ====
section
/-! DEFINITION. Well-formed commands: the operands name units that the device has. A command that names none is no
event of the device. -/

namespace Sys2Proof

/-- A logical region (R100). -/
def wfRegion (r : Nat) : Bool := decide (r < 256)
/-- A context slot (R62). -/
def wfSlot (s : Nat) : Bool := decide (s < 16)
/-- A logic, configuration or memory die side: 0 for A, 1 for B. -/
def wfDie (d : Nat) : Bool := decide (d < 2)
/-- A layer (R11). -/
def wfLayer (l : Nat) : Bool := decide (l < 7)
/-- A memory tag (R120). -/
def wfTag (t : Nat) : Bool := decide (t < 64)
/-- A stream channel of a region (R121). -/
def wfChannel (c : Nat) : Bool := decide (c < 4)
/-- A bank (R129). -/
def wfBank (b : Nat) : Bool := decide (b < 128)
/-- A frame (R129). -/
def wfFrame (f : Nat) : Bool := decide (f < 32768)
/-- A DMA channel (R168). -/
def wfDma (c : Nat) : Bool := decide (c < 16)
/-- A ring pair (R182). -/
def wfRing (n : Nat) : Bool := decide (n < 64)
/-- A run-table index (R180). -/
def wfRun (n : Nat) : Bool := decide (n < 16384)
/-- A scarab (R189). -/
def wfScarab (k : Nat) : Bool := decide (k < 32)
/-- A migration slot (R228). -/
def wfMig (m : Nat) : Bool := decide (m < 32)
/-- An initiator (R249). -/
def wfInitiator (i : Nat) : Bool := decide (i < 370)
/-- A unit of a commit (R407). -/
def wfUnit (u : Nat) : Bool := decide (u < 442)
/-- A station (R246). -/
def wfStation (s : Nat) : Bool := decide (s < 66)
/-- A network (R245). -/
def wfNet (n : Nat) : Bool := decide (n < 4)
/-- A lane (R275). -/
def wfLane (l : Nat) : Bool := decide (l < 512)
/-- A link index (R312). -/
def wfLink (l : Nat) : Bool := decide (l < 512)
/-- A node (R18). -/
def wfNode (n : Nat) : Bool := decide (n < 4096)
/-- A mailbox channel (R395). -/
def wfMbox (c : Nat) : Bool := decide (c < 64)
/-- A CAN port (R402). -/
def wfPort (p : Nat) : Bool := decide (p < 2)
/-- A governed rail (R430). -/
def wfRail (r : Nat) : Bool := decide (r < 2)
/-- A seam (R12). -/
def wfSeam (s : Nat) : Bool := decide (s < 6)
/-- A temperature sensor (R450). -/
def wfSensor (s : Nat) : Bool := decide (s < 448)
/-- An MSI-X vector (R399). -/
def wfVector (v : Nat) : Bool := decide (v < 64)
/-- A transport: a mailbox channel or a CAN port with a node number. -/
def wfVia : Via → Bool
  | .mailbox ch => wfMbox ch
  | .can port source => wfPort port && wfNode source
  | .settings => true

/-- Signal groups of each seam (Table 1.4). -/
def seamGroups (seam : Nat) : Nat := nthD [6048, 8800, 4465184, 560080, 4460288, 3776] seam 0

/-- The operands of a command name units that the device has. -/
def Instr.wf (i : Instr) : Bool :=
  match i with
  | .registerWrite via _ _ _ _ => wfVia via
  | .globalAccess ini addr size _ _ _ _ => wfInitiator ini && decide (addr < 2 ^ 64 ∧ 0 < size)
  | .lateCompletion ini tag _ _ => wfInitiator ini && decide (tag < 1024)
  | .fabricEdge _ => true
  | .regionReset r _ => wfRegion r
  | .load _ r slot _ _ _ _ _ => wfRegion r && wfSlot slot
  | .loadEngineStart die => wfDie die
  | .loadEnd r slot _ => wfRegion r && wfSlot slot
  | .prefetch _ r slot => wfRegion r && wfSlot slot
  | .prefetchEnd r _ => wfRegion r
  | .switch _ rs => rs.all wfRegion
  | .switchEdge r _ => wfRegion r
  | .writeBack r _ => wfRegion r
  | .clear _ r slot => wfRegion r && wfSlot slot
  | .clearEnd r slot _ => wfRegion r && wfSlot slot
  | .copy _ r slot _ fromSlot => wfRegion r && wfSlot slot && wfSlot fromSlot
  | .copyEnd r slot _ => wfRegion r && wfSlot slot
  | .captureReq r _ => wfRegion r
  | .captureEdge r _ => wfRegion r
  | .captureEnd r _ => wfRegion r
  | .pinMask r _ => wfRegion r
  | .borderMap r slot _ => wfRegion r && wfSlot slot
  | .memoryRequest r tag _ line _ _ _ => wfRegion r && wfTag tag && decide (line < 2 ^ 24)
  | .memoryCompletion r tag _ => wfRegion r && wfTag tag
  | .streamOutPacket r ch beats _ => wfRegion r && wfChannel ch && !beats.isEmpty
  | .streamInPacket r _ beats _ _ => wfRegion r && !beats.isEmpty
  | .doneEnd r _ _ => wfRegion r
  | .doneYield r _ _ => wfRegion r
  | .donePhase r _ _ => wfRegion r
  | .regionNap r _ => wfRegion r
  | .regionSleep r _ => wfRegion r
  | .regionWakeEnd r _ => wfRegion r
  | .runEnd run _ => wfRun run
  | .shootdownCmd _ => true
  | .bankWipe bank => wfBank bank
  | .frameWipe fr => wfFrame fr
  | .wipeComplete _ => true
  | .patrolVisit _ => true
  | .repairWalkEnd bank _ => wfBank bank
  | .retireBank _ _ => true
  | .counterClear bank _ => wfBank bank
  | .bankRetire bank _ => wfBank bank
  | .dmaProd ch _ => wfDma ch
  | .dmaDescriptor ch _ => wfDma ch
  | .dmaDescriptorEnd ch _ => wfDma ch
  | .dmaResume ch => wfDma ch
  | .dmaAbort ch => wfDma ch
  | .dmaReset ch => wfDma ch
  | .dmaEnable ch _ => wfDma ch
  | .kernelUpdate _ => true
  | .sqProd ring _ => wfRing ring
  | .cqCons ring _ => wfRing ring
  | .intake ring _ => wfRing ring
  | .completionRecord run _ => wfRun run
  | .notBeforeDue _ => true
  | .dispatchEvaluation k _ => wfScarab k
  | .startEdge run _ => wfRun run
  | .reserve k prio _ => wfScarab k && decide (prio < 8)
  | .preemption run _ => wfRun run
  | .preemptCancel run _ => wfRun run
  | .runAbort run _ => wfRun run
  | .thiefRound k _ => wfScarab k
  | .runRetired run _ => wfRun run
  | .scarabTrap k _ _ => wfScarab k
  | .scarabDrain k => wfScarab k
  | .scarabHalted k _ => wfScarab k
  | .scarabRestart k _ => wfScarab k
  | .proposalPop _ => true
  | .place run _ _ => wfRun run
  | .steal run _ _ => wfRun run
  | .preempt run _ => wfRun run
  | .sample k entry die _ => wfScarab k && wfDie die && decide (entry < 2 ^ 64)
  | .epochEnd _ => true
  | .poolAdd fr => wfFrame fr
  | .poolAddEnd _ => true
  | .poolRemove fr => wfFrame fr
  | .migrationStart k _ => wfScarab k
  | .migrationStepDone m _ => wfMig m
  | .migrationAbandon m _ _ => wfMig m
  | .migrationTimeout m _ => wfMig m
  | .hmigGo _ _ => true
  | .hmigCancel _ _ => true
  | .propPop _ => true
  | .drainScan bank _ => wfBank bank
  | .read _ _ => true
  | .write _ _ => true
  | .cas _ _ => true
  | .wdata _ _ _ => true
  | .rdata _ _ _ => true
  | .stream _ _ _ => true
  | .wcomp _ _ => true
  | .rcomp _ _ => true
  | .sack _ _ => true
  | .ledger _ _ => true
  | .shootdown _ _ => true
  | .migFence _ _ => true
  | .migLift _ _ => true
  | .seamFence _ => true
  | .trackerArm _ fr => decide (fr < 2 ^ 64)
  | .trackerTake _ => true
  | .trackerDisarm _ => true
  | .frameReq _ => true
  | .release _ fr => decide (fr < 2 ^ 64)
  | .trackerArmed _ _ => true
  | .trackerBits _ _ _ => true
  | .frameGrant _ fr _ => decide (fr < 2 ^ 64)
  | .hdrDiscard station net _ => wfStation station && wfNet net
  | .stationGate station _ => wfStation station
  | .statsClear _ => true
  | .detectPass l _ => wfLane l
  | .eqPass l _ => wfLane l
  | .cdrPass l _ => wfLane l
  | .alignPass l _ _ => wfLane l
  | .polarityPass l _ => wfLane l
  | .orderPass lk _ => wfLink lk
  | .deskewPass lk _ _ => wfLink lk
  | .fecPass l _ => wfLane l
  | .laneUp l _ => wfLane l
  | .stageFail l _ => wfLane l
  | .codeword l syms _ => wfLane l && syms.length == 544 && syms.all (fun y => decide (y < 1024))
  | .train l _ _ _ => wfLane l
  | .idle l _ _ _ => wfLane l
  | .eios l _ _ => wfLane l
  | .keepalive lk _ _ => wfLink lk
  | .cdrLoss l _ => wfLane l
  | .signalLoss l _ => wfLane l
  | .alignmentLoss l _ => wfLane l
  | .trainingBurst u _ => wfLink u.lk
  | .laneEn l _ _ => wfLane l
  | .laneRestart l _ => wfLane l
  | .step l _ => wfLane l
  | .test l _ => wfLane l
  | .testStop l _ => wfLane l
  | .eyeGo l _ => wfLane l
  | .eyeCountEnd l _ _ => wfLane l
  | .req lk _ _ => wfLink lk
  | .headW lk _ _ => wfLink lk
  | .mask lk _ _ => wfLink lk
  | .dataW lk _ _ => wfLink lk
  | .dataWP lk _ _ => wfLink lk
  | .abortW lk _ _ => wfLink lk
  | .headD lk _ _ => wfLink lk
  | .dataD lk _ _ => wfLink lk
  | .dataDP lk _ _ => wfLink lk
  | .tailD lk _ _ => wfLink lk
  | .rsp lk _ _ => wfLink lk
  | .null lk _ _ => wfLink lk
  | .snpK lk _ _ => wfLink lk
  | .snpA lk _ _ => wfLink lk
  | .ack lk _ _ => wfLink lk
  | .nak lk _ _ => wfLink lk
  | .init lk _ _ => wfLink lk
  | .lanes lk _ _ => wfLink lk
  | .flush lk _ _ => wfLink lk
  | .flushAck lk _ _ => wfLink lk
  | .flushStart lk _ _ => wfLink lk
  | .timeReq lk _ _ _ _ => wfLink lk
  | .timeRsp lk _ _ _ => wfLink lk
  | .idleReq lk _ _ => wfLink lk
  | .idleAck lk _ _ => wfLink lk
  | .ackTimer lk _ => wfLink lk
  | .nakRepeat lk _ => wfLink lk
  | .replayTimeout lk _ => wfLink lk
  | .keepaliveTimer lk _ => wfLink lk
  | .keepaliveTimeout lk _ => wfLink lk
  | .signalLossTimeout lk _ => wfLink lk
  | .linkIdleTimer lk _ => wfLink lk
  | .idleKeepaliveExit lk _ => wfLink lk
  | .idleExitTimeout lk _ => wfLink lk
  | .holdoffExpiry node lk _ => wfNode node && wfLink lk
  | .adaptSwitch node _ => wfNode node
  | .nodeLost node _ => wfNode node
  | .nodeId _ => true
  | .timeInterval _ _ => true
  | .timeRspTimeout _ => true
  | .frame _ _ => true
  | .pushWrite off bytes _ => decide (off + bytes.length ≤ 2 ^ 24)
  | .imageLimit _ => true
  | .pushLimit _ => true
  | .globalStart _ => true
  | .pkgContextInstall _ => true
  | .pkgFwInstallA _ => true
  | .pkgFwInstallB _ => true
  | .pkgUcodeStage _ => true
  | .pkgUcodeLoad _ => true
  | .packageEnd _ => true
  | .fuseProgramSlot _ => true
  | .fuseRevoke _ => true
  | .fuseSetImageKey _ => true
  | .fuseRollback _ => true
  | .fuseSetMgmtPaths _ => true
  | .fuseDone _ => true
  | .attestGo _ _ => true
  | .attestDone _ => true
  | .lmpRead via _ _ _ => wfVia via
  | .lmpWrite via _ _ _ => wfVia via
  | .segRead via _ _ _ => wfVia via
  | .segWrite via _ _ _ => wfVia via
  | .segData via _ _ _ => wfVia via
  | .blkRead via _ _ _ => wfVia via
  | .blkWrite via _ _ _ => wfVia via
  | .blkData via _ _ _ => wfVia via
  | .blkAck via _ _ _ => wfVia via
  | .blkEnd via _ _ _ => wfVia via
  | .blkEndOk via _ _ _ => wfVia via
  | .abort via _ _ _ => wfVia via
  | .lmpStall via _ => wfVia via
  | .msgLen ini ch _ => wfInitiator ini && wfMbox ch
  | .rspDone ini ch _ => wfInitiator ini && wfMbox ch
  | .mailboxResponse ch _ => wfMbox ch
  | .lmpReq port _ _ _ => wfPort port
  | .heartbeat port _ => wfPort port
  | .busOff port _ => wfPort port
  | .forwardResponse via node ch _ _ => wfVia via && wfNode node && wfMbox ch
  | .fwdTimeout via _ => wfVia via
  | .barWriteError _ _ _ => true
  | .usb4Enable via _ => wfVia via
  | .commitGo _ _ => true
  | .deviceCommit _ => true
  | .unitReply u _ _ _ => wfUnit u
  | .commitWindow _ => true
  | .epochApply _ => true
  | .commitRetry _ => true
  | .prepare _ _ coord _ => wfNode coord
  | .prepared node _ _ _ _ => wfNode node
  | .apply _ _ _ => true
  | .abortEpoch _ _ => true
  | .query node _ => wfNode node
  | .queryOk _ _ _ _ => true
  | .applyWait _ => true
  | .resolveApply _ => true
  | .resolveDiscard _ => true
  | .fabricDiv _ _ => true
  | .throttleDecay _ => true
  | .wakeRequest rail unit prio _ => wfRail rail && (if rail = 0 then wfRegion unit else wfLane unit) && decide (prio < 8)
  | .wakeGrant _ => true
  | .wgGrant _ => true
  | .hostWakeLimit rail unit _ => wfRail rail && (if rail = 0 then wfRegion unit else wfLane unit)
  | .hibernate _ _ => true
  | .wakeSource src unit _ => decide (src ≤ 5) && (src != 0 || wfLane unit)
  | .stop cause _ _ => decide (1 ≤ cause ∧ cause ≤ 4)
  | .stopRestart _ => true
  | .powerOnReset => true
  | .porRelease mode nid _ => decide (mode < 8) && wfNode nid
  | .rstnLow _ => true
  | .deviceResetRelease mode _ => decide (mode < 8)
  | .deviceReset _ _ => true
  | .dieReset _ _ => true
  | .drainWindowEnd _ => true
  | .dieRelease _ => true
  | .dieReady _ => true
  | .fenceLower _ => true
  | .thermalSample raws _ => decide (raws.length = 448)
  | .sampleInForce _ => true
  | .thermalTrip sensor _ => wfSensor sensor
  | .weevilVisit seam group _ _ => wfSeam seam && decide (group < seamGroups seam)
  | .exhaustionWindowEnd _ => true
  | .bondTest _ _ => true
  | .bondRetire _ => true
  | .hostBondLimit seam _ _ => wfSeam seam
  | .ladybirdVisit die k _ => wfDie die && decide (k < 2)
  | .latchRefresh _ => true
  | .ladybirdTakeover die stalled _ => wfDie die && decide (stalled < 2)
  | .ladybirdsDown die _ => wfDie die
  | .ledgerTimeout ini tag _ => wfInitiator ini && decide (tag < 1024)
  | .logClear _ => true
  | .fwSwitch _ _ => true
  | .fwHandoverEnd _ => true
  | .writeStream _ _ => true
  | .writeStreamQ _ _ => true
  | .readStatus => true
  | .readNext => true
  | .parallelWord _ _ _ _ => true
  | .unitCheckEnd _ => true
  | .extest _ => true
  | .idcode => true
  | .samplePreload _ _ => true
  | .clamp => true
  | .highz => true
  | .extestPulse _ => true
  | .extestTrain _ => true
  | .bypass => true
  | .trstn => true
  | .powerBondAlarm seam _ => wfSeam seam
  | .crcFailure lk _ => wfLink lk
  | .exitWindowExpiry l _ => wfLane l
  | .checkerLock l _ => wfLane l
  | .checkerLockLoss l _ _ _ => wfLane l
  | .canBusError port _ _ _ => wfPort port
  | .busOffRecovery port _ => wfPort port
  | .usb4Connect gen _ _ => decide (2 ≤ gen ∧ gen ≤ 4)
  | .usb4Disconnect => true
  | .vectorUnmask v => wfVector v
  | .packageHeader _ _ => true
  | .resetTakesEffect _ => true
  | .epochAcknowledgement node _ _ _ => wfNode node

end Sys2Proof
end

