-- ==== Sys2Proof/Machine/Ops.lean ====
section
/-! DEFINITION. The named operations over the block: the register file, the time base, the event log, what is sent
outside, free values, and the numbering of regions, slots and dies. -/

namespace Sys2Proof.Machine

open Sys2Proof

/-! Answers of a meaning. -/

/-- The outcome of a command: the block's next state, with the queue as it stands. An event whose operands name no unit of the device
(`ok` false) is none of its events: nothing changes (DESIGN CHOICE, log entry 11). -/
def State.answer (s : State) (ok : Bool) (b : Block) : Host.Outcome State Fault Refusal :=
  .next (if ok then { s with blk := b } else s)

/-! Completion status (Table 1.8). -/

namespace Status

abbrev ok : Nat := 0
abbrev poison : Nat := 1
abbrev tooLong : Nat := 2
abbrev flushed : Nat := 3
abbrev pathLost : Nat := 4
abbrev seamFence : Nat := 5
abbrev timeout : Nat := 6
abbrev accessDenied : Nat := 7
abbrev retired : Nat := 8
abbrev abortedByHost : Nat := 9
abbrev malformed : Nat := 10

/-- A status received: codes 11 to 15 are treated as MALFORMED (R24). -/
def received (c : Nat) : Nat := if c ≤ 10 then c else malformed

/-- The order of R29, lowest first, among causes that end a transaction at one edge. -/
def rank (c : Nat) : Nat :=
  if c = retired then 0 else if c = seamFence then 1 else if c = pathLost then 2
  else if c = flushed then 3 else if c = abortedByHost then 4 else if c = timeout then 5 else 6

/-- The first cause of R29 among those present. -/
def first (cs : List Nat) : Option Nat := leastBy rank cs

end Status

/-! Abort codes (Table 12.3). -/

namespace Abort

abbrev none : Nat := 0
abbrev unknownCmd : Nat := 0x01010000
abbrev toggle : Nat := 0x01020000
abbrev noTransfer : Nat := 0x01030000
abbrev sizeMismatch : Nat := 0x01040000
abbrev blockCrc : Nat := 0x01050000
abbrev blockSeq : Nat := 0x01060000
abbrev useSegmented : Nat := 0x01070000
abbrev stalled : Nat := 0x01080000
abbrev badMessage : Nat := 0x01090000
abbrev noIndex : Nat := 0x02010000
abbrev noSub : Nat := 0x02020000
abbrev length : Nat := 0x02030000
abbrev tooLarge : Nat := 0x02040000
abbrev range : Nat := 0x02050000
abbrev value : Nat := 0x02060000
abbrev writeOnly : Nat := 0x03010000
abbrev readOnly : Nat := 0x03020000
abbrev notIdle : Nat := 0x03030000
abbrev condition : Nat := 0x03040000
abbrev mode : Nat := 0x03050000
abbrev transport : Nat := 0x03060000
abbrev retired : Nat := 0x03070000
abbrev busy : Nat := 0x04010000
abbrev poison : Nat := 0x04020000
abbrev commitBusy : Nat := 0x05010000
abbrev stagingLocked : Nat := 0x05020000
abbrev epochOld : Nat := 0x05030000
abbrev pathLost : Nat := 0x06010000
abbrev fwdTimeout : Nat := 0x06020000
abbrev fwdNoChannel : Nat := 0x06030000

/-- The first abort of a list of conditions, in order (R387). -/
def first : List (Bool × Nat) → Nat
  | [] => none
  | (c, a) :: l => if c then a else first l

end Abort

/-! The register file. -/

/-- Defaults that depend on the unit or the grade (R31, R102, R217, R246, R261, R449); every other object's default is its
row's. -/
def regDefault (grade : Nat) (k : Nat) : Nat :=
  let idx := k / 256
  let sub := k % 256
  let u := idx % 256
  if 0x2001 ≤ idx ∧ idx ≤ 0x2007 ∧ sub = 1 then idx - 0x2001
  else if 0x2001 ≤ idx ∧ idx ≤ 0x2007 ∧ sub = 2 then nthD [0, 1, 2, 3, 3, 2, 1] (idx - 0x2001) 0
  else if 0x2010 ≤ idx ∧ idx ≤ 0x2015 ∧ sub = 1 then seamGroups (idx - 0x2010)
  else if 0x3100 ≤ idx ∧ idx ≤ 0x31FF ∧ sub = 1 then 17 * ((u % 128) / 16) + u % 16
  else if 0x3100 ≤ idx ∧ idx ≤ 0x31FF ∧ sub = 2 then u / 128
  else if 0x5340 ≤ idx ∧ idx ≤ 0x537F ∧ sub = 6 then (idx - 0x5340) % 32
  else if 0x5340 ≤ idx ∧ idx ≤ 0x537F ∧ sub = 7 then idx - 0x5340
  else if 0xB040 ≤ idx ∧ idx ≤ 0xB081 ∧ sub = 1 then
    (let s := idx - 0xB040
     if 64 ≤ s then 2 else if s % 8 = 0 ∨ s % 8 = 7 ∨ s / 8 = 0 ∨ s / 8 = 7 then 0 else 1)
  else if k = Reg.fabricDiv then (if grade = 2 then 30 else 24)
  else if k = Reg.fabricHz then (if grade = 2 then 960000000 else 1200000000)
  else match objRow idx sub with
    | some r => r.dflt
    | none => 0

/-- The divider in force after a reset (Table 0.1, R2): FABRIC_DIV's default. -/
def Block.resetDiv (b : Block) : Nat := regDefault b.fuses.grade Reg.fabricDiv

/-- What register `k` holds. -/
def Block.reg (b : Block) (k : Nat) : Nat := b.regs.get (regDefault b.fuses.grade) k

/-- The block with register `k` holding `v`. -/
def Block.setReg (b : Block) (k v : Nat) : Block :=
  { b with regs := b.regs.set (regDefault b.fuses.grade) k v }

/-- The block with several registers written, in order. -/
def Block.setRegs (b : Block) : List (Nat × Nat) → Block
  | [] => b
  | (k, v) :: l => (b.setReg k v).setRegs l

/-- The width of a register in bits, from its row. -/
def regTop (k : Nat) : Nat :=
  match objRow (k / 256) (k % 256) with
  | some r => 256 ^ r.size.most - 1
  | none => 0

/-- The block with `d` added to a counter, which stays at its largest value. -/
def Block.count (b : Block) (k d : Nat) : Block := b.setReg k (satAdd (b.reg k) d (regTop k))

/-! Free values. -/

/-- The next free value and the block with the draw counted. -/
def Block.draw (b : Block) : Nat × Block := (Config.freeValue b.free, { b with free := b.free + 1 })

/-! Sending outside. -/

/-- The block with one item sent outside. -/
def Block.emit (b : Block) (kind : OutKind) (unit : Nat) (words : List Nat) : Block :=
  { b with outbox := ⟨kind, unit, words⟩ :: b.outbox }

/-- The answer of a register command: its abort code, 0 when done. -/
def Block.result (b : Block) (code : Nat) : Block := b.emit .result 0 [code]

/-- The outcome of a register write as the block that has answered it. -/
def Block.answered (r : Nat × Block) : Block := r.2.result r.1

/-! Time. -/

/-- Root periods of a REFCLK edge, of a cricket tick (R419). -/
abbrev refclk : Nat := 288
abbrev tick : Nat := 28800

/-- The root-period count the clocks see: it holds while REFCLK is absent (R423). -/
def Block.clock (b : Block) : Nat := b.clk.now - b.clk.lost

/-- The timestamp counter (R423). -/
def Block.ts (b : Block) : Nat := b.clock / refclk

/-- The cricket count (R423). -/
def Block.cricket (b : Block) : Nat := b.clock / tick

/-- Time as the limits see it: it does not advance while the device is stopped (R439). -/
def Block.run (b : Block) : Nat := b.clk.now - b.clk.stopped

/-- Whether REFCLK is absent. -/
def Block.refclkLost (b : Block) : Bool :=
  match b.clk.stop with
  | some st => st.present.testBit 1
  | none => false

/-- The first cricket tick at or after a clock count. -/
def tickAt (c : Nat) : Nat := roundUp c tick

/-- The first cricket tick after a clock count. -/
def tickAfter (c : Nat) : Nat := (c / tick + 1) * tick

/-- Microseconds, milliseconds and nanoseconds in root periods. -/
def us (n : Nat) : Nat := n * tick
def ms (n : Nat) : Nat := n * 1000 * tick
def ns (n : Nat) : Nat := (n * 144 + 4) / 5

/-- Whether the clocked domains run: the device is out of reset and Hibernate, and no stop is in force (R438). -/
def Block.clocked (b : Block) : Bool := b.clk.mode == .run && b.clk.stop.isNone

/-- Whether the stewards serve the dictionary: clocked, and no cold hand-over in progress (R487). -/
def Block.served (b : Block) : Bool :=
  b.clocked && !(match b.health.handOver with | some h => h.cold | none => false)

/-- A write by the host, answered with its abort code, while the dictionary is served. -/
def Block.host (b : Block) (f : Block → Nat × Block) : Block :=
  if b.served then Block.answered (f b) else b

/-- A write by the host to a record of the dictionary: one that has no such record (`ok` false) is aborted with NO_INDEX (R387). -/
def inRecord (ok : Bool) (f : Block → Nat × Block) (b : Block) : Nat × Block := if ok then f b else (Abort.noIndex, b)

/-! The numbering of the device. -/

/-- The logic die of a logical region (R100). -/
def dieOf (r : Nat) : Nat := r / 128

/-- The partner of a logical region (R100). -/
def partner (r : Nat) : Nat := if r < 128 then r + 128 else r - 128

/-- The slot position of a logical region (R102). -/
def Block.position (b : Block) (r : Nat) : Nat := b.reg (Reg.position r)

/-- The physical slot of a logical region: 136·die + position (R103). -/
def Block.phys (b : Block) (r : Nat) : Nat := 136 * dieOf r + b.position r

/-- Whether a logical region is out of service (R102). -/
def Block.isRetired (b : Block) (r : Nat) : Bool := b.reg (Reg.retired r) == 1

/-- The logical region in physical slot `p`, if one is in service there. -/
def Block.regionAt (b : Block) (p : Nat) : Option Nat :=
  (List.range 256).find? (fun r => !b.isRetired r && b.phys r == p)

/-- The mode in force of a function (Table 12.9): 0 hardware, 1 host-assisted. -/
def Block.fmode (b : Block) (fn : Nat) : Nat := b.reg (Reg.mode (fn - 1))

/-- The functions of Table 12.9. -/
abbrev fnPlacement : Nat := 1
abbrev fnMigration : Nat := 2
abbrev fnConfigScrub : Nat := 3
abbrev fnMemScrub : Nat := 4
abbrev fnThermal : Nat := 5
abbrev fnTraining : Nat := 6
abbrev fnBond : Nat := 7
abbrev fnWake : Nat := 8

/-- The node ID in force (R18). -/
def Block.node (b : Block) : Nat := b.reg Reg.nodeId

/-- Whether the global start has come (R377). -/
def Block.started (b : Block) : Bool := b.reg Reg.cfgState == 3

/-! Fences (R17, R259, R445). -/

/-- The layer whose seam fences are raised, from the raising to the lowering (R445). -/
def Block.fencedLayer (b : Block) : Option Nat := b.clk.dieReset.map (·.layer)

/-- Whether a path over the listed layers is fenced: it crosses or ends in a die being reset (R17), or crosses a seam
whose fence is raised (R259). -/
def Block.fenced (b : Block) (layers : List Nat) : Bool :=
  (match b.fencedLayer with
    | some l => layers.contains l
    | none => false) ||
  b.net.fences.any (fun s => layers.contains s && layers.contains (s + 1))

/-- Layers crossed or ended in by the paths of Table 1.5a: the memory port, the riser and the context group of a
region of die `d`, the taps of memory die `d` and the configuration path of die `d`. -/
def portPath (d : Nat) : List Nat := if d = 0 then [1, 2, 3] else [4, 5, 6]
def riserPath (d : Nat) : List Nat := if d = 0 then [0, 1, 2, 3] else [0, 1, 2, 3, 4]
def ctxPath (d : Nat) : List Nat := if d = 0 then [2, 3] else [4, 5]
def tapPath (d : Nat) : List Nat := if d = 0 then [0, 1] else [0, 1, 2, 3, 4, 5, 6]
def cfgPath (d : Nat) : List Nat := if d = 0 then [0, 1, 2] else [0, 1, 2, 3, 4, 5]

/-- Whether a group of a kind that serves a unit is exhausted, its lasting change not yet made: row of Table 15.1 (R469). -/
def Block.groupGone (b : Block) (row unit : Nat) : Bool := b.health.exhausted.any (fun x => x.row == row && x.unit == unit)

/-! The event log (R479 to R481). -/

/-- Severity of each code of Table 15.5. -/
def logSeverity (code : Nat) : Nat :=
  if [0x0101, 0x010A, 0x0303, 0x0305, 0x0401, 0x0403, 0x0503, 0x0604, 0x0702, 0x0704, 0x0802].contains code then 1
  else if [0x0103, 0x0203].contains code then 0
  else if [0x0102, 0x0104, 0x0202, 0x0204, 0x0206, 0x0404, 0x0502, 0x0504, 0x0601, 0x0602, 0x0603].contains code then 3
  else if code = 0x0801 then 4
  else 2

/-- Codes marked C in Table 15.5, whose entries coalesce. -/
def logCoalesces (code : Nat) : Bool := [0x0103, 0x0201, 0x0203, 0x0404, 0x0405].contains code

/-- The 256 bits of an entry (Table 15.4). -/
def LogEntry.word (e : LogEntry) : Nat :=
  e.data % 2 ^ 96 + e.rep * 2 ^ 108 + e.severity * 2 ^ 124 + e.srcNum * 2 ^ 128 + e.srcKind * 2 ^ 140 +
    e.code * 2 ^ 144 + e.seq * 2 ^ 160 + e.time * 2 ^ 192

/-- BUS_STATE of a port by its error counters: error passive from 128 on (ISO 11898-1). -/
def Block.canState (b : Block) (p : Nat) : Block :=
  b.setReg (Reg.busState p) (if 128 ≤ b.reg (Reg.tec p) ∨ 128 ≤ b.reg (Reg.rec p) then 1 else 0)

/-- A frame sent without an error lowers TEC by 1 (ISO 11898-1). -/
def Block.canSent (b : Block) (p : Nat) : Block := (b.setReg (Reg.tec p) (b.reg (Reg.tec p) - 1)).canState p

/-- An ALERT frame on each enabled CAN port for an entry of severity 2 or above (R402, R481). -/
def Block.alert (b : Block) (e : LogEntry) : Block :=
  let send (b : Block) (p : Nat) : Block :=
    if b.reg (Reg.canEnable p) = 1 ∧ b.reg (Reg.busState p) < 2 then
      ((b.count (Reg.framesTx p) 1).canSent p).emit .can p
        ((1 * 2 ^ 25 + b.reg (Reg.alertDest p) * 2 ^ 13 + b.node * 2) :: (bytesOf 32 e.word).map (·.toNat))
    else b
  if e.severity < 2 then b else send (send b 0) 1

/-- The codes of Table 15.5, in table order. -/
def logCodes : List Nat :=
  [0x0101, 0x0102, 0x0103, 0x0104, 0x0105, 0x0106, 0x0107, 0x0108, 0x0109, 0x010A, 0x0201, 0x0202, 0x0203, 0x0204, 0x0205, 0x0206,
   0x0301, 0x0302, 0x0303, 0x0304, 0x0305, 0x0401, 0x0402, 0x0403, 0x0404, 0x0405, 0x0501, 0x0502, 0x0503, 0x0504, 0x0601, 0x0602,
   0x0603, 0x0604, 0x0701, 0x0702, 0x0703, 0x0704, 0x0801, 0x0802]

/-- Whether a new event joins the newest entry of its code (R480). -/
def LogEntry.joins (e : LogEntry) (code kind num now window : Nat) : Bool :=
  e.code == code && e.srcKind == kind && e.srcNum == num && now - e.time ≤ window

/-- A new entry takes the next SEQ and overwrites the oldest entry of a full ring; an entry below LOG_MIN_SEVERITY is
not written (R479). -/
def Block.logNew (b : Block) (code kind num data : Nat) : Block :=
  let e : LogEntry := ⟨b.ts, b.reg Reg.logSeq, code, kind, num, logSeverity code, 0, data⟩
  if e.severity < b.reg Reg.logMinSeverity then b
  else
    let b := if b.health.log.length < 8192 then b else b.count Reg.logLost 1
    let b := { b with health := { b.health with log := (e :: b.health.log).take 8192 } }
    (b.setReg Reg.logSeq ((e.seq + 1) % 2 ^ 32)).alert e

/-- An event of a coalescing code joins the newest entry of its code when the source is the same and the time is
within LOG_COALESCE_MS; any other event makes a new entry (R480). -/
def Block.logEvent (b : Block) (code kind num data : Nat) : Block :=
  let window := b.reg Reg.logCoalesceMs * 100000
  match b.health.log.find? (fun e => e.code == code) with
  | some e =>
    if logCoalesces code && window != 0 && e.joins code kind num b.ts window then
      { b with health := { b.health with
          log := b.health.log.map (fun x => if x.seq = e.seq then { x with rep := satAdd x.rep 1 0xFFFF } else x) } }
    else b.logNew code kind num data
  | none => b.logNew code kind num data

/-- An event that a rule says is logged, of which the spec states neither the code nor the DATA: free values, the code one of
Table 15.5 (log 149). -/
def Block.logUnstated (b : Block) (kind num : Nat) : Block :=
  let (c, b) := b.draw
  let (d, b) := b.draw
  b.logEvent (nthD logCodes (c % logCodes.length) 0) kind num (d % 2 ^ 96)

/-! Time passes. -/

/-! Scarabs and their deputies (R206, R211). -/

/-- The torus distance of two scarabs. -/
def torus (j k : Nat) : Nat :=
  let dx := if j % 8 ≤ k % 8 then k % 8 - j % 8 else j % 8 - k % 8
  let dy := if j / 8 ≤ k / 8 then k / 8 - j / 8 else j / 8 - k / 8
  min dx (8 - dx) + min dy (4 - dy)

/-- The scarabs that scarab k probes at distance d, in order. -/
def probeRound (k d : Nat) : List Nat :=
  if d = 1 then [(k % 8 + 7) % 8 + 8 * (k / 8), (k % 8 + 1) % 8 + 8 * (k / 8),
                 k % 8 + 8 * ((k / 8 + 3) % 4), k % 8 + 8 * ((k / 8 + 1) % 4)]
  else (List.range 32).filter (fun j => torus j k == d)

/-- The whole probe order of scarab k. -/
def probeOrder (k : Nat) : List Nat := [1, 2, 3, 4, 5, 6].flatMap (probeRound k)

/-- Whether a scarab is RUNNING. -/
def Block.scarabRuns (b : Block) (k : Nat) : Bool := b.reg (Reg.scarabState k) == 0

/-- The first RUNNING scarab in the probe order of scarab k. -/
def Block.deputy (b : Block) (k : Nat) : Option Nat := (probeOrder k).find? b.scarabRuns

/-- The scarab that does the work of scarab k: itself, or its deputy (R211), which goes on with it until the evaluation at which it
hands it back (R212). -/
def Block.servant (b : Block) (k : Nat) : Option Nat :=
  if b.scarabRuns k then
    match b.disp.returning.look k with
    | some j => if b.scarabRuns j then some j else some k
    | none => some k
  else b.deputy k

/-- The start sweep ends, and HEALTH_REBUILT is logged (R473). -/
def Block.endSweep (b : Block) : Block :=
  if b.health.startSweep then
    { b with health := { b.health with startSweep := false } }.logEvent 0x010A 0 368
      (((List.range 256).filter (fun r => !b.isRetired r)).length + b.reg Reg.banksInService * 2 ^ 16)
  else b

/-- A changed FABRIC_DIV whose cricket tick has come restarts the fabric by a soft start whose first edge is that tick (R420). -/
def settleDiv (b : Block) : Block :=
  match b.clk.divDue with
    | some (at', d) =>
      if at' ≤ b.clock then
        { b with clk := { b.clk with divDue := none, fabricDiv := d, fabricOrigin := at', window := 0, softLevel := 56,
                                     level := [], lastEdge := none } }
      else b
    | none => b

/-- A changed AUXCLK whose cricket tick has come takes effect (R422). -/
def settleAux (b : Block) : Block :=
  match b.clk.auxDue with
    | some (at', x) => if at' ≤ b.clock then { b with clk := { b.clk with auxDue := none, aux := x } } else b
    | none => b

/-- The clock settings whose cricket tick has come take effect. -/
def settleClk (b : Block) : Block := settleAux (settleDiv b)

/-- A scarab restarted at its tick: its deputy keeps its work until its own next evaluation (R212). -/
def restartOne (b : Block) (e : Nat × Nat) : Block :=
  if 0 < e.2 ∧ e.2 ≤ b.clock + 1 then
    { b.setReg (Reg.scarabState e.1) 0 with
        disp := { b.disp with restartDue := b.disp.restartDue.put e.1 0
                              returning := b.disp.returning.put e.1 (b.deputy e.1) } }
  else b

/-- What has come due by the block's time takes effect: the end of the sweep, the clock settings, the restarts of scarabs. -/
def Block.settle (b : Block) : Block :=
  let b := settleClk (if us 500 ≤ b.clk.now then b.endSweep else b)
  b.disp.restartDue.foldl restartOne b

/-- The block at time `t`: time never runs backwards, the limits stand still during a stop, and the counters during
the absence of REFCLK (R423, R439). -/
def Block.at (b : Block) (t : Nat) : Block :=
  if t ≤ b.clk.now then b
  else
    let d := t - b.clk.now
    let c := b.clk
    let c := { c with now := t
                      stopped := if c.stop.isSome || c.mode != .run then c.stopped + d else c.stopped
                      lost := if b.refclkLost then c.lost + d else c.lost }
    { b with clk := c }.settle

/-- A clocked event at time `t`. -/
def Block.event (b : Block) (t : Nat) (f : Block → Block) : Block :=
  if (b.at t).clocked then f (b.at t) else b.at t

/-- A clocked event that falls only if its condition holds; otherwise the event does not occur. -/
def Block.eventIf (b : Block) (t : Nat) (p : Block → Bool) (f : Block → Block) : Block :=
  b.event t (fun b => if p b then f b else b)

/-! Interrupt messages (R399). -/

/-- An MSI-X message of a vector; 0xFF sends none. The endpoint sends it only while its tunnel is up, MSI-X is enabled and
Bus Master Enable is set (R398); a masked vector sets its pending bit instead. -/
def Block.msix (b : Block) (v : Nat) : Block :=
  if v ≤ 63 ∧ b.reg Reg.pcieUp = 1 ∧ b.reg Reg.msixEnabled = 1 ∧ b.lmp.bme then
    (if b.lmp.masked.testBit v then { b with lmp := { b.lmp with pending := putBit b.lmp.pending v true } }
     else b.emit .msix v [b.lmp.vectors.look v])
  else b

/-! Voted latches. -/

/-- The voted value of three copies. -/
def vote3 (x y z : Nat) : Nat := (x &&& y) ||| (y &&& z) ||| (x &&& z)

/-- The value that three copies of a latch vote. -/
def voted (c : Nat × Nat × Nat) : Nat := vote3 c.1 c.2.1 c.2.2

/-! Checks of a written value (R387, steps 3 and 4). -/

/-- RANGE or VALUE for a written value, by the object's row. -/
def checkValue (k v : Nat) : Nat :=
  match objRow (k / 256) (k % 256) with
  | some r =>
    Abort.first [(!r.range.holds v && !r.range.isCode, Abort.range),
                 (!r.range.holds v || v &&& r.reserved != 0, Abort.value)]
  | none => Abort.noIndex

/-- A write that a list of conditions may abort: the first that applies, with no effect (R387); else the effect. -/
def Block.guarded (b : Block) (checks : List (Bool × Nat)) (f : Block → Block) : Nat × Block :=
  let a := Abort.first checks
  if a = Abort.none then (Abort.none, f b) else (a, b)

/-- A value refused by its row (steps 3 and 4 of R387), as one condition. -/
def badValue (k v : Nat) : Bool × Nat := (checkValue k v != Abort.none, checkValue k v)

end Sys2Proof.Machine
end

