-- ==== Sys2Proof/Machine/Noc.lean ====
section
/-! DEFINITION. The stations and connections of the on-die networks (R246 to R249, R262), their buffers, credits and arbiters
cycle by cycle (R253, R264, R265), and the order in which packets arrive (R269). -/

namespace Sys2Proof.Machine

open Sys2Proof

/-! Attachments (Tables 8.2 and 8.13). -/

/-- Station of tap `t` of memory die `d` (R248). -/
def tapStation (d t : Nat) : Nat := 16 * (t / 4) + 2 * (t % 4) + 9 * d

/-- The tap at a station: 16·die + tap. -/
def tapAt (stn : Nat) : Option Nat := (List.range 32).find? (fun q => tapStation (q / 16) (q % 16) == stn)

/-- What is attached to a station port (Table 8.2, R249). -/
inductive PortKind where
  | octet (s : Nat)
  /-- The riser of the slot at a position of a logic die. -/
  | riser (die : Nat) (pos : Nat)
  | tap (die : Nat) (t : Nat)
  | scarab (k : Nat)
  | stewards | doorbells | mailbox | resolver | dma | cfg | library
  deriving DecidableEq, Repr

/-- The attachment of a port; none where nothing is attached. -/
def portKind (stn port : Nat) : Option PortKind :=
  if stn = 64 then
    (if port = 0 then some .stewards else if port = 1 then some .doorbells else if port = 2 then some .mailbox
     else if port = 3 then some .resolver else none)
  else if stn = 65 then
    (if port = 0 then some .dma else if port = 1 then some .cfg else if port = 2 then some .library else none)
  else if stn > 65 then none
  else if port = 0 then some (.octet stn)
  else if port ≤ 4 then some (.riser ((port - 1) / 2) (17 * (stn / 8) + 2 * (stn % 8) + (port - 1) % 2))
  else if port ≤ 6 then (if stn % 8 = 7 then some (.riser (port - 5) (17 * (stn / 8) + 16)) else none)
  else if port = 7 then (tapAt stn).map (fun q => .tap (q / 16) (q % 16))
  else if port = 8 then (if stn / 8 % 2 = 0 then some (.scarab (8 * (stn / 16) + stn % 8)) else none)
  else none

/-- Class W egress capacity of a port in beats (Table 8.13). -/
def PortKind.capacity : PortKind → Nat
  | .tap _ _ => 64 | .octet _ => 64 | .riser _ _ => 64 | .resolver => 64 | .library => 64 | .mailbox => 16
  | .stewards => 4 | .doorbells => 1 | .scarab _ => 0 | .dma => 0 | .cfg => 0

/-! Stations and connections (R246, R247, Table 8.1). -/

/-- The grid station at which a station's traffic enters the grid. -/
def gridEntry (s : Nat) : Nat := if s = 64 then 0 else if s = 65 then 56 else s

/-- The station that a side of a station leads to: 0 west, 1 east, 2 south, 3 north, 4 the service connection. -/
def nextStation (s o : Nat) : Option Nat :=
  if s = 64 then (if o = 4 then some 0 else none)
  else if s = 65 then (if o = 4 then some 56 else none)
  else match o with
    | 0 => if s % 8 = 0 then none else some (s - 1)
    | 1 => if s % 8 = 7 then none else some (s + 1)
    | 2 => if s / 8 = 0 then none else some (s - 8)
    | 3 => if s / 8 = 7 then none else some (s + 8)
    | 4 => if s = 0 then some 64 else if s = 56 then some 65 else none
    | _ => none

/-- The kinds of connection. -/
inductive Connection where
  | ring | mesh | service
  deriving DecidableEq, Repr

/-- The connection on a side of a station: along the die edge a ring connection, else a mesh connection. -/
def connection (s o : Nat) : Option Connection :=
  (nextStation s o).map (fun _ =>
    if o = 4 then .service
    else if (o < 2 && (s / 8 == 0 || s / 8 == 7)) || (2 ≤ o && (s % 8 == 0 || s % 8 == 7)) then .ring
    else .mesh)

/-- The links of a network, 0 REQ, 1 DAT, 2 RSP, 3 SNP, on a connection, each direction (Table 8.1). -/
def linkCount (net : Nat) (c : Connection) : Nat := if net = 1 then 2 else match c with | .mesh => 1 | _ => 2

/-- The link of a connection that a packet of a flow number takes (R262). -/
def linkTaken (net flow s o : Nat) : Nat :=
  match connection s o with
  | some c => if linkCount net c = 2 then flow % 2 else 0
  | none => 0

/-- The side of the next station at which what leaves by a side comes in. -/
def otherSide (o : Nat) : Nat := match o with | 0 => 1 | 1 => 0 | 2 => 3 | 3 => 2 | _ => 4

/-- Where a packet that came in by side `d` of station `s` goes: to a port, 5 + port, or on by a side; first along the row, then
along the column. A broadcast, station 127, goes along its row and from each station of the row along its column (R262). -/
def outsOf (s d dst port : Nat) : List Nat :=
  if dst = 127 then
    let sides : List Nat :=
      if s ≥ 64 then (if d ≥ 5 then [4] else [])
      else (if d ≥ 4 then [0, 1] else if d = 0 then [1] else if d = 1 then [0] else []) ++
        (if d = 2 then [3] else if d = 3 then [2] else [2, 3]) ++ (if d = 4 then [] else [4])
    sides.filter (fun o => (nextStation s o).isSome) ++ [5 + 15]
  else if s = dst then [5 + port]
  else if s ≥ 64 then [4]
  else
    let g := gridEntry dst
    if s % 8 < g % 8 then [1] else if g % 8 < s % 8 then [0]
    else if s / 8 < g / 8 then [3] else if g / 8 < s / 8 then [2] else [4]

/-! Buffers (R253, R264). An input of a station is a side or a port, 5 + port. -/

/-- The buffer of an input of a station for a network, a class and a link; with class 0, a link out of the station. -/
def nocKey (s d net cls lk : Nat) : Nat := (((s * 24 + d) * 4 + net) * 2 + cls) * 2 + lk

abbrev keyLink (k : Nat) : Nat := k % 2
abbrev keyClass (k : Nat) : Nat := k / 2 % 2
abbrev keyNet (k : Nat) : Nat := k / 4 % 4
abbrev keySide (k : Nat) : Nat := k / 16 % 24
abbrev keyStation (k : Nat) : Nat := k / 384

/-- Flits or beats that an input holds per class and link (R264). -/
def inputDepth (net : Nat) : Nat := if net = 1 then 16 else 8

/-- The class of a packet within its network: 0 Q, W, C or K; 1 D or A (Table 8.5). -/
def classOf (net word : Nat) : Nat :=
  if net = 1 then b2n (dKind word == 1) else if net = 3 then b2n (decide (32 ≤ sOp word)) else 0

/-- The flow number of a packet sent from a station (R262). -/
def flowOf (net stn word : Nat) : Nat :=
  match net with
  | 0 => qSrc word + qStn word
  | 1 => dSrc word + dStn word
  | 2 => rDst word + stn
  | _ => sSrc word + sStn word

/-- A flit that a credit stall held back for one more cycle. -/
def Noc.stall (n : Noc) (s times : Nat) : Noc := { n with stalls := n.stalls.put s (n.stalls.look s + times) }

/-- An input or an output of a station carries something: a gated station wakes (R271). -/
def Noc.touch (n : Noc) (s : Nat) : Noc :=
  { n with
    last := n.last.put s (n.cycle + 1)
    gated := n.gated.filter (· != s)
    wakes := if n.gated.contains s then n.wakes.put s (n.wakes.look s + 1) else n.wakes }

/-- Flits or beats of a network that a station forwards (Table 8.17). -/
def Noc.pass (n : Noc) (net units s : Nat) : Noc :=
  { n.touch s with passed := n.passed.put (4 * s + net) (n.passed.look (4 * s + net) + units) }

/-- The credits that return at a cycle or before it. -/
def Noc.credit (n : Noc) (c : Nat) : Noc :=
  (n.back.filter (fun e => e.1 ≤ c)).foldl (fun n e => { n with used := n.used.put e.2 (n.used.look e.2 - 1) })
    { n with back := n.back.filter (fun e => !(e.1 ≤ c)) }

/-- Whether a packet that entered before a unit at the same port is not whole yet: what follows waits behind it. -/
def Noc.behind (n : Noc) (key : Nat) (u : NocUnit) : Bool :=
  n.pkts.any (fun p => decide (0 < p.more ∧ p.id < u.pkt) && nocKey p.stn (5 + p.port) p.net p.cls 0 == key)

/-- What the head of each buffer asks for in this cycle: the link out, the class, and its buffer. -/
def Noc.wants (n : Noc) : List (Nat × Nat × Nat) :=
  n.bufs.flatMap (fun e => match e.2.head? with
    | some u => if u.ready ≤ n.cycle ∧ !n.behind e.1 u then
        u.todo.map (fun o => (nocKey (keyStation e.1) o (keyNet e.1) 0 (linkTaken (keyNet e.1) u.flow (keyStation e.1) o),
          keyClass e.1, e.1)) else []
    | none => [])

/-- The buffer that a link out leads to. -/
def farKey (out cls : Nat) : Nat :=
  nocKey ((nextStation (keyStation out) (keySide out)).getD 0) (otherSide (keySide out)) (keyNet out) cls (keyLink out)

/-- The egress buffer of a port, in class W (R265). -/
def egressKey (stn port : Nat) : Nat := stn * 16 + port

/-- Whether there is a credit for a unit on a link out: of the next station's buffer, or of the class W egress buffer of its port. A
packet over the capacity is taken and discarded. -/
def Noc.room (n : Noc) (out cls : Nat) (u : NocUnit) : Bool :=
  let o := keySide out
  if o < 5 then n.used.look (farKey out cls) < inputDepth (keyNet out)
  else if keyNet out = 1 ∧ cls = 0 then
    match portKind (keyStation out) (o - 5) with
    | some k => decide (k.capacity < u.units) || decide (n.egress.look (egressKey (keyStation out) (o - 5)) < k.capacity)
    | none => true
  else true

/-- The input that the arbiter of a link out serves in a class: the one whose packet is under way, else the next in turn. -/
def Noc.pick (n : Noc) (out cls : Nat) (keys : List Nat) : Option Nat :=
  match n.busy.look (out + 2 * cls) with
  | some k => if keys.contains k then some k else none
  | none => match keys.find? (fun k => decide (n.turn.look (out + 2 * cls) < k)) with
    | some k => some k
    | none => keys.head?

/-- The head of a buffer crosses a link out; it leaves the buffer once it has crossed every link out that it is to cross. -/
def Noc.move (n : Noc) (out cls k : Nat) (u : NocUnit) : Noc :=
  let o := keySide out
  let rest := u.todo.filter (· != o)
  let tail := (n.bufs.look k).tail
  let left := if rest.isEmpty then tail else { u with todo := rest } :: tail
  let n := if rest.isEmpty then n.pass (keyNet out) 1 (keyStation out) else n.touch (keyStation out)
  let n := { n with
    bufs := n.bufs.put k left
    back := if rest.isEmpty && keySide k < 5 then n.back ++ [(n.cycle + 1, k)] else n.back
    busy := n.busy.put (out + 2 * cls) (if u.last then none else some k)
    turn := if u.last then n.turn.put (out + 2 * cls) k else n.turn
    mix := n.mix.put out cls }
  if o < 5 then
    let q := farKey out cls
    let v := { u with ready := n.cycle + 3, todo := outsOf (keyStation q) (keySide q) u.dst u.port }
    { n.touch (keyStation q) with bufs := n.bufs.put q (n.bufs.look q ++ [v]), used := n.used.put q (n.used.look q + 1) }
  else
    let e := egressKey (keyStation out) (o - 5)
    { n with
      egress := if keyNet out = 1 ∧ cls = 0 then n.egress.put e (n.egress.look e + 1) else n.egress
      pkts := n.pkts.map (fun p => if p.id = u.pkt then { p with doneAt := n.cycle + 2 } else p) }

/-- One link out in a cycle: of the classes with traffic ready and a credit it carries one, alternating between two; a class that is
ready and has no credit is a stall. What crosses is the head as it stands, with the links it has crossed in this cycle taken off. -/
def Noc.serveLink (n0 : Noc) (wants : List (Nat × Nat × Nat)) (acc : Bool × List Nat × Noc) (out : Nat) : Bool × List Nat × Noc :=
  let pick (cls : Nat) : Option (Nat × Nat × NocUnit) :=
    match n0.pick out cls ((wants.filter (fun w => w.1 == out && w.2.1 == cls)).map (·.2.2)) with
    | some k => ((n0.bufs.look k).head?).map (fun u => (cls, k, u))
    | none => none
  let ready := [pick 0, pick 1].filterMap id
  let go := ready.filter (fun x => n0.room out x.1 x.2.2)
  let (moved, stalled, n) := acc
  let stalled := if go.length < ready.length then keyStation out :: stalled else stalled
  match (if go.length = 2 then go.find? (fun x => x.1 != n0.mix.look out) else go.head?) with
  | some (cls, k, u) => (true, stalled, n.move out cls k ((n.bufs.look k).headD u))
  | none => (moved, stalled, n)

/-- One network cycle: whether anything moved, the stations at which a flit waited for a credit, and the networks. -/
def Noc.tick (n : Noc) : Bool × List Nat × Noc :=
  let n := n.credit n.cycle
  let w := n.wants
  let (moved, stalled, m) := (w.map (·.1)).eraseDups.foldl (n.serveLink w) (false, [], n)
  (moved, stalled, { stalled.foldl (fun m s => m.stall s 1) m with cycle := n.cycle + 1 })

/-- Whether anything is still to come to a buffer's head in time. -/
def Noc.waits (n : Noc) : Bool :=
  !n.back.isEmpty || n.bufs.any (fun e => match e.2.head? with | some u => decide (n.cycle ≤ u.ready) | none => false)

/-- A number of cycles: idle networks do nothing, and those in which nothing can move go on stalling. -/
def Noc.cycles : Nat → Noc → Noc
  | 0, n => n
  | k + 1, n =>
    if n.bufs.isEmpty then n
    else
      let (moved, stalled, m) := n.tick
      if moved || m.waits then Noc.cycles k m else stalled.foldl (fun m s => m.stall s k) m

/-- The networks at a cycle. -/
def Noc.upTo (n : Noc) (c : Nat) : Noc := { (Noc.cycles (c - n.cycle) n).credit c with cycle := max n.cycle c }

/-- `k` units of a packet of `units`, from number `i` on, as they enter at a port: a flit or beat a cycle (Table 8.16, least times;
log 180). -/
def Noc.unitsOf (n : Noc) (id net stn port word dst dport units i k : Nat) : List NocUnit :=
  (List.range k).map (fun j =>
    { pkt := id, flow := flowOf net stn word, dst := dst, port := dport, units := units, last := i + j + 1 == units,
      ready := n.cycle + 2 + j, todo := outsOf stn (5 + port) dst dport })

/-- A packet of `units` enters at a port with its first `now` of them. -/
def Noc.enter (n : Noc) (net stn port word dst dport units now : Nat) : Noc :=
  let cls := classOf net word
  let k := nocKey stn (5 + port) net cls 0
  { n.touch stn with
    next := n.next + 1
    pkts := n.pkts ++ [{ id := n.next, net := net, cls := cls, stn := stn, port := port, word := word, units := units, more := units - now }]
    bufs := n.bufs.put k (n.bufs.look k ++ n.unitsOf n.next net stn port word dst dport units 0 now) }

/-! Arrival (R269). -/

/-- What identifies a packet to its destination: a DAT packet by the fields its beats share. -/
def packetWord (net word : Nat) : Nat :=
  if net = 1 then (if dKind word = 2 then word / 2 ^ 26 else bitsOf word 63 26) else word

/-- Whether Table 8.15 keeps the order of two packets of a network: from one sender to one station port, or, on RSP, from one station
port to one initiator; on DAT within a class. The sender of an SNP packet is the port that sent it, of an answer as of a command. -/
def samePath (net : Nat) (p q : NocPacket) : Bool :=
  let v := p.word
  let w := q.word
  match net with
  | 0 => qSrc v == qSrc w && qStn v == qStn w && qPort v == qPort w
  | 1 => dSrc v == dSrc w && dStn v == dStn w && dPort v == dPort w && (dKind v == 1) == (dKind w == 1)
  | 2 => rStn v == rStn w && rPort v == rPort w && rDst v == rDst w
  | _ => p.stn == q.stn && p.port == q.port && (sStn v == 127 || sStn w == 127 || (sStn v == sStn w && sPort v == sPort w))

/-- Further units of a packet that is not whole yet enter behind those before them, and before what entered later. -/
def Noc.extend (n : Noc) (net stn port word dst dport k : Nat) : Noc :=
  match n.pkts.find? (fun p => p.net == net && p.stn == stn && p.port == port && decide (0 < p.more) && packetWord net p.word == packetWord net word) with
  | none => n
  | some p =>
    let q := nocKey stn (5 + port) net p.cls 0
    let us := n.bufs.look q
    let more := n.unitsOf p.id net stn port word dst dport p.units (p.units - p.more) k
    { n.touch stn with
      pkts := n.pkts.map (fun x => if x.id = p.id then { x with more := x.more - k } else x)
      bufs := n.bufs.put q (us.filter (fun u => decide (u.pkt ≤ p.id)) ++ more ++ us.filter (fun u => decide (p.id < u.pkt))) }

/-- The packet under way that a word names, the oldest of them. -/
def Noc.find (n : Noc) (net word : Nat) : Option NocPacket :=
  n.pkts.find? (fun p => p.net == net && packetWord net p.word == packetWord net word)

/-- Whether a packet is next on its path: none sent before it is still to come. A packet that the model did not see sent comes from
outside it. -/
def Noc.inTurn (n : Noc) (net word : Nat) : Bool :=
  match n.find net word with
  | none => true
  | some p => n.pkts.all (fun q => !(q.net == net && decide (q.id < p.id) && samePath net q p))

/-- Whether a packet may arrive now, the networks having run up to the present cycle: it is next on its path, and all of it has left
the last station. -/
def Noc.delivers (n : Noc) (net word : Nat) : Bool :=
  n.inTurn net word && (match n.find net word with
    | none => true
    | some p => decide (p.more = 0 ∧ p.doneAt ≤ n.cycle) && n.bufs.all (fun e => e.2.all (fun u => u.pkt != p.id)))

/-- A packet has arrived, and its port has taken it out of the egress buffer. -/
def Noc.arrived (n : Noc) (net word : Nat) : Noc :=
  match n.find net word with
  | none => n
  | some p =>
    let e := egressKey (dStn word) (dPort word)
    { n with
      pkts := n.pkts.filter (fun q => q.id != p.id)
      egress := if net = 1 ∧ p.cls = 0 then n.egress.put e (n.egress.look e - p.units) else n.egress }

/-- A flit or beat discarded where it is found (R266): the packet at the head of an input of the station is lost. -/
def Noc.discard (n : Noc) (s net : Nat) : Noc :=
  match (n.bufs.filter (fun e => keyStation e.1 == s && keyNet e.1 == net)).findSome? (fun e => e.2.head?) with
  | none => n
  | some u =>
    let lost := n.bufs.map (fun e => (e.1, e.2.length - (e.2.filter (fun v => v.pkt != u.pkt)).length))
    { n with
      pkts := n.pkts.filter (fun p => p.id != u.pkt)
      bufs := (n.bufs.map (fun e => (e.1, e.2.filter (fun v => v.pkt != u.pkt)))).filter (fun e => !e.2.isEmpty)
      used := lost.foldl (fun m e => m.put e.1 (m.look e.1 - (if keySide e.1 < 5 then e.2 else 0))) n.used
      busy := n.busy.filter (fun e => !(match e.2 with | some k => (lost.any (fun l => l.1 == k && l.2 != 0)) | none => false)) }

/-! The networks of the block, at 2.4 GHz: a cycle is 12 root periods. -/

/-- The networks at the present cycle. -/
def Block.noc (b : Block) : Noc := b.net.noc.upTo (b.run / 12)

/-- Whether a packet that its row names may arrive now. -/
def Block.delivers (b : Block) (net word : Nat) : Bool := b.net.noc.pkts.isEmpty || b.noc.delivers net word

/-- The networks as they stand now, changed. -/
def Block.modNoc (b : Block) (f : Noc → Noc) : Block := { b with net := { b.net with noc := f b.noc } }

/-- The block once a packet has arrived. -/
def Block.arrived (b : Block) (net word : Nat) : Block := { b with net := { b.net with noc := b.noc.arrived net word } }

end Sys2Proof.Machine
end

