-- ==== Sys2Proof/Machine/Send.lean ====
section
/-! DEFINITION. The four on-die networks as senders see them: where initiators and taps stand, the route and its counts,
the injection of packets, the destination of an access, and the ledgers. -/

namespace Sys2Proof.Machine

open Sys2Proof

/-! Places (Tables 8.2, 8.14). -/

/-- Station and port of the riser a region's bridge uses: its own slot's, or, rerouted, that of the slot at
(x, y XOR 1) (R252). -/
def Block.riserPlace (b : Block) (r : Nat) : Nat × Nat :=
  let x := b.position r % 17
  let y := b.position r / 17
  let y := if (b.reg (Reg.portRoute r)).testBit 1 then y ^^^ 1 else y
  (8 * y + min (x / 2) 7, if x = 16 then 5 + dieOf r else 1 + x % 2 + 2 * dieOf r)

/-- Station and port of an initiator (R261, Table 8.14). -/
def Block.iniPlace (b : Block) (i : Nat) : Nat × Nat :=
  if i < 256 then b.riserPlace i
  else if i < 320 then (i - 256, 0)
  else if i < 352 then (16 * ((i - 320) / 8) + (i - 320) % 8, 8)
  else if i < 368 then (65, 0)
  else if i = 368 then (64, 0)
  else (65, 1)

/-- The initiator whose port a station port is, where it is one initiator's. -/
def Block.portIni (b : Block) (stn port : Nat) : Option Nat :=
  match portKind stn port with
  | some (.octet s) => some (256 + s)
  | some (.riser d pos) => b.regionAt (136 * d + pos)
  | some (.scarab k) => some (320 + k)
  | some .stewards => some 368
  | some .cfg => some 369
  | _ => none

/-! Routes and counts (R262, R271, R272). -/

/-- The numbers from `a` to `c`, in walking order. -/
def walk (a c : Nat) : List Nat :=
  if a ≤ c then (List.range (c - a + 1)).map (a + ·) else (List.range (a - c + 1)).map (a - ·)

/-- Stations on the way from grid station `a` to grid station `c`: along the row, then along the column. -/
def gridWay (a c : Nat) : List Nat :=
  (walk (a % 8) (c % 8)).map (fun x => 8 * (a / 8) + x) ++ ((walk (a / 8) (c / 8)).drop 1).map (fun y => 8 * y + c % 8)

/-- Stations on the way between two stations, both included (R262). -/
def way (a c : Nat) : List Nat :=
  if a = c then [a]
  else (if a ≥ 64 then [a] else []) ++ gridWay (gridEntry a) (gridEntry c) ++ (if c ≥ 64 then [c] else [])

/-- Whether the initiators' counts run (R272). -/
def Block.statsOn (b : Block) : Bool := b.reg Reg.statsEnable == 1 && b.reg Reg.statsFreeze == 0

/-- Bytes of a flit or beat of a network: REQ, DAT, RSP, SNP. -/
def unitBytes (net : Nat) : Nat := nthD [16, 64, 8, 8] net 8

/-- Bytes counted for an initiator, sent or received. -/
def Block.countBytes (b : Block) (received : Bool) (net ini units : Nat) : Block :=
  if b.statsOn && decide (ini < 370) then
    b.count ((0xB100 + ini) * 256 + 1 + net + (if received then 4 else 0)) (units * unitBytes net)
  else b

/-- The bucket of a latency (R272). -/
def latBucket (shift cycles : Nat) : Nat :=
  let u := cycles >>> shift
  if u ≤ 1 then 0 else min 15 (Nat.log2 u)

/-- A latency entered in an initiator's histogram of a network, while the counts run. -/
def Block.enterLatency (b : Block) (net ini cycles : Nat) : Block :=
  let k := (0xB100 + ini) * 256 + 9 + net
  let q := latBucket (b.reg Reg.latShift) cycles
  let h := b.reg k
  let n := bitsOf h (32 * q + 31) (32 * q)
  if b.statsOn && decide (ini < 370) then b.setReg k (putBits h (32 * q + 31) (32 * q) (satAdd n 1 0xFFFFFFFF)) else b

/-- A packet whose latency is measured sets out. -/
def Block.takeOff (b : Block) (net ini tag : Nat) : Block :=
  let rest := b.net.flights.filter (fun f => !(f.net == net && f.ini == ini && f.tag == tag))
  { b with net := { b.net with flights := ⟨net, ini, tag, b.clk.now⟩ :: rest } }

/-- It has arrived: its latency is entered. -/
def Block.land (b : Block) (net ini tag : Nat) : Block :=
  match b.net.flights.find? (fun f => f.net == net && f.ini == ini && f.tag == tag) with
  | none => b
  | some f =>
    { b with net := { b.net with flights := b.net.flights.filter (· != f) } }.enterLatency net ini ((b.clk.now - f.since) / 12)

/-- The bytes of a packet sent by an initiator's port. -/
def Block.countSent (b : Block) (net : Nat) (ini : Option Nat) (units : Nat) : Block :=
  match ini with
  | some i => b.countBytes false net i units
  | none => b

/-- A packet enters the networks at a station port, for a port of station `c` (R264). -/
def Block.enter (b : Block) (net stn port word c cport units : Nat) : Block :=
  { b with net := { b.net with noc := b.noc.enter net stn port word c cport units units } }

/-- A packet of an access made within one step: every station of its way forwards it. -/
def Block.passWay (b : Block) (net a c units : Nat) : Block := b.modNoc (fun n => (way a c).foldl (Noc.pass · net units) n)

/-- The traffic of an access that an engine of the base die, or a region's port over its riser, makes within one step: a REQ flit to
the tap or the library port, and its data and its completion, an RDATA packet or, of a read that ends with no data, an RCOMP; with
their latencies at the least times of Table 8.16 (R257, R260, R272; log 180). A fenced tap's refusal is counted (R267). -/
def Block.tapTraffic (b : Block) (ini stn beats : Nat) (write : Bool) (st : Nat) : Block :=
  let here := (b.iniPlace ini).1
  let c := 4 + 3 * ((way here stn).length - 1)
  let b := (b.passWay 0 here stn 1).countBytes false 0 ini 1
  let b := if st = Status.seamFence then b.count Reg.fenceRefusals 1 else b
  if !write && (st == Status.ok || st == Status.poison) then
    ((b.passWay 1 stn here beats).countBytes true 1 ini beats).enterLatency 0 ini (2 * c + beats - 1)
  else
    let b := if write then ((b.passWay 1 here stn beats).countBytes false 1 ini beats).enterLatency 1 ini (c + beats - 1) else b
    (((b.passWay 2 stn here 1).countBytes true 2 ini 1).enterLatency 2 ini c).enterLatency 0 ini
      (if write && st != Status.seamFence then 2 * c + beats else 2 * c)

/-! Sending. The words sent outside begin with the network: 0 REQ, 1 DAT, 2 RSP, 3 SNP. -/

/-- A REQ flit leaves its initiator's port. -/
def Block.sendReq (b : Block) (f : Nat) : Block :=
  let (stn, port) := b.iniPlace (qSrc f)
  let b := (b.countSent 0 (some (qSrc f)) 1).enter 0 stn port f (qStn f) (qPort f) 1
  (b.takeOff 0 (qSrc f) (qTag f)).emit .flit (qSrc f) [0, f]

/-- The key of a DAT packet under way: its tag and kind. -/
def datKey (s : Nat) : Nat := 4 * dTag s + dKind s

/-- Beats of a DAT packet of `total`, from number `i` on, leave a station port: each with its own sideband (R256). -/
def Block.sendBeats (b : Block) (stn port s total i : Nat) (beats : List Beat) : Block :=
  let b := b.countSent 1 (some (dSrc s)) beats.length
  let b :=
    if i = 0 then
      let b := { b with net := { b.net with noc := b.noc.enter 1 stn port s (dStn s) (dPort s) total beats.length } }
      if dKind s = 1 then b else b.takeOff 1 (dSrc s) (datKey s)
    else { b with net := { b.net with noc := b.noc.extend 1 stn port s (dStn s) (dPort s) beats.length } }
  b.emit .flit (dSrc s) (1 :: ((List.range beats.length).zip beats).flatMap (fun e =>
    [beatSideband s (i + e.1 == 0) (i + e.1 + 1 == total) e.2, e.2.data.toNat]))

/-- A DAT packet leaves a station port whole. -/
def Block.sendDat (b : Block) (stn port s : Nat) (beats : List Beat) : Block := b.sendBeats stn port s beats.length 0 beats

/-- The key of an RSP flit under way: its tag and OP, and for a SACK, whose tag is 0, its command and its sender. -/
def rspKey (f : Nat) : Nat :=
  if rOp f = 2 then 16 * (2 ^ 20 + rMsg f * 2 ^ 11 + rStn f * 2 ^ 4 + rPort f) + 2 else 16 * rTag f + rOp f

/-- An RSP flit leaves a port. The DMA channels share theirs, so that a LEDGER flit is its reporter's. -/
def Block.sendRsp (b : Block) (stn port f : Nat) : Block :=
  let (c, cport) := b.iniPlace (rDst f)
  let b := (b.countSent 2 (if rOp f = 3 then some (rReporter f) else b.portIni stn port) 1).enter 2 stn port f c cport 1
  (b.takeOff 2 (rDst f) (rspKey f)).emit .flit (rDst f) [2, f]

/-- An SNP packet leaves a port of station `a`. -/
def Block.sendSnpFrom (b : Block) (a port h : Nat) (payload : List Nat) : Block :=
  let n := 1 + payload.length
  let b := (b.countBytes false 3 (sSrc h) n).enter 3 a port h (sStn h) (sPort h) n
  let b := if sOp h < 32 ∧ sOp h ≠ snpSample then b.takeOff 3 (sSrc h) (sMsg h) else b
  b.emit .flit (sSrc h) (3 :: h :: payload)

/-- An SNP packet leaves its sender's port. -/
def Block.sendSnp (b : Block) (h : Nat) (payload : List Nat) : Block :=
  b.sendSnpFrom (b.iniPlace (sSrc h)).1 (b.iniPlace (sSrc h)).2 h payload

/-- A completion flit WCOMP (0) or RCOMP (1) from a port to an initiator. -/
def Block.complete (b : Block) (op stn port dst tag status beats arg : Nat) : Block :=
  b.sendRsp stn port (rspFlit op status dst tag beats stn port arg)

/-! Ledgers (R482 to R484). -/

/-- The key of a ledger entry. -/
def ledgerKey (ini tag : Nat) : Nat := ini * 1024 + tag

/-- A ledger entry of an initiator. -/
def Block.ledgerAt (b : Block) (ini tag : Nat) : LedgerEntry := b.ledger.get (fun _ => {}) (ledgerKey ini tag)

/-- The block with a ledger entry replaced. -/
def Block.setLedger (b : Block) (ini tag : Nat) (e : LedgerEntry) : Block :=
  { b with ledger := b.ledger.set (fun _ => {}) (ledgerKey ini tag) e }

/-- An entry opens when its request leaves the initiator's port (R482). -/
def Block.ledgerOpen (b : Block) (ini tag op addr stn port beats : Nat) : Block :=
  b.setLedger ini tag
    { state := .opened, openTime := b.ts, addr := bitsOf addr 39 2, node := bitsOf addr 63 52, dstStn := stn,
      dstPort := port, op := op, beatsReq := beats, limit := b.reg Reg.ledgerLimitUs, openAt := b.run }

/-- The LEDGER flit of a close that is not OK, sent to initiator 368 (R258, R484): status, tag, committed beats and the
reporting initiator. -/
def Block.ledgerReport (b : Block) (ini tag status beats : Nat) : Block :=
  let (stn, port) := b.iniPlace ini
  b.sendRsp stn port (rspFlit 3 status 368 tag beats stn port (ini * 2 ^ 10))

/-- An open entry takes its one final status (R25, R482), and a close that is not OK is reported (R484). -/
def Block.ledgerClose (b : Block) (ini tag status beats : Nat) : Block :=
  let e := b.ledgerAt ini tag
  if e.state = .opened then
    let b := b.setLedger ini tag { e with state := .closed, status := status, beatsDone := beats }
    if status = Status.ok then b else b.ledgerReport ini tag status beats
  else b

/-- A completion that becomes visible after its transaction closed is discarded, counted and logged with its count
(R28). -/
def Block.late (b : Block) (ini tag status beats : Nat) : Block :=
  let e := b.ledgerAt ini tag
  (b.count Reg.lateCompletions 1).logEvent 0x0403 0 ini
    (beats % 128 + status % 16 * 2 ^ 8 + tag * 2 ^ 16 + e.beatsDone % 128 * 2 ^ 32 + e.status * 2 ^ 44)

/-- The lowest tag of an initiator, from `lo` and of `n`, whose entry is not open. -/
def Block.freeTag (b : Block) (ini lo n : Nat) : Option Nat :=
  ((List.range n).map (lo + ·)).find? (fun q => (b.ledgerAt ini q).state != .opened)

end Sys2Proof.Machine
end

