-- ==== Sys2Proof/Machine/Memory.lean ====
section
/-! DEFINITION. Stacked memory: the data arrays under the DT79 code, the voted line state, reads and writes of one line
at a bank, the port caches, and the correction counters that lead to column repair and bank retirement. -/

namespace Sys2Proof.Machine

open Sys2Proof

/-! Addresses (Table 1.7, Table 5.1). -/

abbrev libBase : Nat := 0x800000000
abbrev ringBase : Nat := 0x900000000
abbrev mboxBase : Nat := 0xA00000000

/-- The bank of a user line (local offset div 64); `none` in library memory. -/
def bankOfLine (l : Nat) : Option Nat :=
  if l < 2 ^ 25 then some (64 * bitsOf (64 * l) 30 30 + bitsOf (64 * l) 21 16) else none

/-- The frame of a user line. -/
def frameOfLine (l : Nat) : Nat := l / 1024

/-- The bank of a frame (R129). -/
def bankOfFrame (f : Nat) : Nat := 64 * bitsOf f 14 14 + f % 64

/-- The memory die of a user line. -/
def memDie (l : Nat) : Nat := bitsOf (64 * l) 30 30

/-- The line within its bank (LAST_UE_LINE): BANK_PAGE, then LINE. -/
def lineInBank (l : Nat) : Nat := bitsOf (64 * l) 29 22 * 1024 + l % 1024

/-! The arrays. -/

/-- A byte of the data arrays; an unlisted byte reads 0. -/
def Mem.cell (m : Mem) (a : Nat) : Byte := SMap.look (α := Byte) m.cells a

/-- The data arrays with a byte written. -/
def Mem.setCell (m : Mem) (a : Nat) (v : Byte) : Mem := { m with cells := SMap.put (α := Byte) m.cells a v }

/-- Bytes written at successive addresses. -/
def Mem.setCells (m : Mem) : Nat → List Byte → Mem
  | _, [] => m
  | a, v :: vs => (m.setCell a v).setCells (a + 1) vs

/-- The column word of word w. -/
def Mem.colWord (m : Mem) (w : Nat) : Nat := bytesVal ((List.range 10).map (fun j => m.cell (10 * w + j)))

/-- The arrays with a column word written. -/
def Mem.setColWord (m : Mem) (w v : Nat) : Mem := m.setCells (10 * w) (bytesOf 10 v)

/-- The voted state of a line: VALID and POISON, each the majority of its three copies (R150). -/
def Mem.lineState (m : Mem) (l : Nat) : Bool × Bool :=
  let x := m.lines.look l
  (b2n (x.testBit 0) + b2n (x.testBit 2) + b2n (x.testBit 4) ≥ 2,
   b2n (x.testBit 1) + b2n (x.testBit 3) + b2n (x.testBit 5) ≥ 2)

/-- The six state bits that hold a state in agreement. -/
def stateBits (v p : Bool) : Nat := (b2n v + 2 * b2n p) * 21

/-- The copies of a line's state that disagree with the vote. -/
def Mem.badCopies (m : Mem) (l : Nat) : Nat :=
  let x := m.lines.look l
  let (v, p) := m.lineState l
  ((List.range 3).filter (fun k => x.testBit (2 * k) != v || x.testBit (2 * k + 1) != p)).length

/-- The canonical form of memory: addresses strictly rising and nothing listed that an unlisted place reads as. -/
def Mem.wf (m : Mem) : Bool :=
  SMap.wf (α := Byte) (fun _ => default) m.cells && SMap.wf (α := Nat) (fun _ => default) m.lines

/-- The memory array of the block with the state of a line written. -/
def Block.setLineState (b : Block) (l : Nat) (v p : Bool) : Block :=
  { b with mem := { b.mem with lines := b.mem.lines.put l (stateBits v p) } }

/-! Bank state (R163, R164). -/

/-- Whether a bank is retired. -/
def Block.bankRetired (b : Block) (bank : Nat) : Bool := b.reg (Reg.bankState bank) == 3

/-- A change of bank state, logged; DRAINING starts its grace period (R163, R164). The frames of a bank that becomes
PROPOSED or DRAINING leave the pool (R227). -/
def Block.setBankState (b : Block) (bank st : Nat) : Block :=
  let b := (b.setReg (Reg.bankState bank) st).logEvent 0x0301 2 bank st
  let pool := if st = 1 ∨ st = 2 then b.mig.pool.filter (fun f => bankOfFrame f != bank) else b.mig.pool
  let b := { b with mig := { b.mig with pool := pool } }
  { b with mem := { b.mem with drainSince := b.mem.drainSince.put bank (if st = 2 then some b.run else none) } }

/-- The grace periods of DRAINING banks started again (R165). -/
def Block.restartGrace (b : Block) (here : Nat → Bool) : SMap (Option Nat) :=
  b.mem.drainSince.map (fun (e : Nat × Option Nat) => if here e.1 then (e.1, e.2.map (fun _ => b.run)) else e)

/-- The retirement limit (R163): a bank in service that reaches it becomes DRAINING, or PROPOSED in host-assisted
mode. -/
def Block.retireLimit (b : Block) (bank : Nat) : Block :=
  if b.reg (Reg.bankState bank) = 0 ∧
      (b.reg (Reg.ue bank) ≥ b.reg Reg.retireUeLimit ∨ b.reg (Reg.cePass bank) ≥ b.reg Reg.retireCeLimit) then
    b.setBankState bank (if b.fmode fnMemScrub = 0 then 2 else 1)
  else b

/-! Column repair (R162). -/

/-- The repaired position of a bank while its repair is in use. -/
def Block.repairInUse (b : Block) (bank : Nat) : Option Nat :=
  if (b.reg (Reg.repair bank)).testBit 15 then some (b.reg (Reg.repair bank) % 128) else none

/-- The repaired position of a bank while its repair is armed or in use. -/
def Block.repairStores (b : Block) (bank : Nat) : Option Nat :=
  if (b.reg (Reg.repair bank)).testBit 15 || (b.reg (Reg.repair bank)).testBit 14 then
    some (b.reg (Reg.repair bank) % 128)
  else none

/-- A correction at a position of a line: the counter of distinct lines, and the arming of the repair. -/
def Block.notePosition (b : Block) (bank l j : Nat) : Block :=
  let ls := b.mem.posLines.look (80 * bank + j)
  if ls.contains l then b
  else
    let b := { b with mem := { b.mem with posLines := b.mem.posLines.put (80 * bank + j) (l :: ls) } }
    if ls.length + 1 ≥ b.reg Reg.repairThreshold ∧ b.reg (Reg.repair bank) < 2 ^ 14 then
      b.setReg (Reg.repair bank) (2 ^ 14 + j)
    else b

/-- The word as the decoder sees it: the repaired column taken from SPARE (R146, R162). -/
def Block.readColumn (b : Block) (l w : Nat) : Nat :=
  let x := b.mem.colWord w
  match (bankOfLine l).bind b.repairInUse with
  | some j => putBit x j (x.testBit 79)
  | none => x

/-- A column word stored: the armed position's bit also goes into SPARE (R162). -/
def Block.writeColumn (b : Block) (l w x : Nat) : Block :=
  let x := match (bankOfLine l).bind b.repairStores with
    | some j => putBit x 79 (x.testBit j)
    | none => putBit x 79 false
  { b with mem := b.mem.setColWord w x }

/-! Reading and writing a line at its bank. -/

/-- One word of a valid line, decoded, its correction written back and counted (R147, R154, R158); answers the data,
whether it was uncorrectable, and the block. -/
def Block.readWord (b : Block) (l i : Nat) : Nat × Bool × Block :=
  let w := 8 * l + i
  let x := b.readColumn l w
  let o := dtDecode x
  let y := o.apply x
  match o with
  | .clean => (dtData y, false, b)
  | .uncorrectable => (dtData y, true, b)
  | _ =>
    let b := b.writeColumn l w y
    match bankOfLine l with
    | none => (dtData y, false, b)
    | some bank =>
      let b := match o with
        | .single _ => b.count (Reg.ce1 bank) 1
        | _ => b.count (Reg.ce2 bank) 1
      let b := o.positions.foldl (fun b j => b.notePosition bank l j) (b.count (Reg.cePass bank) 1)
      (dtData y, false, b)

/-- The eight words of a valid line: the data, the number of uncorrectable words, and the block. -/
def Block.readWords (b : Block) (l : Nat) : Nat → Nat × Nat × Block
  | 0 => (0, 0, b)
  | n + 1 =>
    let (d, u, b) := b.readWords l n
    let (x, bad, b) := b.readWord l n
    (d + x * 2 ^ (64 * n), u + b2n bad, b)

/-- The voting of a line's state: copies that disagree are rewritten and counted (R150). -/
def Block.voteLine (b : Block) (l : Nat) : Bool × Bool × Block :=
  let (v, p) := b.mem.lineState l
  let n := b.mem.badCopies l
  if n = 0 then (v, p, b)
  else (v, p, (b.setLineState l v p).count Reg.voteMends n)

/-- A line found uncorrectable for the first time: POISON set, the words counted and logged, the retirement limit
judged (R151, R158, R163). -/
def Block.newUe (b : Block) (l words : Nat) : Block :=
  let b := b.setLineState l true true
  match bankOfLine l with
  | none => b
  | some bank =>
    let b := (b.count (Reg.ue bank) words).count (Reg.poisonedLines bank) 1
    let b := (b.setReg (Reg.lastUeLine bank) (lineInBank l)).setReg (Reg.lastUeTime bank) b.ts
    (b.logEvent 0x0302 2 bank (lineInBank l)).retireLimit bank

/-- The retirement limit of a line's bank, after corrections. -/
def Block.afterRead (b : Block) (l : Nat) : Block :=
  match bankOfLine l with
  | some bank => b.retireLimit bank
  | none => b

/-- A read of a line at its bank (R152, R153, R523): the data, whether poisoned, and the block. -/
def Block.readLine (b : Block) (l : Nat) : Nat × Bool × Block :=
  match b.voteLine l with
  | (false, p, b) => (0, p, b)
  | (true, p, b) =>
    let (d, u, b) := b.readWords l 8
    let b := if u > 0 ∧ !p then b.newUe l u else b.afterRead l
    (d, p || u > 0, b)

/-- The eight words of a line stored with fresh check bits. -/
def Block.storeWords (b : Block) (l d : Nat) : Block :=
  (List.range 8).foldl (fun b i => b.writeColumn l (8 * l + i) (dtEncode (bitsOf d (64 * i + 63) (64 * i)))) b

/-- The state of a line after a write, and the count of poisoned lines of its bank. -/
def Block.noteState (b : Block) (l : Nat) (was now : Bool) : Block :=
  let b := b.setLineState l true now
  match bankOfLine l with
  | none => b
  | some bank =>
    if now && !was then b.count (Reg.poisonedLines bank) 1
    else if was && !now then b.setReg (Reg.poisonedLines bank) (b.reg (Reg.poisonedLines bank) - 1)
    else b

/-- Every byte enable set. -/
abbrev fullMask : Nat := 2 ^ 64 - 1

/-- A line with the enabled bytes replaced. -/
def mergeLine (old new mask : Nat) : Nat :=
  (List.range 64).foldl (fun d j => if mask.testBit j then putBits d (8 * j + 7) (8 * j) (new >>> (8 * j)) else d) old

/-- The line dropped from every port cache of its die but that of the issuing port (R137). -/
def Block.invalidate (b : Block) (l : Nat) (issuer : Option Nat) : Block :=
  let drop (e : Nat × List (Nat × Nat)) : Nat × List (Nat × Nat) :=
    if (e.1 / 128) / 136 = memDie l ∧ some (e.1 / 128) ≠ issuer then (e.1, e.2.filter (fun x => x.1 != l)) else e
  { b with mem := { b.mem with caches := (b.mem.caches.map drop).filter (fun e => !e.2.isEmpty) } }

/-- A write of a line at its bank (R135, R151 to R153, R523): the status and the block. A partial write reads, merges
and writes in one access. -/
def Block.writeLine (b : Block) (l data mask : Nat) (poison : Bool) (issuer : Option Nat) : Nat × Block :=
  let b := b.invalidate l issuer
  match b.voteLine l with
  | (v, p, b) =>
    if mask = fullMask then
      ((if poison then Status.poison else Status.ok), (b.storeWords l data).noteState l p poison)
    else if !v then
      let b := (b.storeWords l (mergeLine 0 data mask)).noteState l p (p || poison)
      ((if p || poison then Status.poison else Status.ok), b)
    else
      let (d, u, b) := b.readWords l 8
      let b := if u > 0 ∧ !p then b.newUe l u else b.afterRead l
      let p' := p || u > 0
      let b := (b.storeWords l (mergeLine d data mask)).noteState l p' (p' || poison)
      ((if p' || poison then Status.poison else Status.ok), b)

/-! Bytes in user memory, for the engines of the device that read and write tables there. -/

/-- Whether an offset lies in user memory and its bank is in service. -/
def Block.userStatus (b : Block) (a : Nat) : Nat :=
  match bankOfLine (a / 64) with
  | some bank => if b.bankRetired bank then Status.retired else Status.ok
  | none => Status.accessDenied

/-- Up to `n` bytes from local offset `a`, within lines of user or library memory: the value, whether any line was
poisoned, and the block. -/
def Block.readBytes (b : Block) (a n : Nat) : Nat × Bool × Block :=
  let first := a / 64
  let count := (a + n + 63) / 64 - first
  let r := (List.range count).foldl (fun (acc : Nat × Bool × Block) i =>
    let (d, p, b) := acc
    let (x, q, b) := b.readLine (first + i)
    (d + x * 2 ^ (512 * i), p || q, b)) (0, false, b)
  (byteSlice r.1 (a % 64) n, r.2.1, r.2.2)

/-- The byte mask of bytes `from'` to `to - 1` of line number `i` of an access. -/
def maskFor (a n l : Nat) : Nat :=
  maskOf ((List.range 64).filter (fun j => a ≤ 64 * l + j && 64 * l + j < a + n))

/-- `n` bytes of `v` written from local offset `a`: the first status that is not OK, and the block. -/
def Block.writeBytes (b : Block) (a n v : Nat) : Nat × Block :=
  let first := a / 64
  let count := (a + n + 63) / 64 - first
  let whole := v % 256 ^ n * 256 ^ (a % 64)
  (List.range count).foldl (fun (acc : Nat × Block) i =>
    let (st, b) := acc
    let (st', b) := b.writeLine (first + i) (bitsOf whole (512 * i + 511) (512 * i)) (maskFor a n (first + i)) false none
    ((if st = Status.ok then st' else st), b)) (Status.ok, b)

/-- Whether a range meets the target range of a LIBRARY segment that has started of a context package in progress: reads of it are denied
until the package ends (R379). -/
def Block.libraryHeld (b : Block) (a n : Nat) : Bool :=
  match b.cfg.pkgJob with
  | some j => j.targets.any (fun e => decide (a < e.1 + e.2 ∧ e.1 < a + n))
  | none => false

/-! Wipes (R155, R156). -/

/-- The lines of a bank or of a frame. -/
def wipeCovers (frame : Bool) (u l : Nat) : Bool :=
  if frame then decide (l < 2 ^ 25) && frameOfLine l == u else bankOfLine l == some u

/-- The state of every line of a bank or frame cleared, and its lines dropped from every port cache (R155, R156). -/
def Block.wipeLines (b : Block) (frame : Bool) (u : Nat) : Block :=
  let poisoned := (b.mem.lines.filter (fun e => wipeCovers frame u e.1 && (b.mem.lineState e.1).2)).length
  let drop (e : Nat × List (Nat × Nat)) := (e.1, e.2.filter (fun x => !wipeCovers frame u x.1))
  let b := { b with mem := { b.mem with
    lines := b.mem.lines.filter (fun e => !wipeCovers frame u e.1)
    caches := (b.mem.caches.map drop).filter (fun e => !e.2.isEmpty) } }
  let bank := if frame then bankOfFrame u else u
  b.setReg (Reg.poisonedLines bank) (b.reg (Reg.poisonedLines bank) - poisoned)

/-- Whether a line waits for a wipe in progress, the host's or that of a frame being added to the pool (R155, R225). -/
def Block.wiping (b : Block) (l : Nat) : Bool :=
  (match b.mem.wipe with
    | some (frame, u) => wipeCovers frame u l
    | none => false) ||
  (match b.mig.adding with
    | some f => wipeCovers true f l
    | none => false)

/-- Whether any line of a range waits for a wipe in progress. -/
def Block.rangeWipes (b : Block) (a n : Nat) : Bool :=
  (List.range ((a % 64 + n + 63) / 64)).any (fun i => b.wiping (a / 64 + i))

/-- An engine's access to a range: one that meets a wipe holds its engine back (R155). -/
def Block.meets (b : Block) (a n : Nat) : Block :=
  if b.rangeWipes a n then { b with mem := { b.mem with stalled := true } } else b

/-- An engine's work whose accesses wait for the end of a wipe that they meet, and which then does not fall yet (R155, R156). -/
def Block.unlessWiped (b : Block) (f : Block → Block) : Block :=
  let b := { b with mem := { b.mem with stalled := false } }
  if (f b).mem.stalled then b else f b

/-! Port caches (R136). -/

/-- The set of a line. -/
def cacheKey (p l : Nat) : Nat := 128 * p + l % 128

/-- A line held by a port's cache. -/
def Block.cached (b : Block) (p l : Nat) : Option Nat :=
  ((b.mem.caches.look (cacheKey p l)).find? (fun e => e.1 == l)).map (·.2)

/-- A line made the most recent of its set, and the least recent of eight dropped. -/
def Block.cachePut (b : Block) (p l d : Nat) : Block :=
  let set := (l, d) :: (b.mem.caches.look (cacheKey p l)).filter (fun e => e.1 != l)
  { b with mem := { b.mem with caches := b.mem.caches.put (cacheKey p l) (set.take 8) } }

end Sys2Proof.Machine
end

