-- ==== Sys2Proof/Machine/Route.lean ====
section
/-! DEFINITION. Addresses and routes: the ranges of the local offset map, the route table, and the destination of an
access (R19 to R22, R260, R346, R347). -/

namespace Sys2Proof.Machine

open Sys2Proof

/-- The range of Table 1.7 that holds an offset: 0 MA, 1 MB, 2 library window, 3 rings and doorbells, 4 mailbox. -/
def rangeOf (a : Nat) : Option Nat :=
  if a < 2 ^ 30 then some 0
  else if a < 2 ^ 31 then some 1
  else if libBase ≤ a ∧ a < libBase + 2 ^ 28 then some 2
  else if ringBase ≤ a ∧ a < ringBase + 2 ^ 24 then some 3
  else if mboxBase ≤ a ∧ a < mboxBase + 2 ^ 20 then some 4
  else none

/-- The range that holds all of `n` bytes from an offset (R20). -/
def rangeOfAll (a n : Nat) : Option Nat :=
  if n = 0 then rangeOf a
  else if rangeOf a = rangeOf (a + n - 1) then rangeOf a else none

/-! Links (R312, R347). -/

/-- Whether a link index starts a link of its octet's layout. -/
def Block.startsLink (b : Block) (lk : Nat) : Bool := (b.reg (Reg.linkLayout (lk / 8))).testBit (lk % 8)

/-- The configured width of a link: the distance to the next start, or to lane 8. -/
def Block.linkWidth (b : Block) (lk : Nat) : Nat :=
  match ((List.range 8).filter (fun i => lk % 8 < i && b.startsLink (8 * (lk / 8) + i))).head? with
  | some i => i - lk % 8
  | none => 8 - lk % 8

/-- Choice c of a route entry: its link index, where it is valid (Table 10.8). -/
def routeChoice (e c : Nat) : Option Nat :=
  let f := bitsOf e (10 * c + 9) (10 * c)
  if f.testBit 9 then some (f % 512) else none

/-- Whether choice c of an entry is usable for a node (R347). -/
def Block.choiceUsable (b : Block) (n e c : Nat) : Bool :=
  match routeChoice e c with
  | some lk => b.startsLink lk && (b.reg (Reg.linkState lk) == 3 || b.reg (Reg.linkState lk) == 4) &&
      decide (b.link.holdoff.look (512 * n + lk) ≤ b.run)
  | none => false

/-- The usable choices of a node, lowest first; none while the entry has V = 0. -/
def Block.usableChoices (b : Block) (n : Nat) : List Nat :=
  let e := b.link.routes.look n
  if e.testBit 63 then (List.range 4).filter (b.choiceUsable n e) else []

/-- CUR of a node's entry. -/
def routeCur (e : Nat) : Nat := bitsOf e 41 40

/-- The block with CUR of a node's entry changed, counted (R347). -/
def Block.setCur (b : Block) (n c : Nat) : Block :=
  let e := b.link.routes.look n
  if routeCur e = c then b
  else { b with link := { b.link with routes := b.link.routes.put n (putBits e 41 40 c) } }.count Reg.routeSwitches 1

/-- CUR brought to a usable choice where it is not one, for every node with a route (R347). -/
def Block.refreshRoutes (b : Block) : Block :=
  b.link.routes.foldl (fun b e =>
    match b.usableChoices e.1 with
    | [] => b
    | c :: cs => if (c :: cs).contains (routeCur (b.link.routes.look e.1)) then b else b.setCur e.1 c) b

/-- The link a packet for a node takes, if any. -/
def Block.routeTo (b : Block) (n : Nat) : Option Nat :=
  let us := b.usableChoices n
  let e := b.link.routes.look n
  if us.contains (routeCur e) then routeChoice e (routeCur e)
  else us.head?.bind (routeChoice e)

/-! Destinations. -/

/-- The station port that serves a local offset (Table 8.12). -/
def localPort (a : Nat) : Nat × Nat :=
  if a < 2 ^ 31 then (tapStation (a / 2 ^ 30) (bitsOf a 21 16 % 16), 7)
  else if a < ringBase then (65, 2)
  else if a < mboxBase then (64, 1)
  else (64, 2)

/-- Whether an initiator may make an access to the library window (R21). -/
def libraryAllows (ini : Nat) (write : Bool) : Bool := ini == 369 || (decide (320 ≤ ini ∧ ini ≤ 351) && !write)

/-- The destination of an access, or the status with which its initiator completes it (R19 to R22, R260, R347). An access whose bytes
do not all lie in one range is refused whatever its node, for the map is every device's (DEDUCED, log 194). -/
def Block.destOf (b : Block) (ini node a n : Nat) (write : Bool) : Nat × Nat × Nat :=
  match rangeOfAll a n with
  | none => (Status.accessDenied, 0, 0)
  | some range =>
    if node ≠ b.node then
      match b.routeTo node with
      | some lk => (Status.ok, lk / 8, 0)
      | none => (Status.pathLost, 0, 0)
    else if range = 2 then (if libraryAllows ini write then (Status.ok, 65, 2) else (Status.accessDenied, 0, 0))
    else (Status.ok, (localPort a).1, (localPort a).2)

/-- Whether the access's offset is reserved or straddles ranges, which is counted (R19, R20). -/
def reservedOffset (a n : Nat) : Bool := (rangeOfAll a n).isNone

end Sys2Proof.Machine
end

