-- ==== Sys2Proof/Machine/Access.lean ====
section
/-! DEFINITION. How an initiator splits an access to a global address into transactions, and sends them (R22, R255, R260). -/

namespace Sys2Proof.Machine

open Sys2Proof

/-- The tags of an initiator's own accesses. -/
def iniTags (ini : Nat) : Nat × Nat := if ini = 368 then (512, 512) else (0, 64)

/-- The most lines that a transaction of an initiator's access carries: 64 (R255), and for the PCIe endpoint its payload of 512 bytes
(R398). -/
def payloadLines (ini : Nat) : Nat := if ini = 368 then 8 else 64

/-- Lines cut so that each piece lies in one frame and has at most `p` of them (R255); `k` bounds the pieces. -/
def cutLines (p : Nat) : Nat → Nat → Nat → List (Nat × Nat)
  | 0, _, _ => []
  | k + 1, l, n =>
    let m := min n (min p (1024 - l % 1024))
    if n = 0 then [] else (l, m) :: cutLines p k (l + m) (n - m)

/-- The beat of line `l` in a write of `n` bytes of value `v` at offset `a`. -/
def lineBeat (a n v l : Nat) : Beat :=
  let lo := max a (64 * l)
  let hi := min (a + n) (64 * l + 64)
  mkBeat (v / 256 ^ (lo - a) % 256 ^ (hi - lo) * 256 ^ (lo - 64 * l)) false ((2 ^ (hi - lo) - 1) * 2 ^ (lo - 64 * l))

/-- The transactions that an access of `n` bytes is split into (R255): 4 or 8 aligned bytes as such, else the lines it covers, at
most `p` of them. Each has
its SIZE, LEN and offset, and the beats of a write. -/
def accessPieces (ini node a n : Nat) (write : Bool) (v p : Nat) : List Unsent :=
  if n = 4 ∧ a % 4 = 0 then [⟨ini, node, a, write, 1, 0, if write then [lineBeat a n v (a / 64)] else []⟩]
  else if n = 8 ∧ a % 8 = 0 then [⟨ini, node, a, write, 2, 0, if write then [lineBeat a n v (a / 64)] else []⟩]
  else
    let first := a / 64
    let lines := (a + n - 1) / 64 + 1 - first
    (cutLines p lines first lines).map (fun e =>
      ⟨ini, node, 64 * e.1, write, 0, e.2 - 1, if write then (List.range e.2).map (fun i => lineBeat a n v (e.1 + i)) else []⟩)

/-! The BARs of the PCIe endpoint (Table 12.6). -/

/-- The offset in its BAR of a local offset that the endpoint reaches: BAR0 is the mailbox, BAR4 the rings and doorbells. -/
def barOffset (a : Nat) : Nat :=
  let a := a % 2 ^ 52
  if mboxBase ≤ a ∧ a < mboxBase + 2 ^ 20 then a - mboxBase
  else if ringBase ≤ a ∧ a < ringBase + 2 ^ 24 then a - ringBase
  else a

/-- A posted write that completed with a status other than OK is counted and logged (R400). -/
def Block.barWriteError (b : Block) (off status : Nat) : Block :=
  (b.count Reg.barWriteErrors 1).logEvent 0x0405 0 368 (off % 2 ^ 40 + status % 16 * 2 ^ 40)

/-- The end of an access at its initiator with a status other than OK and no data; the endpoint answers a read with Completer Abort (code 4
of a PCIe completion, PRESUMED, log 217). -/
def Block.refuseAccess (b : Block) (ini a : Nat) (write : Bool) (st : Nat) : Block :=
  if ini ≠ 368 then b.emit .completion ini [st, 0]
  else if write then b.barWriteError (barOffset a) st
  else b.emit .pcie 0 [4, 0]

/-- A transaction leaves its initiator's port under a tag, or is completed by the initiator where nothing can be sent (R260). -/
def Block.sendPiece (b : Block) (tag : Nat) (u : Unsent) : Block :=
  let (st, stn, port) := b.destOf u.ini u.node u.addr 1 u.write
  if st ≠ Status.ok then
    (if st = Status.pathLost then b.count Reg.pathLostCompletions 1 else b).refuseAccess u.ini u.addr u.write st
  else
    let b := b.ledgerOpen u.ini tag (b2n u.write) (u.node * 2 ^ 52 + u.addr) stn port (u.len + 1)
    let b := b.sendReq (reqFlit (b2n u.write) u.size u.len u.ini tag stn port u.node u.addr)
    if u.write then
      b.sendDat (b.iniPlace u.ini).1 (b.iniPlace u.ini).2 (datSideband 0 stn port u.ini tag (u.len + 1) 0 0) u.beats
    else b

/-- The transactions of an initiator that wait for a tag are sent, in order, while it has one; `k` bounds them. -/
def Block.sendUnsent (ini : Nat) : Nat → Block → Block
  | 0, b => b
  | k + 1, b =>
    match b.net.unsent.find? (fun u => u.ini == ini), b.freeTag ini (iniTags ini).1 (iniTags ini).2 with
    | some u, some tag =>
      Block.sendUnsent ini k ({ b with net := { b.net with unsent := b.net.unsent.erase u } }.sendPiece tag u)
    | _, _ => b

end Sys2Proof.Machine
end

