-- ==== Sys2Proof/Machine/Awaited.lean ====
section
/-! DEFINITION. The coincidence of a limit with the event it waits for (R26): the event wins when it is visible at the evaluating
edge (R27), which is when its command waits in the queue with the limit's own time and ends the wait when it is taken. -/

namespace Sys2Proof.Machine

open Sys2Proof

/-- The state after a meaning, where it goes on. -/
def State.taken (s : State) (f : State → Host.Outcome State Fault Refusal) : State :=
  match f s with
  | .next u => u
  | _ => s

/-- The state once those of the waiting commands that `ev` names, with their meanings, have been taken in their order: an event that has
not reached its unit, or is none of what the unit waits for, changes nothing of the wait there (R27). -/
def State.settle (s : State) (ev : Instr → Option (State → Host.Outcome State Fault Refusal)) : State :=
  s.pending.foldl (fun u d => match ev d with
    | some f => u.taken f
    | none => u) s

/-- The block after the row of a limit reached at time `t`: its effect, unless the awaited event has won (R26). -/
def State.limit (s : State) (won : Bool) (t : Nat) (b : Block) : Block := if won then s.blk.at t else b

/-- A meaning, where its time is that of the limit. -/
def atEdge (t t' : Nat) (f : State → Host.Outcome State Fault Refusal) : Option (State → Host.Outcome State Fault Refusal) :=
  if t' = t then some f else none

end Sys2Proof.Machine
end

