-- ==== Sys2Proof/Machine/Codes.lean ====
section
/-! DEFINITION. The checks and codes of the lanes and links: the CRCs of R282, R316 and R364, the blocks of a lane on the line with
their scrambler and their comma (R278 to R280), and the Reed-Solomon code RS(544,514) over GF(2^10) of R283. -/

namespace Sys2Proof.Machine

open Sys2Proof

/-! CRCs, without reflection, first bit first. -/

/-- One bit into a CRC register of width `w` with generator `g`. -/
def crcBit (w g r : Nat) (x : Bool) : Nat :=
  let fb := xor (r.testBit (w - 1)) x
  let r := r * 2 % 2 ^ w
  if fb then r ^^^ g else r

/-- Bits `n - 1` down to 0 of `v` into a CRC register. -/
def crcBits (w g v : Nat) : Nat → Nat → Nat
  | 0, r => r
  | n + 1, r =>
    -- the match has the register computed before the next bit, so that long messages can be evaluated
    match crcBit w g r (v.testBit n) with
    | 0 => crcBits w g v n 0
    | k + 1 => crcBits w g v n (k + 1)

/-- CRC16 of a control block's bits [127:16] (R282). -/
def crc16 (blk : Nat) : Nat := crcBits 16 0x1021 (blk / 2 ^ 16) 112 0xFFFF

/-- Whether a control block's CRC16 holds. -/
def crc16Ok (blk : Nat) : Bool := crc16 blk == blk % 2 ^ 16

/-- A control block with its CRC16. -/
def withCrc16 (blk : Nat) : Nat := putBits blk 15 0 (crc16 (putBits blk 15 0 0))

/-- CRC-32C of a container's bits [575:544] and [511:0] (R316). -/
def containerCrc (c : Nat) : Nat :=
  let r := crcBits 32 0x1EDC6F41 (c / 2 ^ 544) 32 0xFFFFFFFF
  crcBits 32 0x1EDC6F41 (c % 2 ^ 512) 512 r ^^^ 0xFFFFFFFF

/-! Blocks on the line (R278 to R280, R291). A block is 130 bits: the header, then the payload. -/

/-- The comma: header 0b00 and its payload (R280). -/
abbrev comma : Nat := 0x9E3C5A0F61D2B748E51C3F862DA9704B

/-- A control block and a data block before scrambling: headers 0b10 and 0b01 (Table 9.2). -/
abbrev controlBlock (payload : Nat) : Nat := 2 * 2 ^ 128 + payload
abbrev dataBlock (payload : Nat) : Nat := 2 ^ 128 + payload

/-- The IDLE and EIOS control blocks (Table 9.3). -/
abbrev idleBlock : Nat := controlBlock (0x1E * 2 ^ 120)
abbrev eiosBlock : Nat := controlBlock (0x4B * 2 ^ 120)

/-- One bit of the scrambler, which keeps the last 58 bits sent, the latest at bit 0: the bit sent (R279). -/
def scrambleBit (h : Nat) (d : Bool) : Bool := xor d (xor (h.testBit 38) (h.testBit 57))

/-- Bits `n - 1` down to 0 of a payload scrambled, with the history before and after. -/
def scramble (d : Nat) : Nat → Nat → Nat × Nat
  | 0, h => (0, h)
  | n + 1, h =>
    let s := scrambleBit h (d.testBit n)
    let (r, h') := scramble d n ((2 * h + b2n s) % 2 ^ 58)
    (b2n s * 2 ^ n + r, h')

/-- The receiver's reversal: its history is of the bits received. -/
def descramble (s : Nat) : Nat → Nat → Nat × Nat
  | 0, h => (0, h)
  | n + 1, h =>
    let d := scrambleBit h (s.testBit n)
    let (r, h') := descramble s n ((2 * h + b2n (s.testBit n)) % 2 ^ 58)
    (b2n d * 2 ^ n + r, h')

/-- A block as it is sent, and the history after it: the payload of a data or control block is scrambled; an alignment block is not, and
does not count in the history (R279, R280). -/
def lineBlock (h blk : Nat) : Nat × Nat :=
  if blk / 2 ^ 128 = 0 then (blk, h)
  else
    let (s, h') := scramble (blk % 2 ^ 128) 128 h
    (blk / 2 ^ 128 * 2 ^ 128 + s, h')

/-- The sequence of a generator whose terms have the exponents `taps`, from the last `w` bits on, the latest at bit 0: `n` bits, the
first the most significant (R302, R308). -/
def prbs (w : Nat) (taps : List Nat) : Nat → Nat → Nat
  | 0, _ => 0
  | n + 1, h =>
    let x := taps.foldl (fun a t => xor a (h.testBit (t - 1))) false
    b2n x * 2 ^ n + prbs w taps n ((2 * h + b2n x) % 2 ^ w)

/-- The bits of a training burst of 2,048 symbols at a rate (R302). -/
def burstBits (rate : Nat) : Nat := prbs 13 [1, 2, 12, 13] (if rate < 2 then 4096 else 2048) (2 ^ 13 - 1)

/-- Width and terms of the test patterns (R308). -/
def testTaps (pattern : Nat) : Nat × List Nat :=
  if pattern = 0 then (7, [6, 7]) else if pattern = 1 then (13, [1, 2, 12, 13]) else (31, [28, 31])

/-- Bits set among the first `n`. -/
def onesIn (n v : Nat) : Nat := ((List.range n).filter (fun i => v.testBit i)).length

/-- Whether 130 received bits differ from a pattern in 4 bits or fewer (R291). -/
def nearBlock (blk pattern : Nat) : Bool := decide (onesIn 130 (blk ^^^ pattern) ≤ 4)

/-- The pattern M by which an inverted polarity alters a block: every bit in NRZ, the first bit of each symbol in PAM4 (R291). -/
def invertPattern (rate : Nat) : Nat := if rate < 2 then (2 ^ 130 - 1) / 3 * 2 else 2 ^ 130 - 1

/-- Whether received bits are a match, and if so whether with the inverted comma (R291). -/
def commaMatch (rate blk : Nat) : Option Bool :=
  if nearBlock blk comma then some false else if nearBlock blk (comma ^^^ invertPattern rate) then some true else none

/-! GF(2^10) with x^10 + x^3 + 1 (R283). -/

/-- Multiplication by x. -/
def gfX (a : Nat) : Nat := if a < 512 then 2 * a else (2 * a) % 1024 ^^^ 9

/-- Multiplication: bit by bit, the highest first. -/
def gfMul (a c : Nat) : Nat :=
  (List.range 10).foldl (fun r i => gfX r ^^^ (if c.testBit (9 - i) then a else 0)) 0

/-- Powers. -/
def gfPow (a : Nat) : Nat → Nat
  | 0 => 1
  | n + 1 => gfMul a (gfPow a n)

/-- The inverse of a nonzero element: its 1,022nd power, by squaring. -/
def gfInv (a : Nat) : Nat :=
  let step (acc : Nat × Nat) (_ : Nat) : Nat × Nat :=
    let s := gfMul acc.2 acc.2
    (gfMul acc.1 s, s)
  ((List.range 9).foldl step (1, a)).1

/-- The value of a polynomial, lowest coefficient first. -/
def gfEval (p : List Nat) (x : Nat) : Nat := p.foldr (fun c r => c ^^^ gfMul x r) 0

/-- The 30 syndromes of a word whose first symbol has the highest degree. -/
def rsSyndromes (word : List Nat) : List Nat :=
  (List.range 30).map (fun i => let x := gfPow 2 i; word.foldl (fun r s => gfMul r x ^^^ s) 0)

/-- The state of the Berlekamp-Massey recursion: locator, its last form, length, shift and last discrepancy. -/
structure BmState where
  c : List Nat
  p : List Nat
  len : Nat
  shift : Nat
  disc : Nat

/-- Element by element exclusive or. -/
def xorPoly : List Nat → List Nat → List Nat
  | [], q => q
  | p, [] => p
  | a :: p, c :: q => (a ^^^ c) :: xorPoly p q

/-- One step with syndrome number n. -/
def bmStep (s : List Nat) (z : BmState) (n : Nat) : BmState :=
  let d := (List.range (z.len + 1)).foldl (fun r i => r ^^^ gfMul (nthD z.c i 0) (nthD s (n - i) 0)) 0
  if d = 0 then { z with shift := z.shift + 1 }
  else
    let f := gfMul d (gfInv z.disc)
    let c' := xorPoly z.c (List.replicate z.shift 0 ++ z.p.map (gfMul f))
    if 2 * z.len ≤ n then ⟨c', z.c, n + 1 - z.len, 1, d⟩ else { z with c := c', shift := z.shift + 1 }

/-- The error locator of a list of syndromes, and its degree. -/
def rsLocator (s : List Nat) : List Nat × Nat :=
  let z := (List.range 30).foldl (bmStep s) ⟨[1], [1], 0, 1, 1⟩
  (z.c, z.len)

/-- What the decoder makes of a codeword (R286): clean or corrected by a number of symbols, or uncorrectable. -/
inductive RsOutcome where
  | corrected (n : Nat)
  | uncorrectable
  deriving DecidableEq, Repr

/-- Powers of α from `x` on, `n` of them, each times `m`. -/
def gfRun (m : Nat) : Nat → Nat → List Nat
  | 0, _ => []
  | n + 1, x => x :: gfRun m n (gfMul x m)

/-- Decoding of 544 symbols: an error at position j from the end is a root α^-j of the locator. More than 15, or a locator
that has not as many roots as its degree, cannot be corrected. -/
def rsDecode (word : List Nat) : RsOutcome :=
  let s := rsSyndromes word
  if s.all (· == 0) then .corrected 0
  else
    let (c, n) := rsLocator s
    let roots := ((gfRun (gfInv 2) 544 1).filter (fun x => gfEval c x == 0)).length
    if n ≤ 15 ∧ roots = n then .corrected n else .uncorrectable

/-! The encoder and the correction of errors (R283, R286). -/

/-- The generator, the product of (x − α^i) for i from 0 to 29: its coefficients, highest degree first. -/
def rsGenerator : List Nat :=
  (List.range 30).foldl (fun g i => xorPoly (g ++ [0]) (0 :: g.map (gfMul (gfPow 2 i)))) [1]

/-- The parity of a message, highest degree first: the remainder of its division by the generator. -/
def rsParity (msg : List Nat) : List Nat :=
  let g := rsGenerator.drop 1
  msg.foldl (fun r m =>
    let f := m ^^^ r.headD 0
    xorPoly (r.drop 1 ++ [0]) (g.map (gfMul f))) (List.replicate 30 0)

/-- The codeword of 514 message symbols: the parity follows the message on the line. -/
def rsEncode (msg : List Nat) : List Nat := msg ++ rsParity msg

/-- The 514 symbols of a message of 5,140 bits: the first bit is the most significant of the first symbol (R283). -/
def messageSymbols (msg : Nat) : List Nat := (List.range 514).map (fun i => bitsOf msg (5139 - 10 * i) (5130 - 10 * i))

/-- The product of two polynomials, lowest coefficient first. -/
def mulPoly : List Nat → List Nat → List Nat
  | [], _ => []
  | a :: p, q => xorPoly (q.map (gfMul a)) (0 :: mulPoly p q)

/-- The derivative of a polynomial: in this field the odd terms, one degree down. -/
def derivPoly (p : List Nat) : List Nat :=
  ((List.range p.length).drop 1).map (fun i => if i % 2 = 1 then nthD p i 0 else 0)

/-- The correction of a codeword that can be corrected: at each position whose inverse power is a root of the locator, counted from
the last symbol, the error's value is exclusive-ored (R286). -/
def rsCorrect (word : List Nat) : List Nat :=
  let s := rsSyndromes word
  let (c, _) := rsLocator s
  let omega := (mulPoly s c).take 30
  let deriv := derivPoly c
  let step := gfInv 2
  -- the inverse power of each position, from the last symbol back
  let powers := gfRun step 544 1
  (word.reverse.zip powers).reverse.map (fun e =>
    if gfEval c e.2 = 0 then e.1 ^^^ gfMul (gfMul (gfInv e.2) (gfEval omega e.2)) (gfInv (gfEval deriv e.2)) else e.1)

/-- The symbols of a codeword received with its polarity inverted, put right: each bit exclusive-ored with the pattern of M (R291). -/
def invertSymbols (rate : Nat) (word : List Nat) : List Nat := word.map (fun s => s ^^^ (if rate < 2 then 682 else 1023))

/-- The 5,140 message bits of a codeword, in transmission order (R283). -/
def messageBits (word : List Nat) : Nat := (word.take 514).foldl (fun a x => 1024 * a + x) 0

/-- The place of the comma among the message bits of a codeword: bits before it, a multiple of 10 (R284). -/
def commaPlace (msg : Nat) : Option Nat :=
  ((List.range 502).find? (fun i => nearBlock (bitsOf msg (5139 - 10 * i) (5010 - 10 * i)) comma)).map (10 * ·)

end Sys2Proof.Machine
end

