-- ==== Sys2Proof/Machine/Transmit.lean ====
section
/-! DEFINITION. The transmitter of a link (R278 to R284, R289, R290, R294, R313): blocks scrambled, put in codewords and sent, one on every
lane of the link in each block slot. Stretches of filler blocks between what the model gives a link to send are not shown beyond the codeword
that carries it (DESIGN CHOICE, log 74). -/

namespace Sys2Proof.Machine

open Sys2Proof

/-- A lane that sends: whether it has passed bring-up, and the TRAIN block it sends in it. -/
structure TxLane where
  lane : Nat
  goesUp : Bool
  train : Nat
  tx : LaneTx

/-- The lanes of one link that send, their block slot, the free values drawn, and what has been sent, latest first. -/
structure Tx where
  lanes : List TxLane
  slot : Nat
  free : Nat
  out : List Output := []

/-- A block put on a lane: scrambled, its bits added to the message, and a codeword sent once 5,140 bits are there (R279, R283). -/
def TxLane.put (x : TxLane) (blk : Nat) : TxLane × List Output :=
  let (y, h) := lineBlock x.tx.history blk
  let part := x.tx.part * 2 ^ 130 + y
  let n := x.tx.bits + 130
  if n < 5140 then ({ x with tx := { x.tx with history := h, part := part, bits := n } }, [])
  else
    ({ x with tx := { x.tx with history := h, part := part % 2 ^ (n - 5140), bits := n - 5140 } },
      [⟨.line, x.lane, rsEncode (messageSymbols (part / 2 ^ (n - 5140)))⟩])

/-- What a lane sends in a slot: TRAIN until an alignment block after it went UP, then the block it is given, or IDLE (R289, R290,
R294). -/
def TxLane.block (x : TxLane) (give : Option Nat) : Nat := if x.tx.up then give.getD idleBlock else x.train

/-- A lane at an alignment slot: one that begins starts a superframe, `f` its scrambler's history, which the spec does not state (DESIGN
CHOICE, log 210); what follows the comma is the link stream if the lane is UP (R280, R284, R294). -/
def TxLane.align (x : TxLane) (f : Nat) : TxLane :=
  if x.tx.on then { x with tx := { x.tx with up := x.goesUp, align := (x.tx.align + 1) % 514 } }
  else { x with tx := { on := true, up := x.goesUp, history := f % 2 ^ 58 } }

/-- Each lane gives a block, in order. -/
def Tx.putAll (t : Tx) (give : TxLane → Option Nat) : Tx :=
  let ys := t.lanes.map (fun x => match give x with
    | some blk => x.put blk
    | none => (x, []))
  { t with lanes := ys.map (·.1), out := (ys.flatMap (·.2)).reverse ++ t.out }

/-- The alignment slot: a comma on every lane, those that have not begun beginning with it (R280, R284). -/
def Tx.alignSlot (t : Tx) : Tx :=
  let ls := (t.lanes.zip (List.range t.lanes.length)).map (fun e => e.1.align (Config.freeValue (t.free + e.2)))
  { t with lanes := ls, free := t.free + ls.length }.putAll (fun _ => some comma)

/-- One block slot: before the first of each 1,024 the alignment block, on every lane in the same slot (R280); `give` names the blocks
given out, by lane. -/
def Tx.step (t : Tx) (give : Nat → Option Nat) : Tx :=
  if t.lanes.isEmpty then t
  else
    let t := if t.lanes.any (·.tx.on) then t else { t with slot := 0 }
    let t := if t.slot = 0 then t.alignSlot else t
    { t.putAll (fun x => if x.tx.on then some (x.block (give x.lane)) else none) with slot := (t.slot + 1) % 1024 }

/-- Slots with filler alone. -/
def Tx.fill (t : Tx) : Nat → Tx
  | 0 => t
  | n + 1 => (t.step (fun _ => none)).fill n

/-- Filler up to the given one of the 1,024 slots of an alignment period. -/
def Tx.fillTo (t : Tx) (slot : Nat) : Tx := t.fill ((slot + 1024 - t.slot) % 1024)

/-- Filler until the codewords that carry what was given out are whole: 40 slots hold more than a codeword. -/
def Tx.fillWords (t : Tx) : Tx := t.fill 40

/-- Filler until every lane that sends has begun, and every UP lane sends the link stream: both with an alignment block (R284, R294). -/
def Tx.begun (t : Tx) : Tx :=
  if t.lanes.any (fun x => !x.tx.on || (x.goesUp && !x.tx.up)) then (t.fillTo 0).step (fun _ => none) else t

/-- IDLE blocks until the codeword under way on each lane is whole; a lane whose codeword is leaves (R301). -/
def Tx.endWords (t : Tx) : Nat → Tx
  | 0 => t
  | n + 1 =>
    let u := { t with out := [] }.step (fun _ => none)
    { u with lanes := u.lanes.filter (fun x => !u.out.any (·.unit == x.lane)), out := u.out ++ t.out }.endWords n

/-- EIOS on every lane in the same block slot, and the rest of the codeword that carries it (R301). -/
def Tx.eios (t : Tx) : Tx :=
  let u := { t.begun with out := [] }.putAll (fun _ => some eiosBlock)
  { u with lanes := u.lanes.filter (fun x => x.tx.bits != 0), out := u.out ++ t.begun.out }.endWords 40

end Sys2Proof.Machine
end

