-- ==== Sys2Proof/Machine/Cell.lean ====
section
/-! DEFINITION. The cell record (Table 2.9): its fields, the load check of R57, the check and mend of R58 and R59, and
the write-back of state bits of R60. A record is its 256 bits as a number; the blank record is 0 (R54). -/

namespace Sys2Proof.Machine

open Sys2Proof

/-- Bits of a record's data block covered by parity. -/
def dataBits : Nat := 224

/-- The parity bits ROWP and COLP that a record's data block calls for (R55). -/
def rowParity (rec j : Nat) : Bool := parityOf 16 (bitsOf rec (16 * j + 15) (16 * j))
def colParity (rec c : Nat) : Bool := ((List.range 14).filter (fun j => rec.testBit (16 * j + c))).length % 2 == 1

/-- The row syndrome: block rows whose parity disagrees with ROWP (R58). -/
def rowSyndrome (rec : Nat) : List Nat :=
  (List.range 14).filter (fun j => rec.testBit (224 + j) != rowParity rec j)

/-- The column syndrome (R58). -/
def colSyndrome (rec : Nat) : List Nat :=
  (List.range 16).filter (fun c => rec.testBit (238 + c) != colParity rec c)

/-- The reserved values that R43 refuses: fields whose code is reserved, by the field's low bit number, with whether
the value is reserved. -/
def reservedFields (rec : Nat) : List Nat :=
  ((List.range 18).filterMap (fun o => if bitsOf rec (68 + 5 * o) (64 + 5 * o) > 21 then some (64 + 5 * o) else none)) ++
  ((List.range 6).filterMap (fun i => if bitsOf rec (158 + 5 * i) (154 + 5 * i) > 19 then some (154 + 5 * i) else none)) ++
  (if bitsOf rec 186 185 = 3 then [185] else []) ++
  (if bitsOf rec 188 187 = 3 then [187] else []) ++
  (if bitsOf rec 219 202 ≠ 0 then [202] else [])

/-- The load check (R57): sealed, parity exact, Q equal to INIT, nothing reserved. -/
def recordLoads (rec : Nat) : Bool :=
  bitsOf rec 255 254 == 3 && (rowSyndrome rec).isEmpty && (colSyndrome rec).isEmpty &&
  rec.testBit 222 == rec.testBit 195 && rec.testBit 223 == rec.testBit 201 && (reservedFields rec).isEmpty

/-- What a check of a stored record finds (Table 2.11, R59). -/
structure RecordCheck where
  /-- The record after its mends. -/
  word : Nat
  corrected : Bool
  uncorrectable : Bool
  sealMended : Bool
  /-- The bit a single data or parity mend inverted. -/
  bit : Option Nat
  deriving DecidableEq, Repr

/-- The seal of a record of a slot that is loaded or not (R59). -/
def mendSeal (rec : Nat) (loaded : Bool) : Nat × Bool :=
  if bitsOf rec 255 254 = 1 ∨ bitsOf rec 255 254 = 2 then (putBits rec 255 254 (if loaded then 3 else 0), true)
  else (rec, false)

/-- A record read from the store is checked by its crossed parity and its seal, and mended or found uncorrectable
(R58, R59). -/
def checkRecord (rec : Nat) (loaded : Bool) : RecordCheck :=
  let (r, sealed) := mendSeal rec loaded
  match rowSyndrome r, colSyndrome r with
  | [], [] => ⟨r, sealed, false, sealed, none⟩
  | [j], [c] => ⟨putBit r (16 * j + c) (!r.testBit (16 * j + c)), true, false, sealed, some (16 * j + c)⟩
  | [j], [] => ⟨putBit r (224 + j) (!r.testBit (224 + j)), true, false, sealed, some (224 + j)⟩
  | [], [c] => ⟨putBit r (238 + c) (!r.testBit (238 + c)), true, false, sealed, some (238 + c)⟩
  | _, _ => ⟨r, false, true, sealed, none⟩

/-- A record with its state bits written back and ROWP[13], COLP[14] and COLP[15] recomputed (R60). -/
def writeState (rec : Nat) (q0 q1 : Bool) : Nat :=
  let r := putBit (putBit rec 222 q0) 223 q1
  let r := putBit r (224 + 13) (rowParity r 13)
  let r := putBit r (238 + 14) (colParity r 14)
  putBit r (238 + 15) (colParity r 15)

/-- STATE_KEEP, CAPTURE_EN, Q and INIT of a record. -/
def stateKeep (rec : Nat) : Bool := rec.testBit 221
def captureEn (rec : Nat) : Bool := rec.testBit 220

/-- A record with its flip-flops loaded from INIT (R38). -/
def initState (rec : Nat) : Nat := putBit (putBit rec 222 (rec.testBit 195)) 223 (rec.testBit 201)

/-- A record with its flip-flop bits replaced. -/
def withState (rec : Nat) (q0 q1 : Bool) : Nat := putBit (putBit rec 222 q0) 223 q1

end Sys2Proof.Machine
end

