-- ==== Sys2Proof/Machine/Fabric.lean ====
section
/-! DEFINITION. Cells and the nearest-neighbour mesh: the wires, the lookup table and carry of a cell, the delay of a
segment, the borders and their rest values, the skipper, and one fabric clock edge of the whole device. -/

namespace Sys2Proof.Machine

open Sys2Proof

/-! Signals. -/

/-- A signal on the fabric: its value, the pass-through cells and the worst delay in picoseconds of the segments that
carry it (R46, R47), whether a path of it passes through a loop (R49), and whether it never changes: no segment, which
begins at a flip-flop or a port, leads to it. -/
structure Sig where
  v : Bool
  hops : Nat
  ps : Nat
  loop : Bool
  fixed : Bool
  deriving DecidableEq, Repr

/-- A constant. -/
def Sig.const (v : Bool) : Sig := ⟨v, 0, 0, false, true⟩

/-- A signal delayed by one more element. -/
def Sig.after (s : Sig) (ps : Nat) : Sig := { s with ps := s.ps + ps }

/-- A signal computed from others: the worst of their segments. -/
def Sig.from (v : Bool) (ss : List Sig) : Sig :=
  let moving := ss.filter (fun s => !s.fixed)
  ⟨v, moving.foldl (fun a s => max a s.hops) 0, moving.foldl (fun a s => max a s.ps) 0, ss.any (·.loop), moving.isEmpty⟩

/-- Directions of the mesh. -/
inductive Dir where
  | north | east | south | west | twin
  deriving DecidableEq, Repr

/-- What a cell can be asked for: an output wire o of Table 2.3 (NO0 is 0, TO1 is 17), its CO, X0 and X1, and the
value of LUT input select i. -/
inductive Node where
  | wire (o : Nat) | co | x0 | x1 | p | input (i : Nat)
  deriving DecidableEq, Repr

/-- What drives an input wire: a direction and its number. -/
def selectInput (code : Nat) (order : List Dir) (base : Nat) : Option (Dir × Nat) :=
  if code < base then none
  else match order with
    | [] => none
    | d :: ds =>
      let n := if d = .twin then 2 else 4
      if code < base + n then some (d, code - base) else selectInput code ds (base + n)

/-- The input wire of an output select code (Table 2.4). -/
def outSelect (code : Nat) : Option (Dir × Nat) := selectInput code [.north, .east, .south, .west, .twin] 4

/-- The input wire of a LUT input select code (Table 2.5). -/
def inSelect (code : Nat) : Option (Dir × Nat) := selectInput code [.north, .west, .east, .south, .twin] 2

/-- The output wire of the neighbour in direction `d` that arrives as input wire k from that direction (R39). -/
def driverWire : Dir → Nat → Nat
  | .north, k => 8 + k
  | .east, k => 12 + k
  | .south, k => k
  | .west, k => 4 + k
  | .twin, k => 16 + k

/-! Places. -/

/-- The neighbour of a cell: the physical slot and cell index in direction `d`, and whether a slot border lies between;
`none` at the outer edge of the die (R50 to R52). -/
def neighbour (p c : Nat) : Dir → Option (Nat × Nat × Bool)
  | .north => if c / 256 < 127 then some (p, c + 256, false)
              else if (p % 136) / 17 < 7 then some (p + 17, c % 256, true) else none
  | .south => if 0 < c / 256 then some (p, c - 256, false)
              else if 0 < (p % 136) / 17 then some (p - 17, 127 * 256 + c % 256, true) else none
  | .east => if c % 256 < 255 then some (p, c + 1, false)
             else if (p % 136) % 17 < 16 then some (p + 1, c - 255, true) else none
  | .west => if 0 < c % 256 then some (p, c - 1, false)
             else if 0 < (p % 136) % 17 then some (p - 1, c + 255, true) else none
  | .twin => some (if p < 136 then p + 136 else p - 136, c, true)

/-- Bit of BORDER_STATE of a direction (Table 4.14). -/
def Dir.border : Dir → Nat
  | .west => 0 | .east => 1 | .south => 2 | .north => 3 | .twin => 4

/-- The input group of wire k of a cell's input from a border (Table 4.5). -/
def inputGroup (c : Nat) (d : Dir) (k : Nat) : Nat :=
  match d with
  | .west => 4 * (c / 256 / 16) + k
  | .east => 32 + 4 * (c / 256 / 16) + k
  | .south => 64 + 4 * (c % 256 / 16) + k
  | .north => 128 + 4 * (c % 256 / 16) + k
  | .twin => 192 + 2 * (16 * (c / 256 / 16) + c % 256 / 16) + k

/-- The place of an input wire in its border's HOLD word. -/
def holdBit (c : Nat) (d : Dir) (k : Nat) : Nat :=
  match d with
  | .west | .east => 4 * (c / 256) + k
  | .south | .north => 4 * (c % 256) + k
  | .twin => 2 * c + k

/-! What a region's context says. -/

/-- The active record of a cell of a physical slot. -/
def Block.activeRec (b : Block) (p c : Nat) : Nat := (b.ctx.active.look p).look c

/-- The context slot held by a logical region's active plane. -/
def Block.activeSlot (b : Block) (r : Nat) : Option Nat :=
  if b.reg (Reg.activeSlot r) ≤ 15 then some (b.reg (Reg.activeSlot r)) else none

/-- The key of a context slot of physical slot `p`. -/
def slotKey (p s : Nat) : Nat := 16 * p + s

/-- The border map in use by a logical region: that of the slot held by its active plane (R108). -/
def Block.activeMap (b : Block) (r : Nat) : Nat :=
  match b.activeSlot r with
  | some s => b.ctx.maps.look (slotKey (b.phys r) s)
  | none => 0

/-- BRIDGE_OFF of the active context (Table 4.4). -/
def Block.bridgeOff (b : Block) (r : Nat) : Bool := (b.activeMap r).testBit 0

/-- The run a logical region holds (R128). -/
def Block.runOf (b : Block) (r : Nat) : Option Nat :=
  if b.reg (Reg.run r) < 16384 then some (b.reg (Reg.run r)) else none

/-- Whether the region is Active (Table 4.11). -/
def Block.isActive (b : Block) (r : Nat) : Bool := b.reg (Reg.powerState r) == 0 && !b.isRetired r

/-- The region on the other side of a border of region r. -/
def Block.across (b : Block) (r : Nat) (d : Dir) : Option Nat :=
  let p := b.phys r
  let q : Option Nat := match d with
    | .north => if (p % 136) / 17 < 7 then some (p + 17) else none
    | .south => if 0 < (p % 136) / 17 then some (p - 17) else none
    | .east => if (p % 136) % 17 < 16 then some (p + 1) else none
    | .west => if 0 < (p % 136) % 17 then some (p - 1) else none
    | .twin => some (if p < 136 then p + 136 else p - 136)
  q.bind b.regionAt

/-- Whether a border is joinable (R112): the context active in the northern slot has BRIDGE_OFF = 1. -/
def Block.joinable (b : Block) (r o : Nat) (d : Dir) : Bool :=
  match d with
  | .north => b.bridgeOff o
  | .south => b.bridgeOff r
  | _ => true

/-- Whether one side of a border lets it be open now: not closed by a switch, a reset or the start, nor by a map fault
(R114, R115). -/
def Block.sideOpen (b : Block) (r : Nat) (d : Dir) : Bool :=
  let (n, kept) := b.rgn.closing.look r
  (n == 0 || kept.testBit d.border) && !(b.rgn.mapFault.look r) && b.isActive r &&
    !b.rgn.heldOut.contains (b.phys r) && !b.rgn.shut.contains (b.phys r)

/-- Opposite side of a border. -/
def Dir.back : Dir → Dir
  | .north => .south | .south => .north | .east => .west | .west => .east | .twin => .twin

/-- The slot north or south of a slot whose riser it may use (R252). -/
def riserMate (p : Nat) : Nat :=
  let q := p % 136
  136 * (p / 136) + 17 * ((q / 17) ^^^ 1) + q % 17

/-- Whether the riser that a region uses has an exhausted group and no other has been given to it yet (R252, R469). -/
def Block.riserGone (b : Block) (r : Nat) : Bool :=
  b.groupGone 3 (if (b.reg (Reg.portRoute r)).testBit 1 then riserMate (b.phys r) else b.phys r)

/-- Whether the twin border of a position is closed: its link is lost or has an exhausted group (Table 15.1), or the fence of a
die being reset is raised over it, as it crosses S34 (R17). -/
def Block.twinShut (b : Block) (pos : Nat) : Bool :=
  b.rgn.twinLost.contains pos || b.groupGone 1 pos || b.fenced [3, 4]

/-- Whether a border of region r is to be open: both sides belong to one run, it is joinable, and neither side holds it
closed (R107, R112, R115); before the global start every elytron is closed (R116). A twin border whose twin-link group
is exhausted stays closed (Table 15.1). -/
def Block.wantsOpen (b : Block) (r : Nat) (d : Dir) : Bool :=
  match b.across r d with
  | none => false
  | some o =>
    (match b.runOf r, b.runOf o with
      | some x, some y => x == y
      | _, _ => false) &&
    b.started && b.joinable r o d && b.sideOpen r d && b.sideOpen o d.back &&
    !(d == .twin && b.twinShut (b.position r))

/-- Whether a border of region r is open, as BORDER_STATE shows it. -/
def Block.borderOpen (b : Block) (r : Nat) (d : Dir) : Bool := (b.reg (Reg.borderState r)).testBit d.border

/-- The rest value of an input wire at a closed border (Table 4.6, R114). -/
def Block.restValue (b : Block) (r c : Nat) (d : Dir) (k : Nat) : Bool :=
  if b.rgn.mapFault.look r then false
  else
    let g := inputGroup c d k
    match bitsOf (b.activeMap r) (129 + 2 * g) (128 + 2 * g) with
    | 0 => (b.rgn.hold.look (8 * r + d.border)).testBit (holdBit c d k)
    | 2 => true
    | _ => false

/-! Evaluation. -/

/-- Picoseconds of Table 2.7 and t_BCQ of Table 4.9a, worst case. -/
abbrev tCq : Nat := 45
abbrev tHop : Nat := 52
abbrev tThop : Nat := 96
abbrev tEly : Nat := 18
abbrev tImux : Nat := 30
abbrev tByp : Nat := 50
abbrev tLut6 : Nat := 95
abbrev tLut5 : Nat := 80
abbrev tCypg : Nat := 55
abbrev tCy : Nat := 13
abbrev tSum : Nat := 35
abbrev tBcq : Nat := 70
abbrev tSuUnc : Nat := 70

/-- An input wire k of a cell from direction `d`, where `drive` gives a neighbour's output wire: through an open border
with t_ELY added, from a closed border its rest value, and 0 at the outer edge of the die (R51, R110). The south wires
of row 0 come from the bridge while BRIDGE_OFF = 0 (R118). -/
def Block.inputWire (b : Block) (drive : Nat → Nat → Node → Sig) (p c : Nat) (d : Dir) (k : Nat) : Sig :=
  let hop := if d = .twin then tThop else tHop
  match b.regionAt p with
  | none => Sig.const false
  | some r =>
    if d = .south ∧ c / 256 = 0 ∧ !b.bridgeOff r then
      ⟨(b.rgn.bf.look r).testBit (4 * (c % 256) + k), 0, tBcq, false, false⟩
    else match neighbour p c d with
      | none => Sig.const false
      | some (q, e, border) =>
        if !border then (drive q e (.wire (driverWire d k))).after hop
        else if b.borderOpen r d then (drive q e (.wire (driverWire d k))).after (hop + tEly)
        else Sig.const (b.restValue r c d k)

/-- The carry-in CI (R35): the west neighbour's CO, or a constant; a reserved code and the die's west edge give 0. -/
def Block.carryIn (b : Block) (drive : Nat → Nat → Node → Sig) (p c rec' : Nat) : Sig :=
  match bitsOf rec' 188 187 with
  | 0 =>
    match neighbour p c .west with
    | none => Sig.const false
    | some (q, e, border) =>
      if !border then drive q e .co
      else match b.regionAt p with
        | some r => if b.borderOpen r .west then (drive q e .co).after tEly else Sig.const false
        | none => Sig.const false
  | 2 => Sig.const true
  | _ => Sig.const false

/-- What a select code picks: Q0, Q1, X0 or X1, or an input wire; a reserved code reads 0 (R44). `path` holds the places passed
on the way here: one met again is a loop (R49). -/
def Block.evalFrom (b : Block) : Nat → List (Nat × Nat × Node) → Nat → Nat → Node → Sig
  | 0, _, _, _, _ => ⟨false, 0, 0, true, false⟩
  | fuel + 1, path, p, c, n =>
    if path.contains (p, c, n) then ⟨false, 0, 0, true, false⟩ else
    let rec' := b.activeRec p c
    let drive := fun q e m => b.evalFrom fuel ((p, c, n) :: path) q e m
    let q (i : Nat) : Sig := ⟨rec'.testBit (222 + i), 0, tCq, false, false⟩
    match n with
    | .wire o =>
      let code := bitsOf rec' (68 + 5 * o) (64 + 5 * o)
      if code = 0 then q 0
      else if code = 1 then q 1
      else if code = 2 then drive p c .x0
      else if code = 3 then drive p c .x1
      else match outSelect code with
        | some (d, k) =>
          let s := b.inputWire drive p c d k
          { s with hops := s.hops + 1 }
        | none => Sig.const false
    | .input i =>
      let code := bitsOf rec' (158 + 5 * i) (154 + 5 * i)
      if code = 0 then q 0
      else if code = 1 then q 1
      else match inSelect code with
        | some (d, k) => b.inputWire drive p c d k
        | none => Sig.const false
    | .p =>
      let split := rec'.testBit 184
      let is := (List.range (if split then 5 else 6)).map (fun i => drive p c (.input i))
      let i := maskOf ((List.range is.length).filter (fun j => (nthD is j (Sig.const false)).v))
      (Sig.from (rec'.testBit i) is).after (tImux + (if split then tLut5 else tLut6))
    | .x1 =>
      let is := (List.range 5).map (fun i => drive p c (.input i))
      let i := maskOf ((List.range 5).filter (fun j => (nthD is j (Sig.const false)).v))
      (Sig.from (rec'.testBit (32 + i)) is).after (tImux + (if rec'.testBit 184 then tLut5 else tLut6))
    | .x0 =>
      if bitsOf rec' 186 185 = 1 then
        let pp := drive p c .p
        let ci := b.carryIn drive p c rec'
        -- the example to R49 counts t_CY for the top cell of a run as well
        Sig.from (pp.v != ci.v) [pp, ci.after (tCy + tSum)]
      else drive p c .p
    | .co =>
      match bitsOf rec' 186 185 with
      | 1 =>
        let pp := drive p c .p
        let g := drive p c .x1
        let ci := b.carryIn drive p c rec'
        Sig.from (if pp.v then ci.v else g.v) [pp.after tCypg, g.after tCypg, ci.after tCy]
      | 2 => (b.carryIn drive p c rec').after tCy
      | _ => Sig.const false

/-- More places than the fabric has: 272 slots of 32,768 cells, each with 18 wires, 6 inputs, CO, X0, X1 and P. -/
abbrev evalFuel : Nat := 268435456

/-- The signal at a place. -/
def Block.eval (b : Block) (p c : Nat) (n : Node) : Sig := b.evalFrom evalFuel [] p c n

/-- Whether a segment breaks R46, R47 or R49, so that the value captured is unspecified: `div` is the fabric divider in
force, whose period is div · 10,000 / 288 ps. -/
def Sig.unfit (s : Sig) (div : Nat) : Bool :=
  s.loop || (!s.fixed && (decide (s.hops > 4) || decide ((s.ps + tSuUnc) * 288 > div * 10000)))

/-- The value that a latch takes of a signal: a free value through an unfit segment (R49). -/
def Block.takeBit (b : Block) (s : Sig) : Bool × Block :=
  if s.unfit b.clk.fabricDiv then (Config.freeBit b.free, { b with free := b.free + 1 }) else (s.v, b)

/-- The D input of flip-flop i (Table 2.2). -/
def Block.dInput (b : Block) (p c i : Nat) : Sig :=
  let rec' := b.activeRec p c
  match bitsOf rec' (if i = 0 then 191 else 197) (if i = 0 then 190 else 196) with
  | 0 => b.eval p c .x0
  | 1 => b.eval p c .x1
  | 2 => (b.eval p c (.input 5)).after tByp
  | _ => b.eval p c .co

/-- CE and SR of a cell (R37). -/
def Block.ceSr (b : Block) (p c : Nat) : Sig × Sig :=
  let drive := b.eval
  if (b.activeRec p c).testBit 189 then (b.inputWire drive p c .north 3, b.inputWire drive p c .south 3)
  else (b.inputWire drive p c .west 3, b.inputWire drive p c .east 3)

/-- The next value of flip-flop i (R36): set or reset first, then the clock enable, else hold; a value that comes
through an unfit segment is free (R49). Answers the value and whether it is free. -/
def Block.nextQ (b : Block) (p c i : Nat) : Bool × Bool :=
  let rec' := b.activeRec p c
  let o := if i = 0 then 0 else 6
  let (ce, sr) := b.ceSr p c
  let div := b.clk.fabricDiv
  let srEn := rec'.testBit (193 + o)
  let ceEn := rec'.testBit (192 + o)
  let q := rec'.testBit (222 + i)
  let d := b.dInput p c i
  if srEn && (sr.after tImux).unfit div then (q, true)
  else if srEn && sr.v then (rec'.testBit (194 + o), false)
  else if ceEn && (ce.after tImux).unfit div then (q, true)
  else if !ceEn || ce.v then (d.v, d.unfit div)
  else (q, false)

/-! The skipper. -/

/-- The slot positions of a station area (Table 8.2, R425) are those whose risers the grid station serves. Rows of
slots pair with rows of stations and the columns with theirs. -/
def stationOf (p : Nat) : Nat :=
  let x := (p % 136) % 17
  let y := (p % 136) / 17
  8 * y + min (x / 2) 7

/-- Whether edge j of a window is removed at level q (R424). -/
def skipEdge (j q : Nat) : Bool := (j + 1) * q / 64 > j * q / 64

/-- The soft start level at clock count `c` (R427). -/
def Block.softLevelAt (b : Block) (c : Nat) : Nat :=
  let span := b.reg Reg.softStartUs * tick
  let t := c - b.clk.fabricOrigin
  if t < span then (56 * (span - t) + span - 1) / span else 0

/-- The regions of the run a region holds. -/
def Block.runRegions (b : Block) (r : Nat) : List Nat :=
  match b.runOf r with
  | some x => (List.range 256).filter (fun q => b.runOf q == some x)
  | none => [r]

/-- The level asked for region r at clock count `c` (R425, R469). -/
def Block.askedLevel (b : Block) (c r : Nat) : Nat :=
  if b.rgn.heldOut.contains (b.phys r) then 64
  else (b.runRegions r).foldl (fun a q => max a (b.reg (Reg.skipReq (stationOf (b.phys q))))) (b.softLevelAt c)

/-- The windows entered since the last edge give every region its level (R426). -/
def Block.enterWindow (b : Block) (c : Nat) : Block :=
  let n := (c - b.clk.fabricOrigin) / b.clk.fabricDiv
  if n / 64 = b.clk.window ∧ b.clk.lastEdge.isSome then b
  else
    { b with clk := { b.clk with
        window := n / 64
        softLevel := b.softLevelAt c
        level := (List.range 256).foldl (fun m r => m.put r (b.askedLevel c r)) [] } }

/-- Whether the fabric clock of region r has an edge at clock count `c` (R424): the clock runs, the region is Active,
and its skipper keeps the edge. -/
def Block.hasEdge (b : Block) (c r : Nat) : Bool :=
  let n := (c - b.clk.fabricOrigin) / b.clk.fabricDiv
  !(skipEdge (n % 64) (b.clk.level.look r))

/-! Borders. -/

/-- The directions in BORDER_STATE order. -/
def allDirs : List Dir := [.west, .east, .south, .north, .twin]

/-- BORDER_STATE of a region as it should now read (Table 4.14). -/
def Block.borderWord (b : Block) (r : Nat) : Nat :=
  maskOf ((allDirs.filter (b.wantsOpen r)).map (·.border)) +
    (if b.isActive r && !b.bridgeOff r && (b.activeSlot r).isSome then 32 else 0)

/-- One region's borders brought up to date, and its openings counted (R115, R128). -/
def Block.refreshBorder (b0 b : Block) (r : Nat) : Block :=
  let old := b0.reg (Reg.borderState r)
  let new := b0.borderWord r
  let opened := ((List.range 5).filter (fun i => new.testBit i && !old.testBit i)).length
  (b.setReg (Reg.borderState r) new).count (Reg.openings r) opened

/-- Every border brought up to date. -/
def Block.refreshBorders (b : Block) : Block :=
  (List.range 256).foldl (fun acc r => if b.isRetired r then acc else b.refreshBorder acc r) b

/-- The values the input wires of an open border carry, as its HOLD word: latched at each edge, so that the border
presents the last of them once it closes (R110, R115). -/
def Block.borderWires (b0 b : Block) (r : Nat) (d : Dir) : Nat × Block :=
  let p := b0.phys r
  let cells : List Nat := match b0.across r d with
    | none => []
    | some o =>
      -- only cells that are not blank can drive a one
      ((b0.ctx.active.look (b0.phys o)).keys).filterMap (fun e =>
        match neighbour (b0.phys o) e d.back with
        | some (q, c, true) => if q = p then some c else none
        | _ => none)
  cells.foldl (fun acc c => (List.range (if d = .twin then 2 else 4)).foldl (fun (acc : Nat × Block) k =>
    let (v, b) := acc.2.takeBit (b0.inputWire b0.eval p c d k)
    (if v then putBit acc.1 (holdBit c d k) true else acc.1, b)) acc) (0, b)

/-- The HOLD words of every open border of a region. -/
def Block.latchHold (b0 b : Block) (r : Nat) : Block :=
  allDirs.foldl (fun acc d =>
    if b0.borderOpen r d then
      let (w, acc) := b0.borderWires acc r d
      { acc with rgn := { acc.rgn with hold := acc.rgn.hold.put (8 * r + d.border) w } }
    else acc) b

/-! Integrity events. -/

/-- Integrity events of a cell's reserved values not yet raised for its plane (R45). -/
def Block.raiseCell (b : Block) (r c : Nat) : Block :=
  (reservedFields (b.activeRec (b.phys r) c)).foldl (fun b f =>
    let seen := b.rgn.raised.look r
    if seen.contains (256 * c + f) then b
    else
      let b := { b with rgn := { b.rgn with raised := b.rgn.raised.put r ((256 * c + f) :: seen) } }
      (b.count (Reg.integrityEvents r) 1).logEvent 0x0201 1 r ((c % 256) * 2 ^ 24 + (c / 256) * 2 ^ 16 + f)) b

/-- An integrity event of a border map (R114): field 0xFF. -/
def Block.raiseMap (b : Block) (r col row : Nat) : Block :=
  ((b.count (Reg.integrityEvents r) 1).count (Reg.mapFaults r) 1).logEvent 0x0201 1 r
    (col * 2 ^ 24 + row * 2 ^ 16 + 0xFF)

/-- Reserved rest codes of the active map, each raised once until the context is switched out (R114). -/
def Block.raiseRest (b : Block) (r : Nat) : Block :=
  let m := b.activeMap r
  if m = 0 then b
  else (List.range 448).foldl (fun b g =>
    let seen := b.rgn.raised.look r
    if bitsOf m (129 + 2 * g) (128 + 2 * g) = 3 ∧ !seen.contains (2 ^ 24 + g) then
      ({ b with rgn := { b.rgn with raised := b.rgn.raised.put r ((2 ^ 24 + g) :: seen) } }).raiseMap r
        (g % 256) (g / 256)
    else b) b

/-! One edge. -/

/-- Whether the bridge of a region holds nothing open and takes nothing more (R71, R123): no tag, no packet partly taken in either
direction, no open ledger entry, MREQ_READY and SOUT_READY low. -/
def Block.tagsIdle (b : Block) (r : Nat) : Bool :=
  !(b.rgn.bf.look r).testBit 523 && !(b.rgn.bf.look r).testBit 784 &&
  b.rgn.tags.all (fun e => !(e.1 / 64 == r && e.2.isOpen)) &&
    (b.rgn.inPacket.look r).isNone && (b.rgn.passed.look r).isEmpty && (b.rgn.outPart.look r).isEmpty && (b.rgn.outDone.look r).isNone &&
    b.ledger.all (fun e => !(e.1 / 1024 == r && e.2.state == .opened))

/-- Whether a region has fabric edges that a switch or a start can fall on. -/
def Block.edgeReady (b : Block) (c r : Nat) : Bool :=
  b.reg (Reg.powerState r) ≤ 1 && !b.isRetired r && b.hasEdge c r && !(b.rgn.resetDue.look r) &&
    b.rgn.resetAt.look r != some c && !b.fenced (ctxPath (dieOf r))

/-- The conditions of R71 for one region; a switch pending on a fenced die waits (R448). -/
def Block.switchable (b : Block) (r : Nat) : Bool :=
  b.reg (Reg.shadowState r) == 2 && (b.ctx.writeBack.look (b.phys r)).isNone &&
    (b.ctx.prefetch.look (b.phys r)).isNone && b.tagsIdle r

/-- A run table entry. -/
def Block.runAt (b : Block) (x : Nat) : Run := b.disp.runs.get (fun _ => {}) x

/-- The regions of a run that switch to reach the listed slots, and the rest of its set (R196, R204). -/
def Block.movers (b : Block) (set slots : List Nat) : List Nat :=
  ((set.zip slots).filter (fun e => b.activeSlot e.1 != some e.2)).map (·.1)

/-- Whether every region of a set is ready to run the listed slots at this edge: the region already runs its slot with
its bridge idle, or its shadow plane is READY with the slot and R71 holds (R196). -/
def Block.setReady (b : Block) (c : Nat) (set slots : List Nat) : Bool :=
  (set.zip slots).all (fun e =>
    b.edgeReady c e.1 &&
      (if b.activeSlot e.1 = some e.2 then b.tagsIdle e.1
       else b.switchable e.1 && b.reg (Reg.shadowSlot e.1) == e.2)) && slots.length == set.length

/-- Runs that a starting run preempts. -/
def Block.victimsOf (b : Block) (x : Nat) : List Nat :=
  SMap.keys (b.disp.runs.filter (fun e => e.2.preemptor == some x && e.2.state == .preempting))

/-- Whether the start edge of a starting run falls at this edge (R196, R200). -/
def Block.startDue (b : Block) (c x : Nat) : Bool :=
  let run := b.runAt x
  run.state == .starting && b.setReady c run.set run.slots &&
    run.set.all (fun r => match b.runOf r with | some y => (b.victimsOf x).contains y | none => true) &&
    (b.victimsOf x).all (fun v => (b.runAt v).set.all (fun r => b.tagsIdle r && b.edgeReady c r))

/-- The pending switch of a region: one requested of its span, or the phase change of the run it holds (R204). -/
def Block.switchOf (b : Block) (r : Nat) : Option SwitchReq :=
  match b.ctx.switches.find? (fun q => q.regions.contains r) with
  | some q => some q
  | none => match b.runOf r with
    | some x =>
      let run := b.runAt x
      if run.state = .switching ∧ !run.nextSlots.isEmpty then
        some { regions := b.movers run.set run.nextSlots, who := .scarab, run := some x }
      else none
    | none => none

/-- Whether a region takes its switch at this edge: the conditions hold in every region of the span, all with an
unskipped edge (R72, R425). -/
def Block.switchDue (b : Block) (c r : Nat) : Bool :=
  match b.switchOf r with
  | some q => match q.run with
    | some x => if (b.runAt x).state = .switching then b.setReady c (b.runAt x).set (b.runAt x).nextSlots
                else q.regions.all (fun y => b.switchable y && b.edgeReady c y)
    | none => q.regions.all (fun y => b.switchable y && b.edgeReady c y)
  | none => false

/-- Whether the edge is the start edge of a run that changes a region: one whose set it belongs to, or one that preempts
the run it holds. -/
def Block.startHolds (b : Block) (c r : Nat) : Bool :=
  match b.disp.claim.look r with
  | some x => b.startDue c x && (b.movers (b.runAt x).set (b.runAt x).slots).contains r
  | none => false

/-- The regions frozen with a capture of region r (R92). -/
def Block.frozenWith (b : Block) (r : Nat) : List Nat := b.runRegions r

/-- Whether a region's flip-flops are held at this edge by a switch or a start (R69). DESIGN CHOICE (log 165): a phase change holds
every region of the set, one whose slot stays the same among them; a start holds only the regions that switch. -/
def Block.movesAt (b : Block) (c r : Nat) : Bool := b.switchDue c r || b.startHolds c r

/-- Whether this edge is the capture edge of a region: one of those frozen with it has a capture pending, and none of them
switches or is reset (R91, R92). -/
def Block.frozenAt (b : Block) (c r : Nat) : Bool :=
  (b.frozenWith r).any (fun q => b.ctx.captureDue.look q) &&
    (b.frozenWith r).all (fun q => !(b.rgn.resetDue.look q) && !b.movesAt c q)

/-- Whether a region's flip-flops are held at this edge by a switch or a capture (R69, R91). -/
def Block.heldAt (b : Block) (c r : Nat) : Bool := b.movesAt c r || b.frozenAt c r

/-- The flip-flops of one cell at an edge. -/
def Block.stepCell (b0 b : Block) (p c : Nat) : Block :=
  let rec' := b0.activeRec p c
  let (q0, f0) := b0.nextQ p c 0
  let (q1, f1) := b0.nextQ p c 1
  let (q0, b) := if f0 then (Config.freeBit b.free, { b with free := b.free + 1 }) else (q0, b)
  let (q1, b) := if f1 then (Config.freeBit b.free, { b with free := b.free + 1 }) else (q1, b)
  let plane := (b.ctx.active.look p).put c (withState rec' q0 q1)
  { b with ctx := { b.ctx with active := b.ctx.active.put p plane } }

/-! The region bridge at an edge (R118, R119). -/

/-- FB port wire k of column c, sampled: Q0 or Q1 of its row 0 cell, or a constant; a wire driven in any other way breaks R119,
and the value sampled is free (log 174). -/
def Block.fbWire (b0 b : Block) (p c k : Nat) : Bool × Block :=
  let s := b0.eval p c (.wire (8 + k))
  if s.fixed || decide (bitsOf (b0.activeRec p c) (68 + 5 * (8 + k)) (64 + 5 * (8 + k)) ≤ 1) then b.takeBit s
  else (Config.freeBit b.free, { b with free := b.free + 1 })

/-- The FB port wires of a region, sampled at the edge. -/
def Block.sampleFb (b0 b : Block) (r : Nat) : Block :=
  let p := b0.phys r
  let cells := ((b0.ctx.active.look p).keys).filter (· < 256)
  let (w, b) := cells.foldl (fun acc c => (List.range 4).foldl (fun (acc : Nat × Block) k =>
    let (v, b) := b0.fbWire acc.2 p c k
    (if v then putBit acc.1 (4 * c + k) true else acc.1, b)) acc) (0, b)
  { b with rgn := { b.rgn with fb := b.rgn.fb.put r w } }

/-- Whether the region's bridge serves a run: one is active there and BRIDGE_OFF is 0 (R118). -/
def Block.bridgeOn (b : Block) (r : Nat) : Bool :=
  b.isActive r && !b.bridgeOff r && (match b.runOf r with
    | some x => (b.runAt x).state == .running || (b.runAt x).state == .switching || (b.runAt x).state == .preempting
    | none => false)

/-- SWITCH_PENDING, MREQ_READY and SOUT_READY as they now stand (R123): while a switch, a preemption or an end is pending no request
is taken, and no stream-out beat once no packet is partly taken. DESIGN CHOICE (log 175): a packet whose last beat has come is
sent before the next one is taken. -/
def Block.readyWires (b : Block) (r w : Nat) : Nat :=
  let pending := b.rgn.pendingFlag.look r
  let on := b.bridgeOn r
  putBit (putBit (putBit w 818 pending) 523 (on && !pending)) 784
    (on && (b.rgn.outDone.look r).isNone && (!pending || !(b.rgn.outPart.look r).isEmpty))

/-- The wires of the stream-in beat offered; fields undriven read 0 (Table 4.8). -/
def inWires (q : Option InPacket) (w : Nat) : Nat :=
  let w := putBits w 783 524 0
  match q with
  | some x =>
    if x.taken < x.beats.length then
      putBits (putBits (putBit (putBits w 779 524 (nthD x.beats x.taken 0)) 780 true) 781 781
        (b2n (x.taken + 1 == x.beats.length))) 783 782 (dCh x.sb)
    else w
  | none => w

/-- The bridge's wires driven at an edge just taken, as they stand after its switch or start. -/
def Block.drivePorts (b : Block) (r : Nat) : Block :=
  { b with rgn := { b.rgn with bf := b.rgn.bf.put r (b.readyWires r (b.rgn.bf.look r)) } }

/-- A stream-out beat taken: the last one completes its packet (R121). -/
def Block.takeOutBeat (b : Block) (r fb : Nat) : Block :=
  let l := b.rgn.outPart.look r ++ [bitsOf fb 863 608]
  if fb.testBit 865 then
    { b with rgn := { b.rgn with outPart := b.rgn.outPart.put r []
                                 outDone := b.rgn.outDone.put r (some (bitsOf fb 867 866, l)) } }
  else { b with rgn := { b.rgn with outPart := b.rgn.outPart.put r l } }

/-- A stream-in beat taken (R122): its packet's count, and that of the sender's open ledger entry, two beats to a DAT beat (R25, R483). -/
def Block.takeInBeat (b : Block) (r : Nat) (x : InPacket) : Block :=
  let e := b.ledgerAt (dSrc x.sb) (dTag x.sb)
  let b := if e.state = .opened then b.setLedger (dSrc x.sb) (dTag x.sb) { e with beatsDone := (x.taken + 1) / 2 } else b
  { b with rgn := { b.rgn with inPacket := b.rgn.inPacket.put r (some { x with taken := x.taken + 1 }) } }

/-- The bridge at an edge that the design takes: the wires sampled, what passes taken, and the wires driven for the next cycle
(R119). START_VALID, the completion and the beats that have passed end with the cycle (Table 4.8). -/
def Block.bridgeEdge (b0 b : Block) (r : Nat) : Block :=
  if b0.bridgeOff r then b
  else
    let b := b0.sampleFb b r
    let fb := b.rgn.fb.look r
    let bf := b0.rgn.bf.look r
    let b := if fb.testBit 600 && bf.testBit 523 then
        { b with rgn := { b.rgn with passed := b.rgn.passed.put r (b.rgn.passed.look r ++ [fb]) } }
      else b
    let b := if fb.testBit 864 && bf.testBit 784 then b.takeOutBeat r fb else b
    let b := match b.rgn.inPacket.look r with
      | some x => if fb.testBit 868 && bf.testBit 780 then b.takeInBeat r x else b
      | none => b
    let w := putBits (putBits (b.rgn.bf.look r) 522 0 0) 817 785 0
    let w := inWires (b.rgn.inPacket.look r) w
    { b with rgn := { b.rgn with bf := b.rgn.bf.put r (b.readyWires r w) } }

/-- A region reset taken at this edge (R38, R74, R116): flip-flops from INIT, and the borders close for two cycles. -/
def Block.takeReset (b : Block) (c r : Nat) : Block :=
  let p := b.phys r
  let plane := (b.ctx.active.look p).foldl (fun (m : SMap Nat) e => m.put e.1 (initState e.2)) []
  { b with
    ctx := { b.ctx with active := b.ctx.active.put p plane }
    rgn := { b.rgn with
      resetDue := b.rgn.resetDue.put r false
      resetAt := b.rgn.resetAt.put r (some c)
      closing := b.rgn.closing.put r (2, 0) } }

/-- A region's flip-flops held at this edge. -/
def Block.holdEdge (b : Block) (c r : Nat) : Block :=
  { b with rgn := { b.rgn with heldEdge := b.rgn.heldEdge.put r (some c) } }

/-- A region's flip-flops frozen at this edge for a capture: the bridge neither offers nor accepts, and what it offered stands
(R93). -/
def Block.freezeEdge (b : Block) (c r : Nat) : Block :=
  { b.holdEdge c r with rgn := { (b.holdEdge c r).rgn with frozenEdge := b.rgn.frozenEdge.put r (some c) } }

/-- A region with no run goes to Doze at an edge, and one that holds a run or has been dispatched to leaves it (R126, R428). -/
def Block.dozeStep (b : Block) (r : Nat) : Block :=
  let wanted := (b.runOf r).isSome || (b.disp.claim.look r).isSome
  if b.reg (Reg.powerState r) = 0 ∧ !wanted then b.setReg (Reg.powerState r) 1
  else if b.reg (Reg.powerState r) = 1 ∧ wanted then b.setReg (Reg.powerState r) 0
  else b

/-- One region at an edge it has: integrity events, HOLD values, a reset or the flip-flops, and the count of closed
cycles. `b0` is the state before the edge. -/
def Block.stepRegion (b0 : Block) (c : Nat) (b : Block) (r : Nat) : Block :=
  let cells := (b0.ctx.active.look (b0.phys r)).keys
  let b := (cells.foldl (fun b c => b.raiseCell r c) b).raiseRest r
  let b := b0.latchHold b r
  let (n, kept) := b0.rgn.closing.look r
  let b := { b with rgn := { b.rgn with
    edgeAt := b.rgn.edgeAt.put r (some c)
    closing := b.rgn.closing.put r (if n ≤ 1 then (0, 0) else (n - 1, kept)) } }
  let b := if b0.rgn.resetDue.look r then (b0.bridgeEdge b r).takeReset c r
    else if b0.movesAt c r then (b0.bridgeEdge b r).holdEdge c r
    else if b0.frozenAt c r then b.freezeEdge c r
    else
      let b := b0.bridgeEdge b r
      if b0.isActive r then cells.foldl (fun b e => b0.stepCell b (b0.phys r) e) b else b
  b.dozeStep r

/-- A captured region whose clock is stopped is frozen at every edge (R91). -/
def Block.holdIdle (b0 b : Block) (c : Nat) : Block :=
  (List.range 256).foldl (fun acc r =>
    if b0.ctx.captureDue.look r && b0.reg (Reg.powerState r) == 2 then acc.freezeEdge c r else acc) b

/-- The edges a skipper removed, counted in the region's area (Table 13.11). -/
def Block.countSkips (b : Block) (c : Nat) : Block :=
  (List.range 256).foldl (fun acc r =>
    if b.isActive r && !b.hasEdge c r then acc.count (Reg.skippedEdges (stationOf (b.phys r))) 1 else acc) b

/-- Whether clock count `c` is an edge of the running fabric clock that has not been taken (R419, R424). -/
def Block.fabricEdgeAt (b : Block) (c : Nat) : Bool :=
  b.clk.fabricOn && b.clk.fabricOrigin ≤ c && (c - b.clk.fabricOrigin) % b.clk.fabricDiv == 0 && b.clk.lastEdge != some c

/-- Whether the present clock count is a fabric edge that a region's bridge takes: one the skipper keeps and no capture freezes
(R93, R119). -/
def Block.edgeNow (b : Block) (r : Nat) : Bool :=
  b.clk.lastEdge == some b.clock && b.rgn.edgeAt.look r == some b.clock && b.rgn.frozenEdge.look r != some b.clock

/-- FABRIC_EDGE (R36): every region with an unskipped edge updates its flip-flops from the values before the edge. -/
def Block.fabricEdge (b : Block) : Block :=
  let c := b.clock
  let b := b.enterWindow c
  let rs := (List.range 256).filter (fun r => b.reg (Reg.powerState r) ≤ 1 && !b.isRetired r && b.hasEdge c r)
  let b1 := b.holdIdle (rs.foldl (b.stepRegion c) (b.countSkips c)) c
  { b1 with clk := { b1.clk with lastEdge := some c } }.refreshBorders

/-- FABRIC_EDGE. -/
def execFabricEdge (t : Nat) (s : State) : Host.Outcome State Fault Refusal :=
  s.answer true (s.blk.eventIf t (fun b => b.fabricEdgeAt b.clock) Block.fabricEdge)

end Sys2Proof.Machine
end

