-- ==== Sys2Proof/Machine/Contexts.lean ====
section
/-! DEFINITION. Contexts: prefetch, switch, write-back, load, clear, copy and capture, and the order in which the
configuration die serves them. -/

namespace Sys2Proof.Machine

open Sys2Proof

/-! The store and its directory. -/

/-- The records of a context slot of physical slot p. -/
def Block.slotStore (b : Block) (p s : Nat) : SMap Nat := b.ctx.store.look (slotKey p s)

/-- The descriptor of a context slot (Table 3.1). -/
def Block.slotDesc (b : Block) (p s : Nat) : SlotDesc := b.ctx.desc.get (fun _ => {}) (slotKey p s)

/-- The block with a descriptor replaced. -/
def Block.setDesc (b : Block) (p s : Nat) (d : SlotDesc) : Block :=
  { b with ctx := { b.ctx with desc := b.ctx.desc.set (fun _ => {}) (slotKey p s) d } }

/-- The block with a context slot's records replaced. -/
def Block.setStore (b : Block) (p s : Nat) (m : SMap Nat) : Block :=
  { b with ctx := { b.ctx with store := b.ctx.store.put (slotKey p s) m } }

/-- The block with a context slot's border map replaced; a written map holds no uncorrectable word (R113). -/
def Block.setMap (b : Block) (p s m : Nat) : Block :=
  { b with ctx := { b.ctx with maps := b.ctx.maps.put (slotKey p s) m
                               mapBad := b.ctx.mapBad.filter (fun k => k != slotKey p s) } }

/-- The shadow plane's slot of a region, while it is associated with one (R65). -/
def Block.shadowSlot (b : Block) (r : Nat) : Option Nat :=
  if b.reg (Reg.shadowState r) ≠ 0 ∧ b.reg (Reg.shadowSlot r) ≤ 15 then some (b.reg (Reg.shadowSlot r)) else none

/-- PLANE of a slot descriptor. -/
def Block.planeOf (b : Block) (r s : Nat) : Nat :=
  if b.activeSlot r = some s then 2 else if b.shadowSlot r = some s then 1 else 0

/-- A slot descriptor as Table 3.1 lays it out. -/
def Block.descWord (b : Block) (r s : Nat) : Nat :=
  let d := b.slotDesc (b.phys r) s
  d.borderSig * 2 ^ 96 + d.lastIn * 2 ^ 64 + d.uncorr * 2 ^ 56 + d.image * 2 ^ 40 + d.kernel * 2 ^ 24 + d.gen * 2 ^ 16 +
    b2n ((b.reg (Reg.pinMask r)).testBit s) * 2 ^ 8 + b2n d.dirty * 2 ^ 7 + b.planeOf r s * 2 ^ 5 + d.state.code

/-- The state held only in the shadow plane is discarded: no run that holds the slot is resumed from it (R77, R202). -/
def Block.loseState (b : Block) (p s : Nat) : Block :=
  if b.ctx.skipped.look (slotKey p s) then
    { b with
      ctx := { b.ctx with skipped := b.ctx.skipped.put (slotKey p s) false
                          lost := b.ctx.lost.put (slotKey p s) true }
      disp := { b.disp with runs := b.disp.runs.map (fun e =>
        if e.2.held.any (fun h => h.2 == s && b.phys h.1 == p) then (e.1, { e.2 with stateLost := true }) else e) } }
  else b

/-- The shadow plane becomes EMPTY. -/
def Block.emptyShadow (b : Block) (r : Nat) : Block :=
  let p := b.phys r
  let b := match b.shadowSlot r with
    | some s => b.loseState p s
    | none => b
  let b := { b with ctx := { b.ctx with shadow := b.ctx.shadow.put p [] } }
  (b.setReg (Reg.shadowState r) 0).setReg (Reg.shadowSlot r) 0xFF

/-- The shadow plane becomes EMPTY if it is associated with the slot (R82, R83). -/
def Block.unshadow (b : Block) (r s : Nat) : Block := if b.shadowSlot r = some s then b.emptyShadow r else b

/-- The findings of a record check counted on configuration die d (R59), and an uncorrectable record logged with the
slot's UNCORR and state (R67, R77). -/
def Block.noteRecord (b : Block) (r p s c : Nat) (k : RecordCheck) : Block :=
  let d := p / 136
  let b := if k.sealMended then b.count (Reg.sealMends d) 1 else b
  if k.uncorrectable then
    let b := (b.count (Reg.recUncorr d) 1).logEvent 0x0202 1 r (s * 2 ^ 16 + c)
    let x := b.slotDesc p s
    b.setDesc p s { x with uncorr := satAdd x.uncorr 1 255, state := if x.state = .loaded then .damaged else x.state }
  else if k.corrected then b.count (Reg.recCorrected d) 1
  else b

/-- Whether a slot counts as loaded for the seal mend (R64). -/
def SlotDesc.isLoaded (d : SlotDesc) : Bool := d.state == .loaded || d.state == .damaged

/-- One record read from the store in one access: checked, its mend written back, its findings counted (R58, R59). -/
def Block.accessRecord (b : Block) (r p s c : Nat) : RecordCheck × Block :=
  let k := checkRecord ((b.slotStore p s).look c) (b.slotDesc p s).isLoaded
  let b := b.setStore p s ((b.slotStore p s).put c k.word)
  (k, b.noteRecord r p s c k)

/-- The context slot's records other than blank, by cell index. -/
def Block.slotCells (b : Block) (p s : Nat) : List Nat := (b.slotStore p s).keys

/-! Ends of operations. -/

/-- The code of a kind of operation in a region's failure word. -/
def CtxKind.code : CtxKind → Nat
  | .load => 1 | .prefetch => 2 | .clear => 3 | .copy => 4

/-- The first status other than OK of what a scarab ordered for a region: 16 times the kind, plus the status; a switch
has kind 5 (R526). -/
def Block.noteFailure (b : Block) (r kind status : Nat) : Block :=
  if status = Status.ok ∨ b.ctx.opStatus.look r ≠ 0 then b
  else { b with ctx := { b.ctx with opStatus := b.ctx.opStatus.put r (16 * kind + status) } }

/-- Use of a physical slot (Table 4.2). -/
def Block.slotUse (b : Block) (p : Nat) : SlotUse := b.rgn.slotUse.get SlotUse.default p

/-- The bound runs that hold a context slot are to end their attempt with RETIRED (R209, R242). -/
def Block.boundRetire (b : Block) (r s : Nat) : Block :=
  { b with disp := { b.disp with runs := b.disp.runs.map (fun e =>
      if e.2.state = .preempted ∧ e.2.held.contains (r, s) then (e.1, { e.2 with retiring := some Status.retired })
      else e) } }

/-- An operation of a relocation has ended (R241, R242): a copy is counted, and the slot of a solo spare out of which it
copied is then cleared. -/
def Block.relocated (b : Block) (op : CtxOp) (status : Nat) : Block :=
  if op.kind ≠ .copy then b
  else
    let b := if status = Status.ok ∨ status = Status.poison then b.count Reg.ctxRelocations 1
             else if status = Status.retired then b.boundRetire op.region op.slot
             else b
    if b.slotUse op.fromUnit = .spare then
      let wipe : CtxOp := { kind := .clear, who := .relocation, region := op.region, phys := op.fromUnit,
                            slot := op.fromSlot }
      { b with ctx := { b.ctx with
          waiting := b.ctx.waiting.put op.fromUnit (b.ctx.waiting.look op.fromUnit ++ [wipe]) } }
    else b

/-- The outcome of an operation reaches who asked for it: the host in CMD_STATUS (R97), a scarab for its run, the
relocation. -/
def Block.ctxDone (b : Block) (op : CtxOp) (status : Nat) : Block :=
  match op.who with
  | .host => b.setReg (Reg.cmdStatus op.region) status
  | .scarab => b.noteFailure op.region op.kind.code status
  | .relocation => b.relocated op status

/-! The order of one region (R87, R88). -/

/-- What the slot condition makes of an operation (Table 3.6). -/
inductive Verdict where
  | proceeds | waits | ends (status : Nat)
  deriving DecidableEq, Repr

/-- Table 3.6, rows in order. -/
def Block.slotVerdict (b : Block) (op : CtxOp) : Verdict :=
  let st := (b.slotDesc op.phys op.slot).state
  let shadow := b.shadowSlot op.region == some op.slot
  let active := b.activeSlot op.region == some op.slot
  match st with
  | .empty => match op.kind with
    | .load | .copy => .proceeds
    | .prefetch => .ends Status.malformed
    | .clear => .ends Status.ok
  | .loading => match op.kind with
    | .prefetch => .waits
    | _ => .ends Status.malformed
  | _ =>
    if st = .loaded ∧ !active then .proceeds
    else if st = .loaded ∧ shadow then .proceeds
    else if active then (match op.kind with
      | .prefetch => .ends Status.malformed
      | _ => .ends Status.accessDenied)
    else match op.kind with
      | .prefetch => .ends Status.malformed
      | _ => .proceeds

/-- The source slot of a copy as its checks find it: physical slot and slot, or none when the source region fails R84. -/
def Block.copySource (b : Block) (op : CtxOp) : Option (Nat × Nat) :=
  match op.who with
  | .relocation => some (op.fromUnit, op.fromSlot)
  | _ =>
    if op.fromUnit < 256 ∧ dieOf op.fromUnit = dieOf op.region ∧ !b.isRetired op.fromUnit then
      some (b.phys op.fromUnit, op.fromSlot)
    else none

/-- Whether a library offset may be loaded (R78): a multiple of 4 KiB with its whole context in the window. -/
def libraryContext (src : Nat) : Bool :=
  src % 0x1000 == 0 && libBase ≤ src && src + 2 ^ 20 ≤ libBase + 2 ^ 28

/-- Load engines of a configuration die still in service (R79, Table 15.2). -/
def Block.engines (b : Block) (d : Nat) : Nat :=
  8 - popCount 8 (b.fuses.health >>> (1112 + 8 * d))

/-- An operation's own checks, then Table 3.6 (R87); R68 comes first for a plane already READY with the slot. -/
def Block.verdict (b : Block) (op : CtxOp) : Verdict :=
  match op.kind with
  | .prefetch =>
    if b.reg (Reg.shadowState op.region) = 2 ∧ b.shadowSlot op.region = some op.slot then .proceeds
    else b.slotVerdict op
  | .load =>
    if b.engines (op.phys / 136) = 0 then .ends Status.retired
    else if !libraryContext op.src || !b.started then .ends Status.accessDenied
    else b.slotVerdict op
  | .clear => b.slotVerdict op
  | .copy =>
    if b.engines (op.phys / 136) = 0 then .ends Status.retired
    else match b.copySource op with
      | none => .ends Status.accessDenied
      | some (q, s) =>
        if (b.slotDesc q s).state = .empty ∨ (b.slotDesc q s).state = .loading then .ends Status.malformed
        else b.slotVerdict op

/-- Whether an operation waits for a write-back (R76). DESIGN CHOICE (log 162): a prefetch waits even where R68 would let it
complete at once. -/
def Block.waitsWriteBack (b : Block) (op : CtxOp) : Bool :=
  match b.ctx.writeBack.look op.phys with
  | none => false
  | some s => op.kind == .prefetch || s == op.slot

/-- The slot that an operation copies out of. -/
def Block.copiedFrom (b : Block) (op : CtxOp) : Option (Nat × Nat) :=
  if op.kind ≠ .copy then none else if op.passed then some (op.fromPhys, op.fromSlot) else b.copySource op

/-- Whether an operation waits for an earlier one of its region that is under way: a clear of its slot or of the slot it copies
out of, or a copy out of its slot (R88). -/
def Block.orderWaits (b : Block) (op : CtxOp) : Bool :=
  (b.ctx.running.look (op.phys / 136)).any (fun o => o.region == op.region &&
    ((o.kind == .clear && ((o.phys == op.phys && o.slot == op.slot) || b.copiedFrom op == some (o.phys, o.slot))) ||
     (o.kind == .copy && b.copiedFrom o == some (op.phys, op.slot))))

/-- Whether a prefetch waits for its region to wake from Sleep (Table 4.11). -/
def Block.waitsWake (b : Block) (op : CtxOp) : Bool := op.kind == .prefetch && b.reg (Reg.powerState op.region) == 3

/-- Whether an operation meets a fence (R17, R445, R447): a prefetch one on the way from the store to the planes, a load one on the
configuration path its records come by, a clear or a copy that of its configuration die. -/
def Block.ctxFenced (b : Block) (op : CtxOp) : Bool :=
  let d := op.phys / 136
  match op.kind with
  | .prefetch => b.fenced (ctxPath d)
  | .load => b.fenced (cfgPath d)
  | _ => b.fenced [2 + 3 * d]

/-- A clear of a slot's directory entry and map (R83, R113). -/
def Block.clearDesc (b : Block) (p s : Nat) : Block :=
  (b.setDesc p s { gen := ((b.slotDesc p s).gen + 1) % 256 }).setMap p s 0

/-- An operation takes an engine and starts (R78, R82 to R84). -/
def Block.startEngine (b : Block) (op : CtxOp) : Block :=
  let d := op.phys / 136
  let b := (b.unshadow op.region op.slot).loseState op.phys op.slot
  let b := { b with ctx := { b.ctx with running := b.ctx.running.put d (b.ctx.running.look d ++ [op]) } }
  let x := b.slotDesc op.phys op.slot
  match op.kind with
  | .load =>
    (b.setDesc op.phys op.slot
      { x with state := .loading, kernel := op.kernel, image := op.image, borderSig := op.sig,
               gen := (x.gen + 1) % 256, dirty := false }).setMap op.phys op.slot op.map
  | .copy => b.setDesc op.phys op.slot { x with state := .loading, gen := (x.gen + 1) % 256 }
  | _ => b

/-- Load engines of a die that are neither retired nor fenced (R469). -/
def Block.enginesUp (b : Block) (d : Nat) : Nat :=
  ((List.range 8).filter (fun e => !b.fuses.health.testBit (1112 + 8 * d + e) && !b.groupGone 5 (8 * d + e))).length

/-- Whether an engine of a die is free with nothing queued before (R79). -/
def Block.engineFree (b : Block) (d : Nat) : Bool :=
  (b.ctx.running.look d).length < b.enginesUp d && (b.ctx.engineQueue.look d).isEmpty

/-- A prefetch starts its beats: the shadow plane is FILLING (R66). -/
def Block.startPrefetch (b : Block) (op : CtxOp) : Block :=
  let b := match b.shadowSlot op.region with
    | some s => b.loseState op.phys s
    | none => b
  let b := { b with ctx := { b.ctx with prefetch := b.ctx.prefetch.put op.phys (some op) } }
  (b.setReg (Reg.shadowState op.region) 1).setReg (Reg.shadowSlot op.region) op.slot

/-- Whether an operation of the slot position is in the engine queue or a prefetch of it is in progress: later
operations of the region wait behind it (R88). -/
def Block.orderHeld (b : Block) (p : Nat) : Bool :=
  (b.ctx.prefetch.look p).isSome || (b.ctx.engineQueue.look (p / 136)).any (fun o => o.phys == p)

/-- An operation in its place among those queued for an engine: in order of visibility (R79). -/
def queueInsert (op : CtxOp) (l : List CtxOp) : List CtxOp :=
  l.takeWhile (fun o => o.seq < op.seq) ++ op :: l.dropWhile (fun o => o.seq < op.seq)

/-- The block with the operations of a slot position that wait replaced. -/
def Block.setWaiting (b : Block) (p : Nat) (l : List CtxOp) : Block :=
  { b with ctx := { b.ctx with waiting := b.ctx.waiting.put p l } }

/-- An operation that has passed its checks starts: a prefetch completes at once or sends its beats, any other takes an engine or
queues for one (R66, R68, R79). Answers whether the order of the region goes on. -/
def Block.begins (b : Block) (op : CtxOp) : Bool × Block :=
  match op.kind with
  | .prefetch =>
    if b.reg (Reg.shadowState op.region) = 2 ∧ b.shadowSlot op.region = some op.slot then
      (true, (b.count (Reg.prefetches op.region) 1).ctxDone op Status.ok)
    else (false, b.startPrefetch op)
  | _ =>
    let d := op.phys / 136
    if b.engineFree d then (true, b.startEngine op)
    else (false, { b with ctx := { b.ctx with
            engineQueue := b.ctx.engineQueue.put d (queueInsert op (b.ctx.engineQueue.look d)) } })

/-- An operation judged by its own checks and Table 3.6; one that has to wait stays as it is. -/
def Block.judgeOp (b : Block) (op : CtxOp) : CtxOp :=
  match b.verdict op with
  | .waits => op
  | .ends st => { op with ending := some st }
  | .proceeds => { op with passed := true, fromPhys := match b.copySource op with | some (q, _) => q | none => 0 }

/-- An operation as it becomes visible (R87). One that an earlier operation of its region, still to be served or under way, would
give another condition of its slots is judged when that has been served (log 176). -/
def Block.judgeVisible (b : Block) (op : CtxOp) : CtxOp :=
  let ahead := b.ctx.waiting.look op.phys ++ (b.ctx.engineQueue.look (op.phys / 136)).filter (fun o => o.phys == op.phys)
  let touches (o : CtxOp) : Bool := o.kind != .prefetch &&
    (o.slot == op.slot || (op.kind == .copy && b.copySource op == some (o.phys, o.slot)))
  if ahead.any touches || b.orderWaits op then op else b.judgeOp op

/-- The head of a region's order served as far as it goes (R88). One that has been judged is not judged again (R87). -/
def Block.pump (b : Block) (p : Nat) : Nat → Block
  | 0 => b
  | fuel + 1 =>
    if b.orderHeld p then b
    else match b.ctx.waiting.look p with
      | [] => b
      | op :: rest =>
        let taken := b.setWaiting p rest
        if b.isRetired op.region && op.who != .relocation then (taken.ctxDone op Status.retired).pump p fuel
        else if b.ctxFenced op then (taken.ctxDone op Status.seamFence).pump p fuel
        else if b.orderWaits op then b
        else
          let op := if op.passed || op.ending.isSome then op else b.judgeOp op
          match op.ending with
          | some st =>
            let taken := if op.kind = .clear ∧ st = Status.ok then taken.clearDesc p op.slot else taken
            (taken.ctxDone op st).pump p fuel
          | none =>
            if !op.passed then b
            else if b.waitsWriteBack op || b.waitsWake op then b.setWaiting p (op :: rest)
            else match taken.begins op with
              | (true, b) => b.pump p fuel
              | (false, b) => b

/-- One slot position's order served. -/
def Block.serveOne (b : Block) (p : Nat) : Block := b.pump p ((b.ctx.waiting.look p).length + 1)

/-- Slot positions given up whose clears wait (R242). -/
def Block.clearsWaiting (b : Block) : List Nat :=
  (b.ctx.waiting.filter (fun e => e.2.any (fun o => o.who == .relocation && o.kind == .clear))).map (·.1)

/-- A region's order served, and then the clears of the slots that relocation gave up. -/
def Block.serve (b : Block) (p : Nat) : Block :=
  let b := b.serveOne p
  b.clearsWaiting.foldl Block.serveOne b

/-- An operation becomes visible at the configuration die (R88), unless the configuration path is fenced (R445, R447). -/
def Block.ctxSubmit (b : Block) (op : CtxOp) : Block :=
  if b.fenced (cfgPath (op.phys / 136)) then (b.ctxDone op Status.seamFence).serve op.phys else
  let op := b.judgeVisible { op with seq := b.ctx.opSeq }
  let b := { b with ctx := { b.ctx with opSeq := b.ctx.opSeq + 1 } }
  (b.setWaiting op.phys (b.ctx.waiting.look op.phys ++ [op])).serve op.phys

/-- LOAD_ENGINE_START (R79): the first of the operations queued starts on a free engine, unless it must wait for a write-back (R76);
one that meets a fence ends there and changes nothing (R17). -/
def Block.loadEngineStart (b : Block) (d : Nat) : Block :=
  match b.ctx.engineQueue.look d with
  | [] => b
  | op :: rest =>
    let taken := { b with ctx := { b.ctx with engineQueue := b.ctx.engineQueue.put d rest } }
    if b.ctxFenced op then (taken.ctxDone op Status.seamFence).serve op.phys
    else if (b.ctx.running.look d).length < b.enginesUp d && !b.waitsWriteBack op && !b.orderWaits op then
      (taken.startEngine op).serve op.phys
    else b

/-- Every operation queued for an engine of a die that can start. -/
def Block.startEngines (b : Block) (d : Nat) : Block :=
  (b.ctx.engineQueue.look d).foldl (fun b _ => b.loadEngineStart d) b

/-- The operation of a kind that runs on an engine into a slot. -/
def Block.runningOp (b : Block) (kind : CtxKind) (r slot : Nat) : Option CtxOp :=
  (b.ctx.running.look (dieOf r)).find? (fun o => o.kind == kind && o.region == r && o.slot == slot)

/-- An operation leaves its engine with a status; the region's order goes on. -/
def Block.endEngine (b : Block) (op : CtxOp) (status : Nat) : Block :=
  let d := op.phys / 136
  let b := { b with ctx := { b.ctx with running := b.ctx.running.put d ((b.ctx.running.look d).erase op) } }
  ((b.ctxDone op status).startEngines d).serve op.phys

/-- A slot cleared under R83: blank records, EMPTY, every field but GEN at its default. -/
def Block.clearSlot (b : Block) (r p s : Nat) : Block :=
  ((b.setStore p s []).clearDesc p s).unshadow r s

/-- The records of a library context: the first poisoned record, the first record that fails R57, and the records. -/
def Block.libraryRecords (b : Block) (src : Nat) : Option Nat × Option Nat × SMap Nat × Block :=
  (List.range 16384).foldl (fun (acc : Option Nat × Option Nat × SMap Nat × Block) i =>
    let (poison, bad, m, b) := acc
    let (d, p, b) := b.readLine (src / 64 + i)
    let a0 := bitsOf d 255 0
    let a1 := bitsOf d 511 256
    let poison := if poison.isNone && p then some (2 * i) else poison
    let bad := if bad.isSome then bad
      else if !recordLoads a0 then some (2 * i)
      else if !recordLoads a1 then some (2 * i + 1)
      else none
    (poison, bad, (m.put (2 * i) a0).put (2 * i + 1) a1, b)) (none, none, [], b)

/-- LOAD_END (R81): the load's records are checked as they come; the slot is LOADED, or cleared with POISON or
MALFORMED, whichever the engine met first. A load from bytes that a context package is writing is denied (R379). -/
def Block.loadEnd (b : Block) (r slot : Nat) : Block :=
  match b.runningOp .load r slot with
  | none => b
  | some op =>
    if b.libraryHeld op.src (2 ^ 20) then (b.clearSlot r op.phys slot).endEngine op Status.accessDenied
    else
    let (poison, bad, m, b) := b.libraryRecords op.src
    let fail : Option Nat := match poison, bad with
      | some i, some j => some (if i ≤ j then Status.poison else Status.malformed)
      | some _, none => some Status.poison
      | none, some _ => some Status.malformed
      | none, none => none
    match fail with
    | some st => (b.clearSlot r op.phys slot).endEngine op st
    | none =>
      let b := b.setStore op.phys slot m
      let b := b.setDesc op.phys slot { b.slotDesc op.phys slot with state := .loaded, uncorr := 0 }
      (b.count (Reg.loads r) 1).endEngine op Status.ok

/-- CLEAR_END (R83). -/
def Block.clearEnd (b : Block) (r slot : Nat) : Block :=
  match b.runningOp .clear r slot with
  | none => b
  | some op => (b.clearSlot r op.phys slot).endEngine op Status.ok

/-- COPY_END (R84): each source record is checked and mended as it is read; an uncorrectable record is copied unchanged
and makes the target DAMAGED and the status POISON. -/
def Block.copyEnd (b : Block) (r slot : Nat) : Block :=
  match b.runningOp .copy r slot with
  | none => b
  | some op =>
      let q := op.fromPhys
      let s := op.fromSlot
      let (n, b) := (b.slotCells q s).foldl (fun (acc : Nat × Block) c =>
        let k := checkRecord ((acc.2.slotStore q s).look c) (acc.2.slotDesc q s).isLoaded
        let b := acc.2.setStore q s ((acc.2.slotStore q s).put c k.word)
        let b := if k.sealMended then b.count (Reg.sealMends (q / 136)) 1 else b
        if k.uncorrectable then
          (acc.1 + 1, (b.count (Reg.recUncorr (q / 136)) 1).logEvent 0x0202 1 r (slot * 2 ^ 16 + c))
        else (acc.1, if k.corrected then b.count (Reg.recCorrected (q / 136)) 1 else b)) (0, b)
      let x := b.slotDesc q s
      let y := b.slotDesc op.phys slot
      let b := b.setStore op.phys slot (b.slotStore q s)
      let b := b.setMap op.phys slot (b.ctx.maps.look (slotKey q s))
      let b := b.setDesc op.phys slot
        { y with kernel := x.kernel, image := x.image, borderSig := x.borderSig, dirty := x.dirty,
                 uncorr := min n 255, state := if n = 0 then .loaded else .damaged }
      (b.count (Reg.loads r) 1).endEngine op (if n = 0 then Status.ok else Status.poison)

/-! Prefetch, switch and write-back. -/

/-- A pending switch is answered and dropped. -/
def Block.endSwitch (b : Block) (q : SwitchReq) (status : Nat) : Block :=
  let b := { b with ctx := { b.ctx with switches := b.ctx.switches.erase q } }
  match q.who with
  | .host => q.regions.foldl (fun b r => b.setReg (Reg.cmdStatus r) status) b
  | _ => q.regions.foldl (fun b r => b.noteFailure r 5 status) b

/-- A switch, a preemption or an end pending for a region, or no more: the bridge drives SWITCH_PENDING, MREQ_READY and SOUT_READY by
it from its next edge on (R119, R123). -/
def Block.setSwitchPending (b : Block) (r : Nat) (v : Bool) : Block :=
  { b with rgn := { b.rgn with pendingFlag := b.rgn.pendingFlag.put r v } }

/-- A switch that finds its shadow plane EMPTY or TAINTED is refused with MALFORMED (R73). -/
def Block.judgeSwitch (b : Block) (q : SwitchReq) : Block :=
  if q.regions.any (fun r => b.reg (Reg.shadowState r) == 0 || b.reg (Reg.shadowState r) == 3) then
    q.regions.foldl (fun b r => b.setSwitchPending r false) (b.endSwitch q Status.malformed)
  else b

/-- A switch is requested for the regions of a span (R72, R73, R123). -/
def Block.requestSwitch (b : Block) (q : SwitchReq) : Block :=
  let b := { b with ctx := { b.ctx with switches := b.ctx.switches ++ [q] } }
  (q.regions.foldl (fun b r => b.setSwitchPending r true) b).judgeSwitch q

/-- PREFETCH_END (R66, R67): READY, or TAINTED with blank records for the uncorrectable ones. -/
def Block.prefetchEnd (b : Block) (r : Nat) : Block :=
  let p := b.phys r
  match b.ctx.prefetch.look p with
  | none => b
  | some op =>
    let (bad, plane, b) := (b.slotCells p op.slot).foldl (fun (acc : Bool × SMap Nat × Block) c =>
      let (k, b) := acc.2.2.accessRecord r p op.slot c
      (acc.1 || k.uncorrectable, acc.2.1.put c (if k.uncorrectable then 0 else k.word), b)) (false, [], b)
    let b := { b with ctx := { b.ctx with shadow := b.ctx.shadow.put p plane, prefetch := b.ctx.prefetch.put p none } }
    let b := b.count (Reg.prefetches r) 1
    let b := if bad then (b.setReg (Reg.shadowState r) 3).count (Reg.prefetchFails r) 1
             else b.setReg (Reg.shadowState r) 2
    let b := b.ctxDone op (if bad then Status.poison else Status.ok)
    let b := match b.switchOf r with
      | some q => b.judgeSwitch q
      | none => b
    b.serve p

/-- Borders of region r kept open through its switch (R115): both sides of one run, the signatures of each side that
switches equal and nonzero, the border joinable before and after. `b` is the state before the edge and `q` the span. -/
def Block.keptBorders (b : Block) (q : SwitchReq) (r : Nat) : Nat :=
  let sig (x : Nat) : Bool :=
    if q.regions.contains x then
      match b.activeSlot x, b.shadowSlot x with
      | some s, some s' =>
        (b.slotDesc (b.phys x) s).borderSig == (b.slotDesc (b.phys x) s').borderSig &&
          (b.slotDesc (b.phys x) s).borderSig != 0
      | _, _ => false
    else true
  let bridgeOffAfter (x : Nat) : Bool :=
    if q.regions.contains x then
      match b.shadowSlot x with
      | some s => (b.ctx.maps.look (slotKey (b.phys x) s)).testBit 0
      | none => false
    else b.bridgeOff x
  maskOf ((allDirs.filter (fun d => match b.across r d with
    | none => false
    | some o => b.borderOpen r d && sig r && sig o && (q.starts.isEmpty || q.starts.contains o) &&
        (match d with
          | .north => bridgeOffAfter o
          | .south => bridgeOffAfter r
          | _ => true))).map (·.border))

/-- One region's planes exchanged at the switch edge (R69, R114, R115). `b0` is the state before the edge. -/
def Block.switchRegion (b0 : Block) (q : SwitchReq) (b : Block) (r : Nat) : Block :=
  let p := b.phys r
  let out := b.activeSlot r
  let inn := b.reg (Reg.shadowSlot r)
  let old := b.ctx.active.look p
  let new := b.ctx.shadow.look p
  let kept := b0.keptBorders q r
  let writes := (match out with | some _ => true | none => false) && old.any (fun e => stateKeep e.2)
  let b := { b with
    ctx := { b.ctx with
      active := b.ctx.active.put p new
      shadow := b.ctx.shadow.put p (if out.isSome then old else [])
      skipped := b.ctx.skipped.put (slotKey p inn) false
      lost := b.ctx.lost.put (slotKey p inn) false
      writeBack := b.ctx.writeBack.put p (if writes then out else none) }
    rgn := { b.rgn with
      closing := b.rgn.closing.put r (2, kept)
      switchAt := b.rgn.switchAt.put r (some b.clock)
      raised := b.rgn.raised.put r []
      mapFault := b.rgn.mapFault.put r (b.ctx.mapBad.contains (slotKey p inn)) }
    disp := { b.disp with stale := b.disp.stale.put r false }
    mig := { b.mig with counted := b.mig.counted.put r 0 } }
  let b := ((b.setReg (Reg.activeSlot r) inn).setReg (Reg.shadowState r) (if out.isSome then 2 else 0)).setReg
    (Reg.shadowSlot r) (match out with | some s => s | none => 0xFF)
  let b := b.setDesc p inn { b.slotDesc p inn with lastIn := b.cricket % 2 ^ 32 }
  let b := if kept ≠ 0 then b.count (Reg.sigKeeps r) 1 else b
  let b := if b.rgn.mapFault.look r then b.raiseMap r 0 0 else b
  ((b.count (Reg.switches r) 1).setSwitchPending r false).drivePorts r

/-- SWITCH_EDGE (R69 to R72): every region of the span whose flip-flops this edge held exchanges its planes. -/
def Block.switchEdge (b : Block) (r : Nat) : Block :=
  match b.switchOf r with
  | none => b
  | some q => ((q.regions.foldl (b.switchRegion q) b).endSwitch q Status.ok).refreshBorders

/-- Whether the edge just taken is the switch edge of a region: it held the flip-flops of every region of the span, and
the conditions of R71 stand. -/
def Block.switchTaken (b : Block) (r : Nat) : Bool :=
  b.clk.lastEdge == some b.clock && b.switchDue b.clock r &&
    (match b.switchOf r with
      | some q => q.regions.all (fun x => b.rgn.heldEdge.look x == some b.clock)
      | none => false)

/-- WRITE_BACK (R75, R77): the state bits of STATE_KEEP records go back into the slot; a record found uncorrectable is
skipped. -/
def Block.writeBackEnd (b : Block) (r : Nat) : Block :=
  let p := b.phys r
  match b.ctx.writeBack.look p with
  | none => b
  | some s =>
    let plane := (b.ctx.shadow.look p).filter (fun e => stateKeep e.2)
    let b := plane.foldl (fun b e =>
      let (k, b) := b.accessRecord r p s e.1
      if k.uncorrectable then
        let b := b.count (Reg.writebackSkips r) 1
        { b with ctx := { b.ctx with skipped := b.ctx.skipped.put (slotKey p s) true
                                     skipAt := b.ctx.skipAt.put (slotKey p s) b.run } }
      else
        let b := b.setStore p s ((b.slotStore p s).put e.1 (writeState k.word (e.2.testBit 222) (e.2.testBit 223)))
        b.setDesc p s { b.slotDesc p s with dirty := true }) b
    let b := { b with ctx := { b.ctx with writeBack := b.ctx.writeBack.put p none } }
    (b.startEngines (p / 136)).serve p

/-! Capture. -/

/-- The capture bits of a plane (R94). -/
def captureBits (plane : SMap Nat) : Nat :=
  plane.foldl (fun a e =>
    if captureEn e.2 then
      putBit (putBit a (2 * e.1) (e.2.testBit 222)) (2 * e.1 + 1) (e.2.testBit 223)
    else a) 0

/-- A region's state on its way to its capture buffer, as its active plane holds it now. -/
def Block.takeCapture (b : Block) (r : Nat) : Block :=
  { b with ctx := { b.ctx with
      captureDue := b.ctx.captureDue.put r false
      captureTaken := b.ctx.captureTaken.put r
        (some (b.reg (Reg.activeSlot r), b.clock, captureBits (b.ctx.active.look (b.phys r)))) } }

/-- CAPTURE_EDGE (R91 to R94): every region frozen with it sends its state to its own buffer. -/
def Block.captureEdge (b : Block) (r : Nat) : Block := (b.frozenWith r).foldl Block.takeCapture b

/-- Whether the edge just taken is the capture edge of a region. -/
def Block.captureDueNow (b : Block) (r : Nat) : Bool :=
  b.ctx.captureDue.look r && b.clk.lastEdge == some b.clock &&
    (b.frozenWith r).all (fun q => b.rgn.frozenEdge.look q == some b.clock)

/-- CAPTURE_END (R94): the buffer is complete four configuration-die cycles after the capture edge. -/
def Block.captureEnd (b : Block) (r : Nat) : Block :=
  match b.ctx.captureTaken.look r with
  | none => b
  | some (slot, c, bits) =>
    let b := { b with ctx := { b.ctx with captureTaken := b.ctx.captureTaken.put r none } }
    b.setRegs [(Reg.captureStatus r, 2), (Reg.captureSlot r, slot), (Reg.captureTime r, c / refclk),
      (Reg.captureData r, bits)]

/-! Host writes. -/

/-- Whether the scarabs hold a region assigned to a run (R97). -/
def Block.assigned (b : Block) (r : Nat) : Bool :=
  (b.runOf r).isSome || (b.disp.claim.look r).isSome || b.disp.reserved.any (fun v => v.set.contains r)

/-- The conditions of R97 for CMD_OP and REGION_RESET, and those of R99 and R128. -/
def Block.cmdChecks (b : Block) (key v r : Nat) : List (Bool × Nat) :=
  [badValue key v, (b.isRetired r, Abort.retired), (b.reg (Reg.cmdStatus r) ≥ 128, Abort.busy),
   (b.fmode fnPlacement = 0, Abort.mode), (b.assigned r, Abort.condition)]

/-- The context operation that the CMD_* objects of a region describe. -/
def Block.cmdOpOf (b : Block) (r : Nat) (kind : CtxKind) : CtxOp :=
  { kind, who := .host, region := r, phys := b.phys r, slot := b.reg (Reg.cmdSlot r), src := b.reg (Reg.cmdSrc r),
    kernel := b.reg (Reg.cmdKernel r), image := b.reg (Reg.cmdImage r), sig := b.reg (Reg.cmdBorderSig r), map := 0,
    fromUnit := b.reg (Reg.cmdFromRegion r), fromSlot := b.reg (Reg.cmdFromSlot r) }

/-- A write of CMD_OP (R97): accepted, it latches the command objects and is carried out. -/
def Block.writeCmdOp (b : Block) (r v : Nat) : Nat × Block :=
  b.guarded (b.cmdChecks (Reg.cmdOp r) v r) (fun b =>
    let b' := b.setReg (Reg.cmdStatus r) 128
    match v with
    | 1 => b'.ctxSubmit (b.cmdOpOf r .load)
    | 2 => b'.ctxSubmit (b.cmdOpOf r .prefetch)
    | 3 => b'.requestSwitch { regions := [r], who := .host, run := none }
    | 4 => b'.ctxSubmit (b.cmdOpOf r .clear)
    | _ => b'.ctxSubmit (b.cmdOpOf r .copy))

/-- Several registers written by the host in turn; the first abort stops. -/
def Block.writePlain (b : Block) : List (Nat × Nat) → Nat × Block
  | [] => (Abort.none, b)
  | (k, v) :: l =>
    if checkValue k v = Abort.none then (b.setReg k v).writePlain l else (checkValue k v, b)

/-- A host command of a context operation: the command objects it names, then CMD_OP. -/
def Block.hostCommand (b : Block) (r v : Nat) (objs : List (Nat × Nat)) : Nat × Block :=
  match b.writePlain objs with
  | (0, b') => b'.writeCmdOp r v
  | (a, b') => (a, b')

/-- A context operation of a scarab or a relocation, commanded for region r. -/
def Block.deviceCommand (b : Block) (op : CtxOp) : Block := if b.clocked then b.ctxSubmit op else b

/-- LOAD. -/
def execLoad (who : Who) (r slot src kernel image sig map : Nat) (s : State) : Host.Outcome State Fault Refusal :=
  s.answer (who == .host || wfRegion r && wfSlot slot) (match who with
    | .host => s.blk.host (inRecord (wfRegion r) fun b => b.hostCommand r 1
        [(Reg.cmdSlot r, slot), (Reg.cmdSrc r, src), (Reg.cmdKernel r, kernel), (Reg.cmdImage r, image),
         (Reg.cmdBorderSig r, sig)])
    | w => s.blk.deviceCommand
        { kind := .load, who := w, region := r, phys := s.blk.phys r, slot, src, kernel, image, sig, map })

/-- LOAD_ENGINE_START. -/
def execLoadEngineStart (die : Nat) (s : State) : Host.Outcome State Fault Refusal :=
  s.answer (wfDie die) (if s.blk.clocked then s.blk.loadEngineStart die else s.blk)

/-- LOAD_END. -/
def execLoadEnd (r slot t : Nat) (s : State) : Host.Outcome State Fault Refusal :=
  s.answer (wfRegion r && wfSlot slot) (s.blk.event t (fun b => b.loadEnd r slot))

/-- PREFETCH. -/
def execPrefetch (who : Who) (r slot : Nat) (s : State) : Host.Outcome State Fault Refusal :=
  s.answer (who == .host || wfRegion r && wfSlot slot) (match who with
    | .host => s.blk.host (inRecord (wfRegion r) fun b => b.hostCommand r 2 [(Reg.cmdSlot r, slot)])
    | w => s.blk.deviceCommand { kind := .prefetch, who := w, region := r, phys := s.blk.phys r, slot })

/-- PREFETCH_END. -/
def execPrefetchEnd (r t : Nat) (s : State) : Host.Outcome State Fault Refusal :=
  s.answer (wfRegion r) (s.blk.event t (fun b => b.prefetchEnd r))

/-- SWITCH: the host commands it of one region (R97), a scarab of the regions of a span. -/
def execSwitch (who : Who) (rs : List Nat) (s : State) : Host.Outcome State Fault Refusal :=
  s.answer (who == .host || rs.all wfRegion) (match who, rs with
    | .host, r :: _ => s.blk.host (inRecord (wfRegion r) fun b => b.writeCmdOp r 3)
    | .host, [] => s.blk
    | w, _ => if s.blk.clocked then
        s.blk.requestSwitch { regions := rs, who := w, run := rs.head?.bind s.blk.runOf }
      else s.blk)

/-- WRITE_BACK. -/
def execWriteBack (r t : Nat) (s : State) : Host.Outcome State Fault Refusal :=
  s.answer (wfRegion r) (s.blk.event t (fun b => b.writeBackEnd r))

/-- CLEAR. -/
def execClear (who : Who) (r slot : Nat) (s : State) : Host.Outcome State Fault Refusal :=
  s.answer (who == .host || wfRegion r && wfSlot slot) (match who with
    | .host => s.blk.host (inRecord (wfRegion r) fun b => b.hostCommand r 4 [(Reg.cmdSlot r, slot)])
    | w => s.blk.deviceCommand { kind := .clear, who := w, region := r, phys := s.blk.phys r, slot })

/-- CLEAR_END. -/
def execClearEnd (r slot t : Nat) (s : State) : Host.Outcome State Fault Refusal :=
  s.answer (wfRegion r && wfSlot slot) (s.blk.event t (fun b => b.clearEnd r slot))

/-- COPY: the host names a logical source region, a relocation a physical slot (R84, R241). -/
def execCopy (who : Who) (r slot fromR fromSlot : Nat) (s : State) : Host.Outcome State Fault Refusal :=
  s.answer (who == .host || wfRegion r && wfSlot slot && wfSlot fromSlot) (match who with
    | .host => s.blk.host (inRecord (wfRegion r) fun b => b.hostCommand r 5
        [(Reg.cmdSlot r, slot), (Reg.cmdFromRegion r, fromR), (Reg.cmdFromSlot r, fromSlot)])
    | w => s.blk.deviceCommand
        { kind := .copy, who := w, region := r, phys := s.blk.phys r, slot, fromUnit := fromR, fromSlot })

/-- COPY_END (R84, R241). -/
def execCopyEnd (r slot t : Nat) (s : State) : Host.Outcome State Fault Refusal :=
  s.answer (wfRegion r && wfSlot slot) (s.blk.event t (fun b => b.copyEnd r slot))

/-- Whether a region is being retired: its slot's retirement has begun (R95, R469). -/
def Block.beingRetired (b : Block) (r : Nat) : Bool :=
  b.rgn.heldOut.contains (b.phys r) || b.rgn.shut.contains (b.phys r)

/-- A write of CAPTURE_REQ (R91, R95, R99): it fails for a region in Sleep, being retired, or behind a fence (R447). Before the global
start it is served directly from the active plane, with no capture edge (R375). -/
def Block.writeCaptureReq (b : Block) (r v : Nat) : Nat × Block :=
  b.guarded [badValue (Reg.captureReq r) v, (b.isRetired r, Abort.retired),
      (b.reg (Reg.captureStatus r) = 1, Abort.busy)] (fun b =>
    if b.reg (Reg.powerState r) = 3 ∨ b.beingRetired r ∨ b.fenced (ctxPath (dieOf r)) then b.setReg (Reg.captureStatus r) 3
    else if !b.started then (b.takeCapture r).setReg (Reg.captureStatus r) 1
    else { b with ctx := { b.ctx with captureDue := b.ctx.captureDue.put r true } }.setReg (Reg.captureStatus r) 1)

/-- CAPTURE_REQ. -/
def execCaptureReq (r v : Nat) (s : State) : Host.Outcome State Fault Refusal :=
  s.answer true (s.blk.host (inRecord (wfRegion r) (fun b => b.writeCaptureReq r v)))

/-- CAPTURE_EDGE. -/
def execCaptureEdge (r t : Nat) (s : State) : Host.Outcome State Fault Refusal :=
  s.answer (wfRegion r) (s.blk.eventIf t (fun b => b.captureDueNow r) (fun b => b.captureEdge r))

/-- CAPTURE_END. -/
def execCaptureEnd (r t : Nat) (s : State) : Host.Outcome State Fault Refusal :=
  s.answer (wfRegion r) (s.blk.event t (fun b => b.captureEnd r))

/-- A write of PIN_MASK (R98): mirrored in the descriptors at once. -/
def Block.writePinMask (b : Block) (r v : Nat) : Nat × Block :=
  b.guarded [badValue (Reg.pinMask r) v, (v ≥ 2 ^ 16, Abort.length)] (fun b => b.setReg (Reg.pinMask r) v)

/-- PIN_MASK. -/
def execPinMask (r v : Nat) (s : State) : Host.Outcome State Fault Refusal :=
  s.answer true (s.blk.host (inRecord (wfRegion r) (fun b => b.writePinMask r v)))

/-- A write of BORDER_MAP (R113, R128). -/
def Block.writeBorderMap (b : Block) (r slot map : Nat) : Nat × Block :=
  b.guarded
    [(map ≥ 2 ^ 1024, Abort.length),
     (bitsOf map 127 1 ≠ 0 ∨ (List.range 448).any (fun g => bitsOf map (129 + 2 * g) (128 + 2 * g) == 3), Abort.value),
     (b.isRetired r, Abort.retired),
     (b.fmode fnPlacement = 0, Abort.mode),
     (b.activeSlot r = some slot, Abort.condition)]
    (fun b => b.setMap (b.phys r) slot map)

/-- BORDER_MAP. -/
def execBorderMap (r slot map : Nat) (s : State) : Host.Outcome State Fault Refusal :=
  s.answer true (s.blk.host (inRecord (wfRegion r && wfSlot slot) (fun b => b.writeBorderMap r slot map)))

/-- A write of REGION_RESET (R38, Table 4.13). -/
def Block.writeRegionReset (b : Block) (r v : Nat) : Nat × Block :=
  b.guarded (b.cmdChecks (Reg.regionReset r) v r) (fun b =>
    { b with rgn := { b.rgn with resetDue := b.rgn.resetDue.put r true } })

/-- REGION_RESET. -/
def execRegionReset (r v : Nat) (s : State) : Host.Outcome State Fault Refusal :=
  s.answer true (s.blk.host (inRecord (wfRegion r) (fun b => b.writeRegionReset r v)))

end Sys2Proof.Machine
end

