-- ==== Sys2Proof/Machine/Wake.lean ====
section
/-! DEFINITION. Region power states (R126, R428) and the requests made to the wake governor (R430). -/

namespace Sys2Proof.Machine

open Sys2Proof

/-- Whether a unit has a request waiting; a unit holds at most one (R430). -/
def Block.wakeQueued (b : Block) (rail unit : Nat) : Bool := b.wg.queue.any (fun q => q.rail == rail && q.unit == unit)

/-- A wake request becomes visible (R430). -/
def Block.requestWake (b : Block) (rail unit priority kind : Nat) : Block :=
  if b.wakeQueued rail unit then b
  else { b with wg := { b.wg with queue := b.wg.queue ++ [⟨rail, unit, priority, kind, b.ts, b.run, false⟩] } }

/-- A request withdrawn with its unit (R430). -/
def Block.withdrawWake (b : Block) (rail unit : Nat) : Block :=
  { b with wg := { b.wg with queue := b.wg.queue.filter (fun q => !(q.rail == rail && q.unit == unit)) } }

/-- A region is asked to wake for a run of a priority, if it is in Nap or Sleep and no wake is under way (R196). -/
def Block.wakeRegion (b : Block) (r priority : Nat) : Block :=
  if b.reg (Reg.powerState r) ≥ 2 ∧ (b.rgn.regionWake.look r).isNone then
    b.requestWake 0 r priority (b.reg (Reg.powerState r) - 2)
  else b

/-- The time a region has been idle: from the edge at which it last held a run, or from the global start (R126). -/
def Block.idleTime (b : Block) (r : Nat) : Nat :=
  match b.rgn.idleSince.look r with
  | some t => b.run - t
  | none => b.run - b.reg Reg.startEdge * refclk

/-- Whether a region holds no run and is wanted by none. -/
def Block.idleRegion (b : Block) (r : Nat) : Bool :=
  b.started && (b.runOf r).isNone && (b.disp.claim.look r).isNone && (b.rgn.regionWake.look r).isNone &&
    !b.wakeQueued 0 r && !b.isRetired r

/-- REGION_NAP (R126, R428): at a cricket tick, a dozing region idle for IDLE_NAP_US. -/
def Block.napDue (b : Block) (r : Nat) : Bool :=
  b.clock % tick == 0 && b.idleRegion r && b.reg (Reg.powerState r) ≤ 1 && b.idleTime r ≥ us (b.reg Reg.idleNapUs)

def execRegionNap (r t : Nat) (s : State) : Host.Outcome State Fault Refusal :=
  s.answer (wfRegion r) (s.blk.eventIf t (fun b => b.napDue r) (fun b => (b.setReg (Reg.powerState r) 2).refreshBorders))

/-- Whether no prefetch, write-back or capture of a region is in progress, so that it may enter Sleep (R89). -/
def Block.maySleep (b : Block) (r : Nat) : Bool :=
  (b.ctx.prefetch.look (b.phys r)).isNone && (b.ctx.writeBack.look (b.phys r)).isNone &&
    !(b.ctx.captureDue.look r) && (b.ctx.captureTaken.look r).isNone

/-- REGION_SLEEP (R89, R126, R428, R434): at a cricket tick at which no prefetch, write-back or capture of the region is in
progress, an idle region for IDLE_SLEEP_US, or any region as the device enters Hibernate. -/
def Block.sleepDue (b : Block) (r : Nat) : Bool :=
  b.clock % tick == 0 && b.reg (Reg.powerState r) ≤ 2 && b.maySleep r &&
    ((b.idleRegion r && b.idleTime r ≥ us (b.reg Reg.idleSleepUs)) || (b.clk.hibernating && !b.isRetired r))

/-- The planes of a region are lost: both blank, the shadow EMPTY, no slot active (R65, R89). -/
def Block.blankPlanes (b : Block) (r : Nat) : Block :=
  let p := b.phys r
  let b := b.emptyShadow r
  { b with
    ctx := { b.ctx with active := b.ctx.active.put p [] }
    rgn := { b.rgn with
      hold := b.rgn.hold.keep (fun k => k / 8 != r)
      raised := b.rgn.raised.put r []
      mapFault := b.rgn.mapFault.put r false } }.setReg (Reg.activeSlot r) 0xFF

/-- A region enters Sleep. -/
def Block.regionSleeps (b : Block) (r : Nat) : Block := (b.blankPlanes r).setReg (Reg.powerState r) 3

/-- REGION_WAKE_END (Table 4.11): a wake granted 2 µs ago from Nap, or 20 µs ago from Sleep, ends: the region is Active. -/
def Block.wakeEndDue (b : Block) (r : Nat) : Bool :=
  match b.rgn.regionWake.look r with
  | some t => b.run ≥ t + us (if b.reg (Reg.powerState r) = 2 then 2 else 20)
  | none => false

/-- The region is Active. Its time idle runs on from the edge at which it last held a run (R126). -/
def Block.wakeEnd (b : Block) (r : Nat) : Block :=
  ({ b with rgn := { b.rgn with regionWake := b.rgn.regionWake.put r none } }).setReg
    (Reg.powerState r) 0 |>.serve (b.phys r)

def execRegionWakeEnd (r t : Nat) (s : State) : Host.Outcome State Fault Refusal :=
  s.answer (wfRegion r) (s.blk.eventIf t (fun b => b.wakeEndDue r) (fun b => (b.wakeEnd r).refreshBorders))

end Sys2Proof.Machine
end

