-- ==== Sys2Proof/Machine/Lanes.lean ====
section
/-! DEFINITION. The serial lanes: their states, the stages of bring-up, the TRAIN exchange, the codewords and the tests
(R275 to R311). -/

namespace Sys2Proof.Machine

open Sys2Proof

/-! Lanes and links. -/

/-- The link index of the link that a lane belongs to (R312). -/
def Block.linkOf (b : Block) (l : Nat) : Nat :=
  8 * (l / 8) + (((List.range 8).filter (fun i => decide (i ≤ l % 8) && b.startsLink (8 * (l / 8) + i))).getLast?.getD 0)

/-- The lanes of a link. -/
def Block.lanesOf (b : Block) (lk : Nat) : List Nat := (List.range (b.linkWidth lk)).map (lk + ·)

/-- The lanes of a link with LANE_EN = 1: those that take part in its bring-up. -/
def Block.enabledLanes (b : Block) (lk : Nat) : List Nat := (b.lanesOf lk).filter (fun l => b.reg (Reg.laneEn l) == 1)

/-- What a lane keeps. -/
def Block.laneAt (b : Block) (l : Nat) : LaneRun := b.link.lanes.get (fun _ => {}) l

/-- The block with what a lane keeps replaced. -/
def Block.setLane (b : Block) (l : Nat) (x : LaneRun) : Block :=
  { b with link := { b.link with lanes := b.link.lanes.set (fun _ => {}) l x } }

/-- What a link keeps. -/
def Block.linkAt (b : Block) (lk : Nat) : LinkRun := b.link.runs.get (fun _ => {}) lk

/-- The block with what a link keeps replaced. -/
def Block.setLink (b : Block) (lk : Nat) (x : LinkRun) : Block :=
  { b with link := { b.link with runs := b.link.runs.set (fun _ => {}) lk x } }

/-- The block with what a link keeps changed. -/
def Block.modLink (b : Block) (lk : Nat) (f : LinkRun → LinkRun) : Block := b.setLink lk (f (b.linkAt lk))

/-- STATE of a lane (Table 9.6). -/
abbrev lOff : Nat := 0
abbrev lDetect : Nat := 1
abbrev lEq : Nat := 2
abbrev lCdr : Nat := 3
abbrev lAlign : Nat := 4
abbrev lPolarity : Nat := 5
abbrev lOrder : Nat := 6
abbrev lDeskew : Nat := 7
abbrev lFec : Nat := 8
abbrev lUp : Nat := 9
abbrev lIdle : Nat := 10
abbrev lTest : Nat := 11

/-- The state of a lane. -/
def Block.laneState (b : Block) (l : Nat) : Nat := b.reg (Reg.laneState l)

/-- A lane in DETECT to UP or TEST is Active (R300). -/
def Block.laneActive (b : Block) (l : Nat) : Bool :=
  decide (1 ≤ b.laneState l ∧ b.laneState l ≤ 9) || b.laneState l == lTest

/-- A lane whose received stream is aligned. -/
def Block.laneAligned (b : Block) (l : Nat) : Bool := decide (5 ≤ b.laneState l ∧ b.laneState l ≤ 9)

/-- Lanes in UP. -/
def Block.upLanes (b : Block) (lk : Nat) : List Nat := (b.lanesOf lk).filter (fun l => b.laneState l == lUp)

/-- RX_UP of a link: bit i for lane b + i (Table 10.3). -/
def Block.rxUp (b : Block) (lk : Nat) : Nat := maskOf ((b.upLanes lk).map (· - lk))

/-- A length of time of `n` block times at a rate, compared: whether `d` root periods hold them. One block takes
130 · 544 / (514 · 4) root periods at RATE 0 (Table 9.1). -/
def blocksFit (rate d n : Nat) : Bool := decide (d * 2056 ≥ n * 70720 * 2 ^ rate)

/-- The number of block times, to the nearest, in `d` root periods. -/
def blocksIn (rate d : Nat) : Nat := (2 * d * 2056 + 70720 * 2 ^ rate) / (2 * 70720 * 2 ^ rate)

/-! The TRAIN block (R282). -/

/-- RX_STAGE of a lane. -/
def Block.rxStage (b : Block) (l : Nat) : Nat :=
  let st := b.laneState l
  if st < 5 then 0 else if st < 7 then 1 else if st = 7 then 2 else if (b.laneAt l).locked then 4 else 3

/-- The TRAIN block a lane sends: it asks nothing of its partner's taps. -/
def Block.trainBlock (b : Block) (l : Nat) : Nat :=
  withCrc16 (0x2D * 2 ^ 120 + b.rxStage l * 2 ^ 117 + l % 8 * 2 ^ 114 + b.reg (Reg.rate l) * 2 ^ 111 + b.node * 2 ^ 99 +
    l / 8 * 2 ^ 93 + (b.laneAt l).preAck * 2 ^ 87 + (b.laneAt l).postAck * 2 ^ 85)

/-! What a lane sends (R278 to R284, R289, R290): the transmitter of its link, run over the lanes that send (`Transmit.lean`). -/

/-- Whether a lane sends blocks: in bring-up and UP, and in IDLE until its own link goes idle, from the burst that ends that on
(R290, R301, R302). -/
def Block.laneSends (b : Block) (l : Nat) : Bool :=
  decide (1 ≤ b.laneState l ∧ b.laneState l ≤ lIdle) &&
    !(b.reg (Reg.linkState (b.linkOf l)) == 4 && (b.linkAt (b.linkOf l)).leaving == 0)

/-- The transmitter of a link. -/
def Block.txOf (b : Block) (lk : Nat) : Tx where
  lanes := ((b.lanesOf lk).filter b.laneSends).map (fun l =>
    { lane := l, goesUp := decide (lUp ≤ b.laneState l), train := controlBlock (b.trainBlock l), tx := (b.laneAt l).tx })
  slot := (b.linkAt lk).tx.slot
  free := b.free

/-- What a link's transmitter has done by `f`: the lanes' and the link's transmit state, and what has been sent. -/
def Block.transmit (b : Block) (lk : Nat) (f : Tx → Tx) : Block :=
  let t := f (b.txOf lk)
  let runs := b.link.runs.set (fun _ => {}) lk { b.linkAt lk with tx := { (b.linkAt lk).tx with slot := t.slot } }
  { b with
    link := { b.link with lanes := t.lanes.foldl (fun m x => m.set (fun _ => {}) x.lane { b.laneAt x.lane with tx := x.tx }) b.link.lanes
                          runs := runs }
    outbox := t.out ++ b.outbox
    free := t.free }

/-- The training stream of a lane in bring-up sent once its content may have changed (R290). -/
def Block.sendTrain (b : Block) (l : Nat) : Block :=
  if 1 ≤ b.laneState l ∧ b.laneState l ≤ 8 then b.transmit (b.linkOf l) (fun t => t.begun.fillWords) else b

/-- A lane of bring-up or UP ends its stream; what it sends next opens a superframe. -/
def Block.stopStream (b : Block) (l : Nat) : Block := b.setLane l { b.laneAt l with tx := {} }

/-! Entering states. -/

/-- An eye count that its lane leaves ends with PATH_LOST (R307). -/
def Block.dropEye (b : Block) (l : Nat) : Block :=
  if (b.laneAt l).eye.isSome then (b.setLane l { b.laneAt l with eye := none }).setReg (Reg.eyeStatus l) Status.pathLost
  else b

/-- Half root periods of a symbol at a rate (Table 9.1). -/
def symbolHalves (rate : Nat) : Nat := nthD [1, 2, 2, 4, 8] rate 8

/-- Bits that a lane receives in `d` root periods at a rate: two a symbol in PAM4. -/
def bitsIn (rate d : Nat) : Nat := 2 * d / symbolHalves rate * (if rate < 2 then 2 else 1)

/-- TEST_BITS by now: the bits checked since the lock while it stands (R308). -/
def Block.testBitsNow (b : Block) (l : Nat) : Nat :=
  if b.reg (Reg.testLock l) = 1 then
    satAdd (b.reg (Reg.testBits l)) (bitsIn (b.reg (Reg.rate l)) (b.run - (b.laneAt l).lockedAt)) (2 ^ 64 - 1)
  else b.reg (Reg.testBits l)

/-- The checker stops with the lane's test: what it has counted stays (R308). -/
def Block.dropLock (b : Block) (l : Nat) : Block := (b.setReg (Reg.testBits l) (b.testBitsNow l)).setReg (Reg.testLock l) 0

/-- A lane enters a state: the time, and the mode of link training, which takes effect at an entry (R297). FEC counts the codewords
decoded in it (R294). -/
def Block.enterLane (b : Block) (l st : Nat) : Block :=
  let was := b.laneState l
  let b := if (was = lUp ∨ was = lTest) ∧ st ≠ was then b.dropEye l else b
  let b := if was = lTest ∧ st ≠ lTest then b.dropLock l else b
  let b := if st = lTest ∨ (lUp ≤ was ∧ st < lUp) then b.stopStream l else b
  let x := b.laneAt l
  let b := (b.setReg (Reg.laneState l) st).setLane l
    { x with since := b.run, steady := b.run, hosted := b.fmode fnTraining == 1
             goodWords := if st = lFec ∧ was ≠ lFec then 0 else x.goodWords }
  b.sendTrain l

/-- A lane's reception begins again at ALIGN: nothing of its partner is known. -/
def Block.clearRx (b : Block) (l : Nat) : Block :=
  b.setLane l { b.laneAt l with trainLane := 0, trainCount := 0, partnerLocked := false, locked := false, goodWords := 0,
                                badWords := 0, preAck := 0, postAck := 0, framed := false, slot := 0, history := 0, skip := 0,
                                part := 0, partBits := 0, tainted := false, missed := 0, marked := false }

/-- A lane enters DETECT at a rate it keeps. -/
def Block.toDetect (b : Block) (l : Nat) : Block := (b.clearRx l).enterLane l lDetect

/-- The fastest and the slowest rate that every lane of a link allows: all its lanes run at one rate (R277). -/
def Block.linkRateMax (b : Block) (lk : Nat) : Nat := (b.enabledLanes lk).foldl (fun m l => max m (b.reg (Reg.rateMax l))) 0
def Block.linkRateMin (b : Block) (lk : Nat) : Nat := (b.enabledLanes lk).foldl (fun m l => min m (b.reg (Reg.rateMin l))) 4

/-- The lanes of a link whose rate a lane that begins has to share: those past DETECT, in Idle or in TEST (R277). -/
def Block.rateHolders (b : Block) (l : Nat) : List Nat :=
  (b.lanesOf (b.linkOf l)).filter (fun k => k != l && decide (lDetect < b.laneState k))

/-- A lane begins in DETECT at a rate, with no failed attempt (R295). -/
def Block.beginAt (b : Block) (rate l : Nat) : Block :=
  let b := b.setReg (Reg.rate l) rate
  ((b.setLane l { b.laneAt l with fails := 0, aligned := false }).stopStream l).toDetect l

/-- Every lane of a link that is not in OFF, and those given, begin again at a rate. -/
def Block.beginAll (b : Block) (lk rate : Nat) (also : Nat → Bool) : Block :=
  ((b.lanesOf lk).filter (fun k => b.laneState k != lOff || also k)).foldl (fun b l => b.beginAt rate l) b

/-- A lane enters DETECT at the start of its bring-up (R277, R295; DEDUCED, log 185): at the rate of the lanes of its link past DETECT;
where its own limits do not allow that rate, or no lane is past DETECT, every lane of the link begins, at RATE_MAX. -/
def Block.restartLane (b : Block) (l : Nat) : Block :=
  let lk := b.linkOf l
  let fast := max (b.linkRateMax lk) (b.reg (Reg.rateMax l))
  match b.rateHolders l with
  | k :: _ =>
    let r := b.reg (Reg.rate k)
    if b.reg (Reg.rateMax l) ≤ r ∧ r ≤ b.reg (Reg.rateMin l) then b.beginAt r l else b.beginAll lk fast (· == l)
  | [] => if (b.lanesOf lk).all (fun k => k == l || b.laneState k == lOff || b.reg (Reg.rate k) == fast) then b.beginAt fast l
    else b.beginAll lk fast (· == l)

/-- A lane asks the wake governor, and stays in electrical idle until it is granted (R298, R303, R430). -/
def Block.wakeLane (b : Block) (l : Nat) (keepRate : Bool) : Block :=
  let b := b.dropEye l
  let b := if b.laneState l = lTest then b.dropLock l else b
  let b := (b.setReg (Reg.laneState l) lOff).stopStream l
  (b.setLane l { b.laneAt l with waking := true, keepRate := keepRate }).requestWake 1 l 0 2

/-- A lane enters TEST and sends its pattern, from a seed that is not stated (DESIGN CHOICE, log 210): the bits of a codeword's time are
shown (R308). -/
def Block.enterTest (b : Block) (l : Nat) : Block :=
  let pattern := b.reg (Reg.testPattern l)
  let (w, taps) := testTaps pattern
  let (f, b) := (b.enterLane l lTest).draw
  b.emit .lane l [3, pattern, prbs w taps 5440 (1 + f % (2 ^ w - 1))]

/-- A wake granted to a lane: it enters DETECT (R298, R303, R304), or the TEST ordered meanwhile (log 86). -/
def Block.laneGranted (b : Block) (l : Nat) : Block :=
  let x := b.laneAt l
  if x.waking then
    let b := b.setLane l { x with waking := false, keepRate := false, testNext := false }
    let r := b.reg (Reg.rate l)
    if x.testNext then b.enterTest l
    else if x.keepRate && (b.rateHolders l).all (fun k => b.reg (Reg.rate k) == r) && decide (b.reg (Reg.rateMax l) ≤ r ∧ r ≤ b.reg (Reg.rateMin l)) then
      b.toDetect l
    else b.restartLane l
  else b

/-- A lane put in OFF (R298, R430): what it keeps are its taps and its rate limits. -/
def Block.laneOff (b : Block) (l : Nat) : Block :=
  let b := (b.withdrawWake 1 l).dropEye l
  let b := if b.laneState l = lTest then b.dropLock l else b
  ((b.setReg (Reg.laneState l) lOff).setLane l { since := b.run }).emit .lane l [0]

/-! Stages (R290 to R297). -/

/-- Whether a lane is in a state whose limit has not passed; a stage that passes at the edge of its limit has passed
(R26). -/
def Block.inStage (b : Block) (l st : Nat) : Bool :=
  b.laneState l == st && decide (b.run ≤ (b.laneAt l).since + us (b.reg Reg.stageLimitUs))

/-- Whether at least `d` root periods have passed in the state. -/
def Block.stageAge (b : Block) (l d : Nat) : Bool := decide (b.run ≥ (b.laneAt l).since + d)

/-- Whether no lane of a link is past ALIGN in its attempt under way. -/
def Block.neverAligned (b : Block) (lk : Nat) : Bool := (b.lanesOf lk).all (fun l => !b.laneAligned l)

/-- A lane of a link has passed ALIGN: the failed attempts so far, and those under way, count for no step of the rate (R295). -/
def Block.noteAligned (b : Block) (lk : Nat) : Block :=
  (b.lanesOf lk).foldl (fun b l => b.setLane l { b.laneAt l with fails := 0, aligned := true }) b

/-- Every lane of a link steps to the next rate up to its RATE_MIN and begins again in DETECT (R295, R297). -/
def Block.stepRate (b : Block) (lk : Nat) : Block :=
  let ls := b.enabledLanes lk
  let r := min (ls.foldl (fun m l => max m (b.reg (Reg.rate l))) 0 + 1) (b.linkRateMin lk)
  ls.foldl (fun b l =>
    let b := b.setReg (Reg.rate l) r
    let b := (b.setLane l { b.laneAt l with fails := 0, aligned := false }).stopStream l
    if (b.laneAt l).waking then b.setLane l { b.laneAt l with keepRate := true }
    else if b.laneState l = lOff then b else b.toDetect l) b

/-- A stage that fails (R295); in host-assisted mode it is logged (R297). -/
def Block.failStage (b : Block) (l : Nat) : Block :=
  let x := b.laneAt l
  let b := (b.count (Reg.stageFails l) 1).setReg (Reg.lastFailStage l) (b.laneState l)
  let b := if x.hosted then b.logUnstated 4 l else b
  let n := if x.aligned then 0 else x.fails + 1
  let b := (b.setLane l { x with fails := n, aligned := false }).toDetect l
  let lk := b.linkOf l
  if !x.hosted && decide (n ≥ b.reg Reg.attemptsPerRate) && decide (b.reg (Reg.rate l) < b.reg (Reg.rateMin l)) &&
      b.neverAligned lk then
    b.stepRate lk
  else b

/-- Whether signal detect, or the loop's lock, has stood without a break for at least 1 µs of the state (R290). -/
def Block.steadyFor (b : Block) (l : Nat) : Bool := decide (b.run ≥ max (b.laneAt l).since (b.laneAt l).steady + us 1)

/-- DETECT_PASS: signal detect asserted without a break for 1 µs. -/
def execDetectPass (l t : Nat) (s : State) : Host.Outcome State Fault Refusal :=
  s.answer (wfLane l) (s.blk.eventIf t (fun b => b.inStage l lDetect && b.steadyFor l)
    (fun b => ((b.setReg (Reg.signal l) 1).modLink (b.linkOf l) (fun x => { x with darkSince := 0 })).enterLane l lEq))

/-- EQ_PASS: equaliser adaptation has converged. -/
def execEqPass (l t : Nat) (s : State) : Host.Outcome State Fault Refusal :=
  s.answer (wfLane l) (s.blk.eventIf t (fun b => b.inStage l lEq) (fun b => b.enterLane l lCdr))

/-- CDR_PASS: the loop has been in lock for 1 µs. -/
def execCdrPass (l t : Nat) (s : State) : Host.Outcome State Fault Refusal :=
  s.answer (wfLane l) (s.blk.eventIf t (fun b => b.inStage l lCdr && b.steadyFor l)
    (fun b => b.enterLane l lAlign))

/-- Whether bits stand at a candidate position: in PAM4 a symbol boundary (R291). -/
def matchCandidate (rate : Nat) (x : AlignMatch) : Bool := decide (2 ≤ rate) || x.pos % 2 == 0

/-- What received bits match (R291). -/
def matchKind (rate : Nat) (x : AlignMatch) : Option Bool :=
  if matchCandidate rate x then commaMatch rate x.bits.toNat else none

/-- Whether two successive matches are of one kind and lie at the spacing of R291. -/
def matchFollows (rate : Nat) (x y : AlignMatch) : Bool :=
  (matchKind rate x).isSome && matchKind rate x == matchKind rate y && (y.pos == x.pos + 140750 || y.pos == x.pos + 141050)

/-- The polarity that three successive matches give: the last three of those found. -/
def alignedBy (rate : Nat) (found : List AlignMatch) : Option Bool :=
  match found.reverse with
  | z :: y :: x :: _ => if matchFollows rate x y && matchFollows rate y z then matchKind rate z else none
  | _ => none

/-- ALIGN passed (R291): the polarity is known, and the first two blocks descrambled from now on are disregarded (R279). -/
def Block.alignPass (b : Block) (l : Nat) (inv : Bool) : Block :=
  let b := (b.setReg (Reg.polarityInv l) (b2n inv)).noteAligned (b.linkOf l)
  (b.setLane l { b.laneAt l with skip := 2 }).enterLane l lPolarity

/-- ALIGN_PASS (R291). -/
def execAlignPass (l : Nat) (found : List AlignMatch) (t : Nat) (s : State) : Host.Outcome State Fault Refusal :=
  s.answer (wfLane l) (s.blk.eventIf t (fun b => b.inStage l lAlign)
    (fun b => match alignedBy (b.reg (Reg.rate l)) found with
      | none => b
      | some inv => b.alignPass l inv))

/-- POLARITY_PASS: at the next block boundary. -/
def execPolarityPass (l t : Nat) (s : State) : Host.Outcome State Fault Refusal :=
  s.answer (wfLane l) (s.blk.eventIf t (fun b => b.inStage l lPolarity) (fun b => b.enterLane l lOrder))

/-- Whether a lane has shown its order: four successive TRAIN blocks in ORDER, or passed before. -/
def Block.orderKnown (b : Block) (l : Nat) : Bool :=
  (b.laneState l == lOrder && decide ((b.laneAt l).trainCount ≥ 4)) || decide (7 ≤ b.laneState l ∧ b.laneState l ≤ 10)

/-- The LANE a lane has received. -/
def Block.orderLane (b : Block) (l : Nat) : Nat :=
  if b.laneState l = lOrder then (b.laneAt l).trainLane else b.reg (Reg.laneMap l) % 8

/-- The order of a link: straight, reversed, or neither (R292). A ×1 link takes any LANE. -/
def Block.linkOrder (b : Block) (lk : Nat) : Option Bool :=
  let w := b.linkWidth lk
  let first := lk % 8
  let ls := b.enabledLanes lk
  if w = 1 then some false
  else if ls.all (fun l => b.orderLane l == first + (l - lk)) then some false
  else if ls.all (fun l => b.orderLane l == first + w - 1 - (l - lk)) then some true
  else none

/-- ORDER_PASS (R292): every enabled lane of the link has shown its LANE. -/
def Block.orderPass (b : Block) (lk : Nat) : Block :=
  let here := (b.enabledLanes lk).filter (fun l => b.inStage l lOrder)
  match b.linkOrder lk with
  | none => here.foldl Block.failStage b
  | some rev => here.foldl (fun b l => (b.setReg (Reg.laneMap l) (128 * b2n rev + (b.laneAt l).trainLane)).enterLane l lDeskew) b

def execOrderPass (lk t : Nat) (s : State) : Host.Outcome State Fault Refusal :=
  s.answer (wfLink lk) (s.blk.eventIf t (fun b => b.startsLink lk && (b.enabledLanes lk).all b.orderKnown)
    (fun b => b.orderPass lk))

/-- DESKEW_PASS (R293): `arrivals` are the times, in root periods, at which one comma arrived on each lane of the link. -/
def Block.deskewPass (b : Block) (lk : Nat) (arrivals : List Nat) : Block :=
  let latest := arrivals.foldl max 0
  let lanes := (b.lanesOf lk).zip arrivals
  let part := lanes.filter (fun e => decide (7 ≤ b.laneState e.1 ∧ b.laneState e.1 ≤ 9))
  let tooFar (e : Nat × Nat) : Bool := blocksFit (b.reg (Reg.rate e.1)) (latest - e.2) 32 &&
    !(decide ((latest - e.2) * 2056 = 32 * 70720 * 2 ^ b.reg (Reg.rate e.1)))
  let here := (part.map (·.1)).filter (fun l => b.inStage l lDeskew)
  if part.any tooFar then here.foldl Block.failStage b
  else
    let b := part.foldl (fun b e => b.setReg (Reg.skewBlocks e.1) (blocksIn (b.reg (Reg.rate e.1)) (latest - e.2))) b
    here.foldl (fun b l => b.enterLane l lFec) b

def execDeskewPass (lk : Nat) (arrivals : List Nat) (t : Nat) (s : State) : Host.Outcome State Fault Refusal :=
  s.answer (wfLink lk) (s.blk.eventIf t
    (fun b => b.startsLink lk && arrivals.length == b.linkWidth lk && (b.lanesOf lk).any (fun l => b.inStage l lDeskew))
    (fun b => b.deskewPass lk arrivals))

/-- FEC_PASS (R294): three successive codewords decoded; the lane sends LOCKED, and its wait for UP begins. -/
def execFecPass (l t : Nat) (s : State) : Host.Outcome State Fault Refusal :=
  s.answer (wfLane l) (s.blk.eventIf t
    (fun b => b.inStage l lFec && !(b.laneAt l).locked && decide ((b.laneAt l).goodWords ≥ 3))
    (fun b => (b.setLane l { b.laneAt l with locked := true }).enterLane l lFec))

/-! Blocks received (R281, R282, R296). -/

/-- Whether a received block is discarded and counted by its header or its type alone. -/
def badBlock (hdr blk : Nat) : Bool :=
  let ty := bitsOf blk 127 120
  hdr == 3 || hdr == 0 ||
    (hdr == 2 && !([0x1E, 0x2D, 0x33, 0x4B].contains ty) && !decide (0x60 ≤ ty ∧ ty ≤ 0x69))

/-- One tap asked to move: its new value and the answer (R296, R297). -/
def tapAnswer (hosted : Bool) (req v other top : Nat) : Nat × Nat :=
  if req = 1 then (if !hosted && decide (v + 1 ≤ top ∧ v + 1 + other ≤ 28) then (v + 1, 1) else (v, 2))
  else if req = 2 then (if !hosted && decide (0 < v) then (v - 1, 1) else (v, 2))
  else (v, 0)

/-- A valid TRAIN block: the partner's lane, node and progress, and its requests, answered in the next TRAIN block. -/
def Block.trainReceived (b : Block) (l blk : Nat) : Block :=
  let x := b.laneAt l
  let lane := bitsOf blk 116 114
  let (pre, preAck) := tapAnswer x.hosted (bitsOf blk 92 91) (b.reg (Reg.txPre l)) (b.reg (Reg.txPost l)) 12
  let b := b.setReg (Reg.txPre l) pre
  let (post, postAck) := tapAnswer x.hosted (bitsOf blk 90 89) (b.reg (Reg.txPost l)) pre 24
  let b := b.setRegs [(Reg.txPost l, post), (Reg.lanePartnerNode l, bitsOf blk 110 99)]
  let b := b.setLane l { x with
    trainLane := lane
    trainCount := if x.trainCount > 0 ∧ x.trainLane = lane then x.trainCount + 1 else 1
    partnerLocked := x.partnerLocked || bitsOf blk 119 117 == 4
    preAck := preAck
    postAck := postAck }
  if preAck ≠ 0 ∨ postAck ≠ 0 then b.sendTrain l else b

/-- The content of a block received, descrambled: a bad one is discarded and counted, a TRAIN block acted on (R281, R282). -/
def Block.rxBlock (b : Block) (l hdr blk : Nat) : Block :=
  if badBlock hdr blk then b.count Reg.badBlocks 1
  else if hdr = 2 ∧ bitsOf blk 127 120 = 0x2D then
    if !crc16Ok blk then (b.count Reg.badBlocks 1).count Reg.trainCrcErrors 1
    else if bitsOf blk 84 16 ≠ 0 then b.count Reg.badBlocks 1
    else b.trainReceived l blk
  else b

/-- A block that comes by a row of its own, on an aligned lane whose codewords are not given: one of the first two after comma alignment
is disregarded (R279), one within an uncorrectable codeword has its error mark and is not used (R286). The blocks of a lane whose
comma was found in its codewords come out of those (DESIGN CHOICE, log 60). -/
def Block.blockComes (b : Block) (l : Nat) (f : Block → Block) : Block :=
  let x := b.laneAt l
  if !b.laneAligned l || x.framed then b
  else if x.skip > 0 then b.setLane l { x with skip := x.skip - 1 }
  else if x.marked then b
  else f b

/-- A block received under the TRAIN row. -/
def Block.rxTrain (b : Block) (l hdr blk : Nat) : Block := b.blockComes l (fun b => b.rxBlock l hdr blk)

/-- TRAIN. -/
def execTrain (l : Nat) (hdr : BitVec 2) (blk : BitVec 128) (t : Nat) (s : State) : Host.Outcome State Fault Refusal :=
  s.answer (wfLane l) (s.blk.event t (fun b => b.rxTrain l hdr.toNat blk.toNat))

/-- IDLE: a control block that carries nothing; a block that R281 discards is counted. -/
def execIdle (l : Nat) (hdr : BitVec 2) (blk : BitVec 128) (t : Nat) (s : State) : Host.Outcome State Fault Refusal :=
  s.answer (wfLane l) (s.blk.event t (fun b => b.blockComes l (fun b =>
    if badBlock hdr.toNat blk.toNat then b.count Reg.badBlocks 1 else b)))

/-! Tests (R307, R308). -/

/-- EYE_GO. -/
def Block.writeEyeGo (b : Block) (l v : Nat) : Nat × Block :=
  b.guarded [badValue (Reg.eyeGo l) v, ((b.reg (Reg.eyeStatus l)).testBit 7, Abort.busy),
      (b.laneState l != lUp && b.laneState l != lTest, Abort.condition)]
    (fun b =>
      if b.reg (Reg.rate l) ≥ 2 ∧ b.reg (Reg.eyeSel l) ≠ 1 then b.setReg (Reg.eyeStatus l) Status.malformed
      else
        let e : EyeCount := ⟨b.reg (Reg.eyeSel l), b.reg (Reg.eyePhase l), b.reg (Reg.eyeVolt l), b.reg (Reg.eyeDwellLog2 l), b.run⟩
        (b.setReg (Reg.eyeStatus l) 128).setLane l { b.laneAt l with eye := some e })

/-- EYE_GO. -/
def execEyeGo (l v : Nat) (s : State) : Host.Outcome State Fault Refusal :=
  s.answer true (s.blk.host (inRecord (wfLane l) (fun b => b.writeEyeGo l v)))

/-- Whether an eye count of a lane has run its 2^EYE_DWELL_LOG2 symbols. -/
def Block.eyeDue (b : Block) (l : Nat) : Bool :=
  match (b.laneAt l).eye with
  | some e => decide (2 * (b.run - e.since) ≥ 2 ^ e.dwell * symbolHalves (b.reg (Reg.rate l)))
  | none => false

/-- EYE_COUNT_END. -/
def execEyeCountEnd (l errors t : Nat) (s : State) : Host.Outcome State Fault Refusal :=
  s.answer (wfLane l) (s.blk.eventIf t (fun b => b.eyeDue l)
    (fun b => ((b.setReg (Reg.eyeErrors l) (min errors (2 ^ 64 - 1))).setReg (Reg.eyeStatus l) Status.ok).setLane l
      { b.laneAt l with eye := none }))

/-- CHECKER_LOCK: 64 successive error-free bits. -/
def execCheckerLock (l t : Nat) (s : State) : Host.Outcome State Fault Refusal :=
  s.answer (wfLane l) (s.blk.eventIf t (fun b => b.laneState l == lTest && b.reg (Reg.testLock l) == 0)
    (fun b => (b.setRegs [(Reg.testLock l, 1), (Reg.testBits l, 0), (Reg.testErrors l, 0)]).setLane l
      { b.laneAt l with lockedAt := b.run }))

/-- CHECKER_LOCK_LOSS: `bits` were checked and `errors` found since the lock. -/
def execCheckerLockLoss (l bits errors t : Nat) (s : State) : Host.Outcome State Fault Refusal :=
  s.answer (wfLane l) (s.blk.eventIf t (fun b => b.laneState l == lTest && b.reg (Reg.testLock l) == 1)
    (fun b => (((b.count (Reg.testBits l) bits).count (Reg.testErrors l) errors)).setReg (Reg.testLock l) 0))

end Sys2Proof.Machine
end

