-- ==== Sys2Proof/Machine/Bank.lean ====
section
/-! DEFINITION. Accesses at a bank as any path makes them: retired banks, frames of the pool (R226), the trackers of a
migration (R229, R236), and the acknowledgement of shootdowns and fences once the requests that used a dropped entry are
performed (R143, R230). -/

namespace Sys2Proof.Machine

open Sys2Proof

/-- Whether a frame is in the pool. -/
def Block.inPool (b : Block) (f : Nat) : Bool := b.mig.pool.contains f

/-- A frame put into the pool, which is kept in ascending order. -/
def Block.poolAdd (b : Block) (f : Nat) : Block :=
  let l := b.mig.pool.filter (· != f)
  { b with mig := { b.mig with pool := l.filter (· < f) ++ f :: l.filter (· > f) } }

/-- A frame taken out of the pool. -/
def Block.poolDrop (b : Block) (f : Nat) : Block :=
  { b with mig := { b.mig with pool := b.mig.pool.filter (· != f) } }

/-- Whether a user line lies in a retired bank. -/
def Block.lineRetired (b : Block) (l : Nat) : Bool :=
  match bankOfLine l with
  | some bank => b.bankRetired bank
  | none => false

/-- The trackers that watch the frame of a line have its chunk marked in the write's own access (R229). -/
def Block.markChunk (b : Block) (l : Nat) : Block :=
  let mark (e : Nat × Option Tracker) : Nat × Option Tracker :=
    match e.2 with
    | some t => if e.1 / 16 = memDie l ∧ t.frame = frameOfLine l then
        (e.1, some { t with bits := putBit t.bits (l % 1024 / 4) true }) else e
    | none => e
  { b with mig := { b.mig with trackers := b.mig.trackers.map mark } }

/-- Whether a frame of this node is the source of a migration past its FINAL take (R236). -/
def Block.pastFinal (b : Block) (f : Nat) : Bool :=
  (List.range 32).any (fun m => b.reg (Reg.mslotSrc m) == b.node * 2 ^ 15 + f &&
    decide (6 ≤ b.reg (Reg.mslotState m) ∧ b.reg (Reg.mslotState m) ≤ 9) &&
    (match b.mig.jobs.look m with | some j => j.finalTaken | none => false))

/-- A write of a line of S past the FINAL take is stray (R236): it is counted, and what the line held is kept for the copies still to
come, once. -/
def Block.strayWrite (b : Block) (l : Nat) : Block :=
  if !b.pastFinal (frameOfLine l) then b
  else
    let (d, p, _) := b.readLine l
    let (v, _, _) := b.voteLine l
    let keep (e : Nat × Option MigJob) : Nat × Option MigJob :=
      match e.2 with
      | some j =>
        if b.reg (Reg.mslotSrc e.1) == b.node * 2 ^ 15 + frameOfLine l && j.finalTaken && !j.kept.any (fun x => x.1 == l) then
          (e.1, some { j with kept := j.kept ++ [(l, d, v, p)] }) else e
      | none => e
    { b with mig := { b.mig with jobs := b.mig.jobs.map keep } }.count Reg.migStrayWrites 1

/-- A read of one user line at its bank by any path: status, data, block. -/
def Block.bankRead (b : Block) (l : Nat) : Nat × Nat × Block :=
  if b.lineRetired l then (Status.retired, 0, b)
  else if b.inPool (frameOfLine l) then (Status.ok, 0, b)
  else
    let (d, p, b) := b.readLine l
    ((if p then Status.poison else Status.ok), d, b)

/-- A write of one user line at its bank by any path but the migration engine: status, whether it was performed, and the
block. -/
def Block.bankWrite (b : Block) (l data mask : Nat) (poison : Bool) (issuer : Option Nat) : Nat × Bool × Block :=
  if b.lineRetired l then (Status.retired, false, b)
  else if b.inPool (frameOfLine l) then (Status.accessDenied, false, b.count Reg.migStrayWrites 1)
  else
    let b := b.strayWrite l
    let (st, b) := b.writeLine l data mask poison issuer
    (st, true, b.markChunk l)

/-! Acknowledging shootdowns and fences. -/

/-- Whether a region's port is served through a tap, 16·die + tap: its slot position modulo 16 (R259). -/
def Block.servedBy (b : Block) (r q : Nat) : Bool := dieOf r == q / 16 && b.position r % 16 == q % 16

/-- The taps that may acknowledge now do so, each with one SACK (R143, R259). -/
def Block.settleAcks (b : Block) : Block :=
  let ready (a : TapAck) : Bool := !b.mem.used.any (fun u => u.mapAddr == a.entry && b.servedBy u.region a.tap)
  let go := b.net.acks.filter ready
  let b := { b with net := { b.net with acks := b.net.acks.filter (fun a => !ready a) } }
  go.foldl (fun b a =>
    let stn := tapStation (a.tap / 16) (a.tap % 16)
    b.sendRsp stn 7 (rspFlit 2 Status.ok (sSrc a.hdr) 0 0 stn 7 (sMsg a.hdr * 2 ^ 11))) b

/-- Entries read from a map address dropped from the translation buffers behind a tap (R143). -/
def Block.dropEntry (b : Block) (entry q : Nat) : Block :=
  let behind (p : Nat) : Bool := p / 136 == q / 16 && p % 136 % 16 == q % 16
  let drop (e : Nat × List TbEntry) := if behind e.1 then (e.1, e.2.filter (fun x => x.mapAddr != entry)) else e
  { b with mem := { b.mem with tb := (b.mem.tb.map drop).filter (fun e => !e.2.isEmpty) } }

end Sys2Proof.Machine
end

