-- ==== Sys2Proof/Machine/Runs.lean ====
section
/-! DEFINITION. Kernels, runs, rings and lists: the layouts of the kernel descriptor, the run descriptor and the image
entry, the scarabs' kernel caches and decision trace, intake, completion records and the end of a run. -/

namespace Sys2Proof.Machine

open Sys2Proof

/-! Scarabs and broods (R189, R206). -/

/-- The scarab whose brood holds a logical region. -/
def scarabOf (r : Nat) : Nat := 8 * ((r % 128) / 32) + (r % 16) / 2

/-- The brood of a scarab, ascending. -/
def brood (k : Nat) : List Nat :=
  let a := 32 * (k / 8) + 2 * (k % 8)
  [a, a + 1, a + 16, a + 17, a + 128, a + 129, a + 144, a + 145]

/-- The scarab that acts for scarab k: itself, its deputy (R211), or, where none runs, itself still. -/
def Block.actor (b : Block) (k : Nat) : Nat := (b.servant k).getD k

/-- A scarab's lists, trace and kernel cache. -/
def Block.scarab (b : Block) (k : Nat) : Scarab := b.disp.scarabs.get (fun _ => {}) k

/-- The block with a scarab replaced. -/
def Block.setScarab (b : Block) (k : Nat) (x : Scarab) : Block :=
  { b with disp := { b.disp with scarabs := b.disp.scarabs.set (fun _ => {}) k x } }

/-- The scarabs whose work scarab k does: itself, and those whose deputy it is. -/
def Block.serves (b : Block) (k : Nat) : List Nat := (List.range 32).filter (fun j => b.servant j == some k)

/-! The run table. -/

/-- The block with a run table entry replaced. -/
def Block.setRun (b : Block) (x : Nat) (run : Run) : Block :=
  { b with disp := { b.disp with runs := b.disp.runs.set (fun _ => {}) x run } }

/-- The block with a run table entry changed. -/
def Block.modRun (b : Block) (x : Nat) (f : Run → Run) : Block := b.setRun x (f (b.runAt x))

/-! Fields of a run descriptor (Table 6.3). -/

def Run.userTag (x : Run) : Nat := bitsOf x.desc 511 448
def Run.notBefore (x : Run) : Nat := bitsOf x.desc 447 384
/-- The stream route index of channel c. -/
def Run.soutRoute (x : Run) (c : Nat) : Nat := bitsOf x.desc (225 + 10 * c) (216 + 10 * c)
def Run.argLine (x : Run) : Nat := bitsOf x.desc 215 192
def Run.cring (x : Run) : Nat := bitsOf x.desc 53 48
def Run.irq (x : Run) : Bool := x.desc.testBit 32
def Run.noSteal (x : Run) : Bool := x.desc.testBit 33
def Run.noPreempt (x : Run) : Bool := x.desc.testBit 34
def Run.prio (x : Run) : Nat := bitsOf x.desc 18 16
def Run.kernel (x : Run) : Nat := bitsOf x.desc 11 0

/-- Whether a run descriptor has a nonzero reserved or scarab field (check 2 of Table 6.6). -/
def descReserved (d : Nat) : Bool :=
  bitsOf d 383 256 != 0 || bitsOf d 191 54 != 0 || bitsOf d 47 40 != 0 || bitsOf d 39 35 != 0 ||
    bitsOf d 31 19 != 0 || bitsOf d 15 12 != 0

/-- Whether a run is active in its set. -/
def Run.active? (x : Run) : Bool := x.state == .running || x.state == .switching || x.state == .preempting

/-- Time a run has been active, in root periods, up to the run time `now`. -/
def Run.activeTime (x : Run) (now : Nat) : Nat := if x.active? then x.active + (now - x.activeFrom) else x.active

/-- ACTIVE_US: whole microseconds, saturating. -/
def Run.activeUs (x : Run) (now : Nat) : Nat := min (x.activeTime now / tick) (2 ^ 32 - 1)

/-- A run table entry as RUN_ENTRY reads it (Table 6.3, R180): the host's fields, those of the scarabs, and reserved bits that read 0. -/
def Run.word (x : Run) (now : Nat) : Nat :=
  let d := putBits (putBits (putBits (putBits (putBits x.desc 383 256 0) 191 54 0) 47 35 0) 31 19 0) 15 12 0
  let d := putBits d 383 320 x.enqTime
  let d := putBits d 319 256 x.startTime
  let d := putBits d 191 160 (x.activeUs now)
  let d := putBits d 159 152 x.anchor
  let d := putBits d 151 147 x.home
  let d := putBits d 143 136 x.phase
  let d := putBits d 135 128 x.preempts
  let d := putBits d 127 124 x.state.code
  let d := putBits d 123 120 x.lastStatus
  let d := putBits d 119 112 x.restarts
  putBits d 111 106 x.ring

/-! The decision trace (R215). -/

/-- Kinds of trace record (Table 6.12). -/
inductive TraceKind where
  | intake | delay | ready | dispatch | wait | reserve | steal | stolen | preempt | resume | phase | end_ | restart
  | refuse | trap | takeover | propose | hostCmd | preemptCancel | overrun
  deriving DecidableEq, Repr

def TraceKind.code : TraceKind → Nat
  | .intake => 0 | .delay => 1 | .ready => 2 | .dispatch => 3 | .wait => 4 | .reserve => 5 | .steal => 6 | .stolen => 7
  | .preempt => 8 | .resume => 9 | .phase => 10 | .end_ => 11 | .restart => 12 | .refuse => 13 | .trap => 14
  | .takeover => 15 | .propose => 16 | .hostCmd => 17 | .preemptCancel => 18 | .overrun => 19

/-- What a record says beside its time, kind, run, kernel and priority. -/
structure TraceNote where
  region : Nat := 0xFF
  peer : Nat := 0
  status : Nat := 0
  detail : Nat := 0
  count : Nat := 0

/-- The 128 bits of a record (Table 6.11); `run` is none where the decision concerns no run, whose fields then read 0. -/
def Block.traceWord (b : Block) (kind : TraceKind) (run : Option Nat) (n : TraceNote) : Nat :=
  let (x, kernel, prio) := match run with
    | some x => (x, (b.runAt x).kernel, (b.runAt x).prio)
    | none => (0, 0, 0)
  b.ts % 2 ^ 64 * 2 ^ 64 + kind.code * 2 ^ 58 + x * 2 ^ 44 + kernel * 2 ^ 32 + n.region * 2 ^ 24 + n.peer * 2 ^ 19 +
    n.status * 2 ^ 15 + prio * 2 ^ 12 + n.detail * 2 ^ 8 + min n.count 255

/-- Whether a local offset range lies wholly within MA or wholly within MB. -/
def withinDie (a n : Nat) : Bool := a + n ≤ 2 ^ 31 && a / 2 ^ 30 == (a + n - 1) / 2 ^ 30

/-- The status with which an access by a tap would fail before it reaches its bank: before the global start anyone's but the
configuration path's (R375), the tap's path fenced, or the bank retired. -/
def Block.tapStatus (b : Block) (ini a : Nat) : Nat :=
  if !b.started && ini != 369 then Status.accessDenied
  else if a ≥ 2 ^ 31 then Status.ok
  else if b.fenced (tapPath (a / 2 ^ 30)) || b.groupGone 4 (16 * (a / 2 ^ 30) + a / 65536 % 16) then Status.seamFence
  else b.userStatus a

/-- A read by initiator `ini`, an engine of the base die, within a frame: status, value and block. -/
def Block.tapRead (b : Block) (ini a n : Nat) : Nat × Nat × Block :=
  let st := if b.tapStatus ini a = Status.ok ∧ b.libraryHeld a n then Status.accessDenied else b.tapStatus ini a
  let b := (b.meets a n).tapTraffic ini (localPort a).1 ((a % 64 + n + 63) / 64) false st
  if st ≠ Status.ok then (st, 0, b)
  else if a < 2 ^ 31 ∧ b.inPool (a / 65536) then (Status.ok, 0, b)
  else
    let (v, p, b) := b.readBytes a n
    ((if p then Status.poison else Status.ok), v, b)

/-- A write by initiator `ini`, an engine of the base die, within a frame: status and block. -/
def Block.tapWrite (b : Block) (ini a n v : Nat) : Nat × Block :=
  let b := (b.meets a n).tapTraffic ini (localPort a).1 ((a % 64 + n + 63) / 64) true (b.tapStatus ini a)
  if b.tapStatus ini a ≠ Status.ok then (b.tapStatus ini a, b)
  else if a < 2 ^ 31 ∧ b.inPool (a / 65536) then (Status.accessDenied, b.count Reg.migStrayWrites 1)
  else
    let b := if a < 2 ^ 31 then (List.range ((a % 64 + n + 63) / 64)).foldl (fun b i => b.strayWrite (a / 64 + i)) b else b
    let (st, b) := b.writeBytes a n v
    (st, ((List.range ((a % 64 + n + 63) / 64)).foldl (fun b i => b.markChunk (a / 64 + i)) b))

/-- A record streamed to user memory (R215); it waits for a wipe of its line (R155). -/
def Block.streamTrace (b : Block) (k w : Nat) : Block :=
  let n := b.reg Reg.streamBytes
  if n = 0 then b
  else
    let x := b.scarab k
    let a := b.reg Reg.streamBase + k * n + (x.streamed * 16) % n
    let b := if b.wiping (a / 64) then { b with mem := { b.mem with postponed := b.mem.postponed ++ [(k, a, w)] } }
      else (b.tapWrite (320 + k) a 16 w).2
    b.setScarab k { x with streamed := satAdd x.streamed 1 (2 ^ 64 - 1) }

/-- A record in a scarab's ring: a full ring overwrites its oldest. The ring is held newest first. -/
def Block.trace (b : Block) (k : Nat) (kind : TraceKind) (run : Option Nat) (n : TraceNote) : Block :=
  if b.reg Reg.traceEnable = 1 ∧ (b.reg Reg.kindMask).testBit kind.code then
    let x := b.scarab k
    let w := b.traceWord kind run n
    (b.setScarab k { x with trace := (w :: x.trace).take 4096
                            traceLost := if x.trace.length < 4096 then x.traceLost
                              else satAdd x.traceLost 1 0xFFFFFFFF }).streamTrace k w
  else b

/-! Ready and delay lists (R191). -/

/-- A scarab's ready list of a priority. -/
def Block.readyList (b : Block) (k p : Nat) : List Nat := (b.scarab k).ready.look p

/-- The block with a ready list replaced. -/
def Block.setList (b : Block) (k p : Nat) (l : List Nat) : Block :=
  b.setScarab k { b.scarab k with ready := (b.scarab k).ready.put p l }

/-- A run out of its home scarab's lists. -/
def Block.unlist (b : Block) (x : Nat) : Block :=
  let run := b.runAt x
  let s := b.scarab run.home
  b.setScarab run.home { s with ready := s.ready.put run.prio ((s.ready.look run.prio).filter (· != x))
                                delay := s.delay.filter (· != x) }

/-- A run at the tail of its home scarab's ready list (R191). -/
def Block.listTail (b : Block) (x : Nat) (st : RState) : Block :=
  let run := b.runAt x
  (b.setList run.home run.prio (b.readyList run.home run.prio ++ [x])).setRun x
    { run with state := st, listedAt := b.run }

/-- A run at the head of its home scarab's ready list. -/
def Block.listHead (b : Block) (x : Nat) (st : RState) : Block :=
  let run := b.runAt x
  (b.setList run.home run.prio (x :: b.readyList run.home run.prio)).setRun x
    { run with state := st, listedAt := b.run }

/-- A run into the delay list, sorted by NOT_BEFORE and then by intake order. -/
def Block.listDelay (b : Block) (x : Nat) : Block :=
  let run := b.runAt x
  let s := b.scarab run.home
  let before (y : Nat) : Bool := (b.runAt y).notBefore ≤ run.notBefore
  (b.setScarab run.home { s with delay := s.delay.takeWhile before ++ x :: s.delay.dropWhile before }).setRun x
    { run with state := .delayed, listedAt := b.run }

/-! Kernel descriptors (Table 6.1). -/

def kWidth (k : Nat) : Nat := bitsOf k 7 4 + 1
def kHeight (k : Nat) : Nat := bitsOf k 10 8 + 1
def kTwin (k : Nat) : Bool := k.testBit 11
def kSize (k : Nat) : Nat := kWidth k * kHeight k * (if kTwin k then 2 else 1)
def kAssign (k : Nat) : Nat := bitsOf k 319 256
def kImages (k : Nat) : Nat := bitsOf k 255 192
def kMapBase (k : Nat) : Nat := bitsOf k 191 128
def kQuantum (k : Nat) : Nat := bitsOf k 127 96
def kMapEntries (k : Nat) : Nat := bitsOf k 95 80
def kImageCount (k : Nat) : Nat := bitsOf k 79 72 + 1
def kPhases (k : Nat) : Nat := bitsOf k 71 68 + 1
def kHome (k : Nat) : Nat := bitsOf k 60 56
def kNumber (k : Nat) : Nat := bitsOf k 27 16
def kBroodLock (k : Nat) : Bool := k.testBit 3
def kRestartable (k : Nat) : Bool := k.testBit 2
def kPreemptible (k : Nat) : Bool := k.testBit 1
def kValid (k : Nat) : Bool := k.testBit 0

/-- Whether a library range lies wholly within the window. -/
def withinLibrary (a n : Nat) : Bool := libBase ≤ a && a + n ≤ libBase + 2 ^ 28

/-- Check 3 of Table 6.6 for kernel descriptor `k` of a run of kernel `n`. -/
def kernelMalformed (k n : Nat) : Bool :=
  !kValid k || kNumber k != n ||
  bitsOf k 1023 320 != 0 || bitsOf k 67 61 != 0 || bitsOf k 55 28 != 0 || bitsOf k 15 12 != 0 ||
  kMapEntries k < 1 || kMapEntries k > 16384 ||
  kAssign k % 64 != 0 || kImages k % 256 != 0 || kMapBase k % 64 != 0 ||
  !withinLibrary (kAssign k) (kSize k * kPhases k) || !withinLibrary (kImages k) (256 * kImageCount k) ||
  !withinDie (kMapBase k) (8 * kMapEntries k)

/-! Image entries (Table 6.2). -/

def imgMap (e : Nat) : Nat := bitsOf e 2047 1024
def imgSig (e : Nat) : Nat := bitsOf e 127 96
def imgContext (e : Nat) : Nat := bitsOf e 63 0

/-- Whether a border map would be refused (R113). -/
def badMap (m : Nat) : Bool :=
  bitsOf m 127 1 != 0 || (List.range 448).any (fun g => bitsOf m (129 + 2 * g) (128 + 2 * g) == 3)

/-- Whether an image entry fails its check (R177). -/
def imageMalformed (e : Nat) : Bool :=
  bitsOf e 1023 128 != 0 || bitsOf e 95 64 != 0 || !libraryContext (imgContext e) || badMap (imgMap e)

/-! The kernel cache (R179). -/

/-- A scarab's cached items of a kernel; a kernel not cached has none. -/
def Block.cacheOf (b : Block) (k n : Nat) : KernelItem :=
  match (b.scarab k).cache.find? (fun c => c.kernel == n) with
  | some c => c
  | none => { kernel := n }

/-- The items of a kernel in a scarab's cache: in its place, or, for a kernel not there yet, as the most recent of 64. -/
def Block.cacheSet (b : Block) (k : Nat) (c : KernelItem) : Block :=
  let s := b.scarab k
  let l := if s.cache.any (fun d => d.kernel == c.kernel) then s.cache.map (fun d => if d.kernel = c.kernel then c else d)
    else (c :: s.cache).take 64
  b.setScarab k { s with cache := l }

/-- A kernel dispatched by a scarab: the most recent of its cache (R179). -/
def Block.cacheTouch (b : Block) (k n : Nat) : Block :=
  let s := b.scarab k
  b.setScarab k { s with cache := s.cache.filter (fun d => d.kernel == n) ++ s.cache.filter (fun d => d.kernel != n) }

/-- The kernel descriptor as scarab k has it, read at its first use: status, descriptor, block. -/
def Block.kernelDesc (b : Block) (k n : Nat) : Nat × Nat × Block :=
  match (b.cacheOf k n).desc with
  | some d => (Status.ok, d, b)
  | none =>
    let (st, d, b) := b.tapRead (320 + k) (b.reg Reg.ktableBase + 128 * n) 128
    if st = Status.ok then (st, d, b.cacheSet k { b.cacheOf k n with desc := some d }) else (st, d, b)

/-- An assignment byte as scarab k has it. -/
def Block.assignByte (b : Block) (k n desc i : Nat) : Nat × Nat × Block :=
  match (b.cacheOf k n).assign.look i with
  | some v => (Status.ok, v, b)
  | none =>
    let (st, v, b) := b.tapRead (320 + k) (kAssign desc + i) 1
    if st = Status.ok then
      (st, v, b.cacheSet k { b.cacheOf k n with assign := (b.cacheOf k n).assign.put i (some v) })
    else (st, v, b)

/-- An image entry as scarab k has it. -/
def Block.imageEntry (b : Block) (k n desc i : Nat) : Nat × Nat × Block :=
  match (b.cacheOf k n).images.look i with
  | some v => (Status.ok, v, b)
  | none =>
    let (st, v, b) := b.tapRead (320 + k) (kImages desc + 256 * i) 256
    if st = Status.ok then
      (st, v, b.cacheSet k { b.cacheOf k n with images := (b.cacheOf k n).images.put i (some v) })
    else (st, v, b)

/-- The images that R178 assigns to the offsets of a span in a phase, in span order: a status other than OK where an
assignment byte or an image entry fails (R177, R178), the image numbers, and the block. -/
def Block.phaseImages (b : Block) (k n desc phase : Nat) : Nat × List Nat × Block :=
  (List.range (kSize desc)).foldl (fun (acc : Nat × List Nat × Block) i =>
    let (st, l, b) := acc
    if st ≠ Status.ok then acc
    else
      let (st, v, b) := b.assignByte k n desc (phase * kSize desc + i)
      if st ≠ Status.ok then (st, l, b)
      else if v ≥ kImageCount desc then (Status.malformed, l, b)
      else
        let (st, e, b) := b.imageEntry k n desc v
        if st ≠ Status.ok then (st, l, b)
        else if imageMalformed e then (Status.malformed, l, b)
        else (Status.ok, l ++ [v], b)) (Status.ok, [], b)

/-! Spans (R107). -/

/-- Whether a region is twin-capable (R104). -/
def Block.twinOk (b : Block) (r : Nat) : Bool :=
  !b.isRetired r && !b.isRetired (partner r) && b.position r == b.position (partner r) &&
    !b.rgn.twinLost.contains (b.position r)

/-- The set formed at an anchor by a W × H span, twinned or not, in span order; none where it does not form. -/
def Block.spanAt (b : Block) (anchor w h : Nat) (twin : Bool) : Option (List Nat) :=
  let p := b.position anchor
  if b.isRetired anchor || (twin && dieOf anchor != 0) || p % 17 + w > 17 || p / 17 + h > 8 then none
  else
    let dies := if twin then [0, 1] else [dieOf anchor]
    let slots := dies.flatMap (fun d => (List.range h).flatMap (fun dy =>
      (List.range w).map (fun dx => 136 * d + p + 17 * dy + dx)))
    let rs := slots.filterMap b.regionAt
    if rs.length = slots.length && (!twin || rs.all b.twinOk) then some rs else none

/-- The set of a kernel at an anchor. -/
def Block.kernelSet (b : Block) (anchor desc : Nat) : Option (List Nat) :=
  b.spanAt anchor (kWidth desc) (kHeight desc) (kTwin desc)

/-- Whether a kernel can be placed anywhere under the remap table in force (check 5 of Table 6.6). -/
def Block.placeable (b : Block) (desc : Nat) : Bool :=
  (List.range 256).any (fun a => (b.kernelSet a desc).isSome)

/-! Ending a run. -/

/-- A region given up by its run: idle from now on (R126, R192). -/
def Block.freeRegion (b : Block) (r : Nat) : Block :=
  let past := match b.disp.heldFrom.look r with
    | some t => ((t, b.run) :: b.disp.heldPast.look r).filter (fun e => e.2 + 1000 * tick > b.run)
    | none => b.disp.heldPast.look r
  let b := { b with
    rgn := { b.rgn with idleSince := b.rgn.idleSince.put r (some b.run), doneHeld := b.rgn.doneHeld.put r none
                        passed := b.rgn.passed.put r [], outPart := b.rgn.outPart.put r []
                        outDone := b.rgn.outDone.put r none }
    disp := { b.disp with heldFrom := b.disp.heldFrom.put r none, heldPast := b.disp.heldPast.put r past } }
  (b.setRegs [(Reg.run r, 0xFFFF), (Reg.spanAnchor r, 0xFF), (Reg.spanShape r, 0)]).setSwitchPending r false

/-- A region given to a run at its start edge; `first` where the run starts there, and does not resume (R216). -/
def Block.takeRegion (b : Block) (first : Bool) (x anchor shape r : Nat) : Block :=
  let b := { b with
    rgn := { b.rgn with idleSince := b.rgn.idleSince.put r none }
    disp := { b.disp with heldFrom := b.disp.heldFrom.put r (some b.run), claim := b.disp.claim.put r none } }
  (b.setRegs [(Reg.run r, x), (Reg.spanAnchor r, anchor), (Reg.spanShape r, shape), (Reg.powerState r, 0)]).count
    (Reg.ix2Runs r) (b2n first)

/-- The regions a run is claiming. -/
def Block.claimsOf (b : Block) (x : Nat) : List Nat :=
  (List.range 256).filter (fun r => b.disp.claim.look r == some x)

/-- The claims of a run released. -/
def Block.unclaim (b : Block) (x : Nat) : Block :=
  { b with disp := { b.disp with claim := b.disp.claim.filter (fun e => e.2 != some x) } }

/-- The reservation of a run dropped. -/
def Block.unreserve (b : Block) (x : Nat) : Block :=
  { b with disp := { b.disp with reserved := b.disp.reserved.filter (fun v => v.run != x) } }

/-- The final status of a run whose design reports `st`: POISON once poison has been delivered to it (R125). -/
def Run.endStatus (x : Run) (st : Nat) : Nat :=
  if x.poisoned && (st == Status.ok || st == Status.malformed) then Status.poison else st

/-- The regions that hold a run. -/
def Block.regionsOf (b : Block) (x : Nat) : List Nat := (List.range 256).filter (fun r => b.runOf r == some x)

/-- The outcome of the host's command PLACE for a run, once its start or its end is known (R214). -/
def Block.endHcmd (b : Block) (x status : Nat) : Block :=
  match b.disp.hcmd with
  | some h => if h.run = x ∧ h.kind ≠ 3 then { b with disp := { b.disp with hcmd := none } }.setReg Reg.hcmdStatus status else b
  | none => b

/-- A run that is not to leave its set after all continues: but for one whose end is known, or whose attempt has ended, and which goes on
draining (R205, R209). -/
def Block.letGo (b : Block) (v : Nat) : Block :=
  let run := b.runAt v
  if run.done.isSome || run.retiring.isSome then b.setRun v { run with preemptor := none, hostPreempt := false }
  else (run.set.foldl (fun b r => b.setSwitchPending r false) b).setRun v
    { run with state := .running, preemptor := none, hostPreempt := false }

/-- The runs that a run was preempting continue (R201). -/
def Block.releaseVictims (b : Block) (x : Nat) : Block :=
  (b.victimsOf x).foldl (fun b v =>
    b.letGo v) b

/-- A run loses everything it holds but its held slots: its regions, claims, lists and reservation. -/
def Block.withdraw (b : Block) (x : Nat) : Block :=
  let run := b.runAt x
  let b := b.setRun x { run with active := run.activeTime b.run, state := .ending }
  let b := (b.regionsOf x).foldl Block.freeRegion b
  (((b.unclaim x).unreserve x).releaseVictims x).unlist x

/-- The translation buffer entries of a run dropped as it ends (R142). -/
def Block.dropRunEntries (b : Block) (x : Nat) : Block :=
  { b with mem := { b.mem with
      tb := (b.mem.tb.map (fun e => (e.1, e.2.filter (fun t => t.run != x)))).filter (fun e => !e.2.isEmpty) } }

/-- The final status of a run is known: it is ENDING (R30, R205, Table 6.7). -/
def Block.finish (b : Block) (x status result : Nat) : Block :=
  let b := (b.withdraw x).dropRunEntries x
  let run := b.runAt x
  let b := b.setRun x { run with state := .ending, done := some (status, result), lastStatus := status,
                                 endTime := b.ts, held := [], retiring := none, preemptor := none }
  let b := b.trace (b.actor run.home) .end_ (some x) { region := run.anchor, status }
  (b.endHcmd x status).refreshBorders

/-! Rings (R182 to R184). -/

/-- A ring pair's doorbell page. -/
def Block.ring (b : Block) (n : Nat) : Ring := b.disp.rings.get (fun _ => {}) n

/-- The block with a ring pair's page replaced. -/
def Block.setRing (b : Block) (n : Nat) (x : Ring) : Block :=
  { b with disp := { b.disp with rings := b.disp.rings.set (fun _ => {}) n x } }

/-- Whether an advance of an index is refused: V ≥ S, or more than `room` entries, modulo S. -/
def advanceRefused (s p v room : Nat) : Bool := v ≥ s || (v + s - p % s) % s > room

/-- A refusal on a ring is counted and traced by its intake scarab. -/
def Block.overrun (b : Block) (n : Nat) : Block :=
  (b.count (Reg.overruns n) 1).trace (b.actor (b.reg (Reg.intakeScarab n))) .overrun none {}

/-- A write of SQ_PROD (R184): the status of the access, and the block. -/
def Block.sqProd (b : Block) (n v : Nat) : Nat × Block :=
  if b.reg (Reg.enable n) = 0 then (Status.accessDenied, b)
  else
    let s := 2 ^ b.reg (Reg.sqLog2 n)
    let x := b.ring n
    if advanceRefused s x.prod v ((x.cons + s - x.prod % s + s - 1) % s) then
      (Status.ok, (b.setRing n { x with dbRefused := true, dbCount := satAdd x.dbCount 1 0xFFFF }).overrun n)
    else (Status.ok, b.setRing n { x with prod := v, dbRefused := false })

/-- A write of CQ_CONS (R184). -/
def Block.cqCons (b : Block) (n v : Nat) : Nat × Block :=
  if b.reg (Reg.enable n) = 0 then (Status.accessDenied, b)
  else
    let s := 2 ^ b.reg (Reg.cqLog2 n)
    let x := b.ring n
    if advanceRefused s x.cqCons v ((x.cqProd + s - x.cqCons % s) % s) then
      (Status.ok, (b.setRing n { x with cqRefused := true, cqCount := satAdd x.cqCount 1 0xFFFF }).overrun n)
    else (Status.ok, b.setRing n { x with cqCons := v, cqRefused := false })

/-- The answer of an access to a doorbell page. -/
def Block.doorbell (b : Block) (f : Block → Nat × Block) : Block :=
  if b.clocked then
    let (st, b) := f b
    b.emit .completion 0 [st]
  else b

/-- SQ_PROD. -/
def execSqProd (ring v : Nat) (s : State) : Host.Outcome State Fault Refusal :=
  s.answer true (s.blk.doorbell (fun b => if wfRing ring then b.sqProd ring v else (Status.accessDenied, b)))

/-- CQ_CONS. -/
def execCqCons (ring v : Nat) (s : State) : Host.Outcome State Fault Refusal :=
  s.answer true (s.blk.doorbell (fun b => if wfRing ring then b.cqCons ring v else (Status.accessDenied, b)))

/-! Intake (R185, R186, R190, R191). -/

/-- The lowest free run table entry. -/
def Block.freeEntry (b : Block) : Option Nat :=
  (List.range (min 16384 (b.disp.runs.length + 1))).find? (fun x => (b.runAt x).state == .free)

/-- Checks 2 and 3 of Table 6.6. -/
def descFaulty (d kd : Nat) : Bool := descReserved d || kernelMalformed kd (Run.kernel { desc := d })

/-- The verdict of Table 6.6 on a descriptor and its kernel descriptor, both read without fault. -/
def Block.intakeStatus (b : Block) (d kd : Nat) : Nat :=
  let run : Run := { desc := d }
  if descFaulty d kd then Status.malformed
  else if run.argLine / 1024 ≥ kMapEntries kd then Status.malformed
  else if !b.placeable kd then Status.retired
  else Status.ok

/-- The home scarab of a new run (R190): the brood of its kernel's last set, or HOME_BROOD. -/
def Block.homeOf (b : Block) (kernel kd : Nat) : Nat :=
  let a := b.disp.lastSet.look kernel
  if a = 0 then kHome kd else scarabOf (a - 1)

/-- A run table entry for a run refused at intake, kept until its completion record is written. -/
def Block.refuseRun (b : Block) (k x ring d st : Nat) : Block :=
  let b := b.setRun x { desc := d, state := .ending, enqTime := b.ts, ring, done := some (st, 0), lastStatus := st,
                        endTime := b.ts, order := b.disp.intakes }
  b.trace k .refuse (some x) { status := st }

/-- A run accepted at intake enters the lists of its home scarab. -/
def Block.acceptRun (b : Block) (k x ring d kd : Nat) : Block :=
  let run : Run := { desc := d, enqTime := b.ts, ring, order := b.disp.intakes,
                     home := b.homeOf (Run.kernel { desc := d }) kd, waitFrom := b.run }
  let b := (b.setRun x run).trace k .intake (some x) { peer := run.home }
  if run.notBefore ≠ 0 ∧ run.notBefore > b.ts then (b.listDelay x).trace (b.actor run.home) .delay (some x) {}
  else (b.listTail x .ready).trace (b.actor run.home) .ready (some x) {}

/-- INTAKE: the next entry of a submission ring, taken by its intake scarab or that scarab's deputy; ring intake runs from the global start
on (R375, R377). -/
def Block.intake (b : Block) (n : Nat) : Block :=
  let ring := b.ring n
  match b.servant (b.reg (Reg.intakeScarab n)) with
  | none => b
  | some k =>
    if !b.started || b.reg (Reg.enable n) == 0 || ring.cons == ring.prod then b
    else match b.freeEntry with
      | none =>
        if b.disp.paused.contains n then b
        else { b with disp := { b.disp with paused := n :: b.disp.paused } }.count Reg.intakeStalls 1
      | some x =>
        let b := { b with disp := { b.disp with paused := b.disp.paused.filter (· != n)
                                                intakes := b.disp.intakes + 1 } }
        let (st, d, b) := b.tapRead (320 + k) (b.reg (Reg.sqBase n) + 64 * ring.cons) 64
        let (stK, kd, b) := if st = Status.ok then
            b.tapRead (320 + k) (b.reg Reg.ktableBase + 128 * Run.kernel { desc := d }) 128
          else (st, 0, b)
        let verdict := if stK ≠ Status.ok then stK else b.intakeStatus d kd
        let b := b.setRing n { ring with cons := (ring.cons + 1) % 2 ^ b.reg (Reg.sqLog2 n) }
        if verdict = Status.ok then b.acceptRun k x n d kd
        else
          let b := if stK = Status.poison ∨ (stK = Status.ok ∧ descFaulty d kd) then b.count Reg.descFaults 1 else b
          b.refuseRun k x n d verdict

/-- INTAKE. -/
def execIntake (ring t : Nat) (s : State) : Host.Outcome State Fault Refusal :=
  s.answer (wfRing ring) (s.blk.event t (fun b => b.unlessWiped (fun b => b.intake ring)))

/-! Completion records (R187). -/

/-- The 256 bits of a completion record (Table 6.7). -/
def Run.record (x : Run) (index status result : Nat) (lap : Bool) (now : Nat) : Nat :=
  x.userTag * 2 ^ 192 + x.endTime % 2 ^ 64 * 2 ^ 128 + x.activeUs now * 2 ^ 96 + result % 2 ^ 16 * 2 ^ 80 +
    x.lastAnchor * 2 ^ 72 + x.restarts * 2 ^ 64 + x.preempts * 2 ^ 56 + x.ring * 2 ^ 50 + b2n lap * 2 ^ 48 +
    status * 2 ^ 44 + x.kernel * 2 ^ 32 + index

/-- The entry becomes FREE, with the defaults of Table 6.3. -/
def Block.freeRun (b : Block) (x : Nat) : Block := b.setRun x {}

/-- The record of an ended run to ring n with a status. -/
def Block.writeRecord (b : Block) (x n status result : Nat) : Block :=
  let run := b.runAt x
  let ring := b.ring n
  let s := 2 ^ b.reg (Reg.cqLog2 n)
  if (ring.cqProd + s - ring.cqCons % s) % s ≥ s - 1 then
    if run.stalled then b else (b.setRun x { run with stalled := true }).count (Reg.cqStalls n) 1
  else
    let (st, b) := b.tapWrite (320 + b.actor run.home) (b.reg (Reg.cqBase n) + 32 * ring.cqProd) 32
      (run.record x status result ring.lap b.run)
    if st ≠ Status.ok then
      ((b.freeRun x).count (Reg.cqWriteErrors n) 1).ledgerReport (320 + b.actor run.home) 0 st 0
    else
      let next := (ring.cqProd + 1) % s
      let b := b.setRing n { ring with cqProd := next, lap := if next = 0 then !ring.lap else ring.lap }
      let b := b.freeRun x
      if run.irq then b.msix (b.reg (Reg.msixVector n)) else b

/-- COMPLETION_RECORD: to ring CRING; if that ring pair is not enabled, to the submission ring pair's completion ring
with MALFORMED; if that is not enabled either, none. A boot run, which no ring submitted, has none then (R376). -/
def Block.completionRecord (b : Block) (x : Nat) : Block :=
  let run := b.runAt x
  match run.state, run.done with
  | .ending, some (st, result) =>
    if b.reg (Reg.enable run.cring) = 1 then b.writeRecord x run.cring st result
    else if run.boot then b.freeRun x
    else if b.reg (Reg.enable run.ring) = 1 then b.writeRecord x run.ring Status.malformed result
    else (b.freeRun x).count (Reg.cqWriteErrors run.ring) 1
  | _, _ => b

/-- COMPLETION_RECORD. -/
def execCompletionRecord (run t : Nat) (s : State) : Host.Outcome State Fault Refusal :=
  s.answer (wfRun run) (s.blk.event t (fun b => b.unlessWiped (fun b => b.completionRecord run)))

/-- NOT_BEFORE_DUE (R191): at a cricket tick, the due runs of every delay list move in its order to the tail of their
ready lists; a deputy has the delay list of a scarab that is not RUNNING (R211). -/
def Block.notBeforeDue (b : Block) : Block :=
  (List.range 32).foldl (fun b k =>
    let due := (b.scarab k).delay.filter (fun x => (b.runAt x).notBefore ≤ b.ts)
    match b.servant k with
    | none => b
    | some j => due.foldl (fun b x =>
        let b := (b.unlist x).modRun x (fun r => { r with home := j, waitFrom := b.run })
        (b.listTail x .ready).trace j .ready (some x) {}) b) b

/-- NOT_BEFORE_DUE. -/
def execNotBeforeDue (t : Nat) (s : State) : Host.Outcome State Fault Refusal :=
  s.answer true (s.blk.eventIf t (fun b => b.clock % tick == 0) Block.notBeforeDue)

end Sys2Proof.Machine
end

