-- ==== Sys2Proof/Machine/Place.lean ====
section
/-! DEFINITION. Dispatch: residency and replacement, the evaluation of a scarab's heads, starts, phase changes,
reservations and preemption (R192 to R205, R526). -/

namespace Sys2Proof.Machine

open Sys2Proof

/-! Idle regions (R192, R448). -/

/-- A slot whose retirement is awaited: a context group of it is exhausted, or its retirement is due (R469, R252). -/
def Block.doomed (b : Block) (p : Nat) : Bool :=
  b.groupGone 0 p || b.commit.waiting.contains (.slot p) ||
    b.commit.retry.any (fun e => e.1 == .slot p) ||
    (match b.commit.run with
      | some c => c.change == some (.slot p)
      | none => false)

/-- Whether a context slot of a physical slot still awaits the copies or clears of a relocation (R242). -/
def Block.givingUp (b : Block) (p : Nat) : Bool :=
  let busy (o : CtxOp) : Bool := o.who == .relocation && ((o.kind == .clear && o.phys == p) || (o.kind == .copy && o.fromUnit == p))
  b.ctx.waiting.any (fun e => e.2.any busy) || b.ctx.engineQueue.any (fun e => e.2.any busy) ||
    b.ctx.running.any (fun e => e.2.any busy)

/-- Whether a slot can be chosen by Table 4.3: spare, and every clear of it ended (R242). -/
def Block.spareReady (b : Block) (p : Nat) : Bool := b.slotUse p == .spare && !b.givingUp p

/-- The lowest position that is spare on both dies with TWIN_OK = 1 (step 1 of Table 4.3). -/
def Block.sparePair (b : Block) : Option Nat :=
  (List.range 136).find? (fun q => b.spareReady q && b.spareReady (136 + q) && !b.rgn.twinLost.contains q)

/-- The lowest spare slot of a die (step 2 of Table 4.3). -/
def Block.soloSpare (b : Block) (d : Nat) : Option Nat := (List.range 136).find? (fun q => b.spareReady (136 * d + q))

/-- Whether replacing region r would move its partner as well (step 1). -/
def Block.movesPartner (b : Block) (r : Nat) : Bool := b.sparePair.isSome && !b.isRetired (partner r)

/-- Whether a region is held out of use between the exhaustion of a group and the change that follows it: its slot, its
port or its riser is concerned, or it will move with its partner (R192, R469). -/
def Block.isHeldOut (b : Block) (r : Nat) : Bool :=
  b.doomed (b.phys r) || b.groupGone 2 (b.phys r) || b.riserGone r ||
    (b.doomed (b.phys (partner r)) && b.movesPartner (partner r) && !b.isRetired (partner r))

/-- Whether the relocation of a region has copies still to end (R241). -/
def Block.relocating (b : Block) (r : Nat) : Bool :=
  let copy (o : CtxOp) : Bool := o.who == .relocation && o.kind == .copy && o.region == r
  (b.ctx.waiting.look (b.phys r)).any copy || (b.ctx.engineQueue.look (dieOf r)).any copy ||
    (b.ctx.running.look (dieOf r)).any copy

/-- Whether a region can be used for dispatch at all: in service, not being reset or retired, not held out of use or being
relocated, and none of its paths fenced. -/
def Block.usable (b : Block) (r : Nat) : Bool :=
  !b.isRetired r && !(b.rgn.resetDue.look r) && !b.isHeldOut r && !b.rgn.heldOut.contains (b.phys r) &&
    !b.relocating r &&
    !b.fenced (ctxPath (dieOf r) ++ portPath (dieOf r) ++ riserPath (dieOf r))

/-- Whether a region is not reserved against run x: reserved for it, for none, or for a run of strictly lower priority
(R197). -/
def Block.openTo (b : Block) (x r : Nat) : Bool :=
  b.disp.reserved.all (fun v => v.run == x || !v.set.contains r || (b.runAt v.run).prio > (b.runAt x).prio)

/-- Whether a region is unclaimed, or claimed for run x. -/
def Block.claimFree (b : Block) (x r : Nat) : Bool :=
  match b.disp.claim.look r with
  | none => true
  | some y => y == x

/-- Whether a region is idle for run x. -/
def Block.idleFor (b : Block) (x r : Nat) : Bool :=
  b.usable r && (b.runOf r).isNone && b.claimFree x r && b.openTo x r

/-- Whether a region is idle for a scarab that seeks work (R206). -/
def Block.idleAny (b : Block) (r : Nat) : Bool :=
  b.usable r && (b.runOf r).isNone && (b.disp.claim.look r).isNone && b.disp.reserved.all (fun v => !v.set.contains r)

/-! Residency and replacement (R193, R195). -/

/-- Whether a slot is held by a run other than x (R181). -/
def Block.heldByOther (b : Block) (x r s : Nat) : Bool := b.disp.runs.any (fun e => e.1 != x && e.2.held.contains (r, s))

/-- Whether a slot is held by any run. -/
def Block.heldByAny (b : Block) (r s : Nat) : Bool := b.disp.runs.any (fun e => e.2.held.contains (r, s))

/-- Whether image i of kernel n is resident in slot s of region r for run x. -/
def Block.resident (b : Block) (x n r i s : Nat) : Bool :=
  let d := b.slotDesc (b.phys r) s
  d.state == .loaded && d.kernel == n && d.image == i && !b.heldByOther x r s &&
    !(b.activeSlot r == some s && b.disp.stale.look r)

/-- The slot a start, a phase change or a resumption uses: the active plane's, the READY shadow plane's, or the lowest. -/
def Block.residentSlot (b : Block) (x n r i : Nat) : Option Nat :=
  ((b.activeSlot r).toList ++ (if b.reg (Reg.shadowState r) = 2 then (b.shadowSlot r).toList else []) ++
    List.range 16).find? (b.resident x n r i)

/-- The slot a load replaces (R195). -/
def Block.replaceable (b : Block) (r : Nat) : Option Nat :=
  let st (s : Nat) : SlotState := (b.slotDesc (b.phys r) s).state
  match (List.range 16).find? (fun s => st s == .empty) with
  | some s => some s
  | none =>
    let age (s : Nat) : Nat := (b.cricket + 2 ^ 32 - (b.slotDesc (b.phys r) s).lastIn) % 2 ^ 32
    leastBy (fun s => 2 ^ 32 - age s) ((List.range 16).filter (fun s =>
      (st s == .loaded || st s == .damaged) && b.activeSlot r != some s &&
        !(b.reg (Reg.pinMask r)).testBit s && !b.heldByAny r s))

/-- Whether the shadow plane of a region holds a run's only good state, within RESERVE_US of the skip (R202). -/
def Block.shadowGuarded (b : Block) (r s : Nat) : Bool :=
  match b.shadowSlot r with
  | some s' =>
    let key := slotKey (b.phys r) s'
    s' != s && b.ctx.skipped.look key && b.run < b.ctx.skipAt.look key + us (b.reg Reg.reserveUs)
  | none => false

/-- The slot for an image in a region, and whether it needs a load. -/
def Block.planSlot (b : Block) (x n r i : Nat) : Option (Nat × Bool) :=
  let c : Option (Nat × Bool) := match b.residentSlot x n r i with
    | some s => some (s, false)
    | none => (b.replaceable r).map (fun s => (s, true))
  c.filter (fun e => b.activeSlot r == some e.1 || !b.shadowGuarded r e.1)

/-- The slots for a set, in span order; none where a region has no slot for its image. -/
def Block.planSet (b : Block) (x n : Nat) : List Nat → List Nat → Option (List (Nat × Bool))
  | [], _ => some []
  | r :: rs, is =>
    match b.planSlot x n r (is.headD 0), b.planSet x n rs (is.drop 1) with
    | some p, some ps => some (p :: ps)
    | _, _ => none

/-- The loads of a plan. -/
def planLoads (p : List (Nat × Bool)) : Nat := (p.filter (·.2)).length

/-! Issuing contexts (R196, R200, R204). -/

/-- Insertion in ascending order of region. -/
def insertBy (e : Nat × Nat) : List (Nat × Nat) → List (Nat × Nat)
  | [] => [e]
  | f :: l => if e.1 ≤ f.1 then e :: f :: l else f :: insertBy e l

/-- Pairs of region and value in ascending order of region. -/
def ascending (l : List (Nat × Nat)) : List (Nat × Nat) := l.foldr insertBy []

/-- A scarab's load of image i of kernel n into a slot of region r, with the border map of its entry (R177). -/
def Block.scarabLoad (b : Block) (k n desc r s i : Nat) : Block :=
  let (_, e, b) := b.imageEntry k n desc i
  b.ctxSubmit { kind := .load, who := .scarab, region := r, phys := b.phys r, slot := s, src := imgContext e,
                kernel := n, image := i, sig := imgSig e, map := imgMap e }

/-- The loads of a plan, in ascending order of region, and the prefetch of each slot that its region's active plane does
not hold already. -/
def Block.issue (b : Block) (k n desc : Nat) (set : List Nat) (plan : List (Nat × Bool)) (images : List Nat) : Block :=
  let b := { b with ctx := { b.ctx with opStatus := b.ctx.opStatus.filter (fun e => !set.contains e.1) } }
  let loads := ((set.zip plan).zip images).filter (fun e => e.1.2.2)
  let b := (ascending (loads.map (fun e => (e.1.1, e.1.2.1)))).foldl (fun b e =>
    let i := match loads.find? (fun l => l.1.1 == e.1) with
      | some l => l.2
      | none => 0
    b.scarabLoad k n desc e.1 e.2 i) b
  (ascending (set.zip (plan.map (·.1)))).foldl (fun b e =>
    if b.activeSlot e.1 = some e.2 then b
    else b.ctxSubmit { kind := .prefetch, who := .scarab, region := e.1, phys := b.phys e.1, slot := e.2 }) b

/-! Starting (R196). -/

/-- A run becomes STARTING in a set: out of its list, its anchor set and the kernel's last set written, every region
claimed for it, and reservations of lower priority that it crosses dropped. -/
def Block.becomeStarting (b : Block) (x rule : Nat) (set : List Nat) (plan : List (Nat × Bool)) : Block :=
  let b := b.unlist x
  let run := b.runAt x
  let anchor := set.headD 0xFF
  let b := b.setRun x { run with state := .starting, anchor, set, slots := plan.map (·.1), rule,
                                 loads := planLoads plan, staging := false }
  { b with disp := { b.disp with
      lastSet := if run.started then b.disp.lastSet else b.disp.lastSet.put run.kernel (anchor + 1)
      reserved := b.disp.reserved.filter (fun v => v.run == x || v.set.all (fun r => !set.contains r))
      claim := set.foldl (fun m r => m.put r (some x)) b.disp.claim } }

/-- DETAIL of a RESUME record is 0, that of a DISPATCH the rule (Table 6.11). -/
def Run.startDetail (x : Run) (rule : Nat) : Nat := if x.started then 0 else rule

/-- A dispatch, carried out by scarab k: the run STARTING, the wakes, loads and prefetches asked for, the decision
traced. -/
def Block.begin (b : Block) (k x rule desc : Nat) (set : List Nat) (plan : List (Nat × Bool)) (images : List Nat) :
    Block :=
  let b := b.becomeStarting x rule set plan
  let run := b.runAt x
  let b := set.foldl (fun b r => b.wakeRegion r run.prio) b
  let b := (b.issue k run.kernel desc set plan images).cacheTouch k run.kernel
  b.trace k (if run.started then .resume else .dispatch) (some x)
    { region := run.anchor, detail := run.startDetail rule, count := planLoads plan }

/-! Bound runs (R202). -/

/-- Whether a plane of a region still holds a context: the active plane, or a READY shadow plane. -/
def Block.planeHolds (b : Block) (r s : Nat) : Bool :=
  b.activeSlot r == some s || (b.reg (Reg.shadowState r) == 2 && b.shadowSlot r == some s)

/-- Whether a bound run has lost its state in a region: discarded under R77, or its slot cleared, loaded or copied over
or DAMAGED while no plane holds it. -/
def Block.lostIn (b : Block) (r s gen : Nat) : Bool :=
  let d := b.slotDesc (b.phys r) s
  b.ctx.lost.look (slotKey (b.phys r) s) || ((d.gen != gen || d.state != .loaded) && !b.planeHolds r s)

/-- Whether a bound run ends with POISON: its state has been discarded, in whichever slot it holds, or lost in a region of its set
whose contexts are not just being copied to another slot (R202, R210). -/
def Block.boundLost (b : Block) (x : Nat) : Bool :=
  let run := b.runAt x
  run.stateLost || ((run.set.zip run.slots).zip run.gens).any (fun e => !b.relocating e.1.1 && b.lostIn e.1.1 e.1.2 e.2)

/-- Whether the prefetches of a bound run's resumption would overwrite the only good state of another (R202). -/
def Block.resumeGuarded (b : Block) (x : Nat) : Bool :=
  ((b.runAt x).set.zip (b.runAt x).slots).any (fun e => b.activeSlot e.1 != some e.2 && b.shadowGuarded e.1 e.2)

/-- Whether a bound run's regions still form its span in the same arrangement (R210). -/
def Block.spanStands (b : Block) (x desc : Nat) : Bool := b.kernelSet (b.runAt x).anchor desc == some (b.runAt x).set

/-! Proposals (R213). -/

/-- A proposal of scarab k. One identical in RUN, REGION, PEER and DETAIL that still waits is not posted again; a full
queue drops its oldest. -/
def Block.propose (b : Block) (k x : Nat) (n : TraceNote) : Block :=
  let w := b.traceWord .propose (some x) n
  let same (v : Nat) : Bool := bitsOf v 57 44 == x && bitsOf v 31 24 == n.region && bitsOf v 23 19 == n.peer &&
    bitsOf v 11 8 == n.detail
  if b.disp.proposals.any same then b
  else
    let b := b.trace k .propose (some x) n
    if b.disp.proposals.length < 256 then
      { b with disp := { b.disp with proposals := b.disp.proposals ++ [w] } }
    else
      { b with disp := { b.disp with proposals := b.disp.proposals.drop 1 ++ [w] } }.count Reg.proposalsDropped 1

/-! The rules of Table 6.9. -/

/-- The candidate sets of the broods that scarab k serves, in ascending order of anchor. -/
def Block.candidates (b : Block) (k desc : Nat) : List (List Nat) :=
  let served := b.serves k
  ((List.range 256).filter (fun r => served.contains (scarabOf r))).filterMap (fun a => b.kernelSet a desc)

/-- The plan of rules 1 and 2: the set idle and resident. -/
def Block.residentPlan (b : Block) (x n : Nat) (images set : List Nat) : Option (List (Nat × Bool)) :=
  if set.all (b.idleFor x) then (b.planSet x n set images).filter (fun p => planLoads p == 0) else none

/-- The plan of rule 3. -/
def Block.loadPlan (b : Block) (x n : Nat) (images set : List Nat) : Option (List (Nat × Bool)) :=
  if set.all (b.idleFor x) then b.planSet x n set images else none

/-- The first rule that succeeds for an unbound head: the rule, the set and the plan. -/
def Block.choose (b : Block) (k x desc : Nat) (images : List Nat) : Option (Nat × List Nat × List (Nat × Bool)) :=
  let n := (b.runAt x).kernel
  let cands := b.candidates k desc
  let one : Option (List Nat × List (Nat × Bool)) :=
    let a := b.disp.lastSet.look n
    if a ≠ 0 ∧ scarabOf (a - 1) = k ∧ b.servant k = some k then
      (b.kernelSet (a - 1) desc).bind (fun set => (b.residentPlan x n images set).map (fun p => (set, p)))
    else none
  match one with
  | some (set, p) => some (1, set, p)
  | none =>
    match cands.findSome? (fun set => (b.residentPlan x n images set).map (fun p => (set, p))) with
    | some (set, p) => some (2, set, p)
    | none =>
      (leastBy (fun e => planLoads e.2)
        (cands.filterMap (fun set => (b.loadPlan x n images set).map (fun p => (set, p))))).map
        (fun e => (3, e.1, e.2))

/-- What a scarab needs of a run's kernel for a phase: a status other than OK ends the run (Table 5.7, R125, R177,
R178); else the descriptor and the images. -/
def Block.kernelPlan (b : Block) (k x phase : Nat) : Nat × Nat × List Nat × Block :=
  let n := (b.runAt x).kernel
  let (st, desc, b) := b.kernelDesc k n
  if st ≠ Status.ok then (st, 0, [], b)
  else
    let (st, images, b) := b.phaseImages k n desc phase
    if st ≠ Status.ok then (st, desc, images, b)
    else
      let (st, e, b) := b.imageEntry k n desc (images.headD 0)
      if st ≠ Status.ok then (st, desc, images, b)
      else if (imgMap e).testBit 0 then (Status.malformed, desc, images, b)
      else (Status.ok, desc, images, b)

/-- The head of a list that waits (rule 4), after so many sets evaluated. -/
def Block.waitHead (b : Block) (k x sets : Nat) : Block := b.trace k .wait (some x) { count := sets }

/-- The sets that the rules of Table 6.9 evaluate where none succeeds: the last set, if it is of the brood, and the candidates
under rules 2 and 3 (the example to R210). -/
def Block.setsTried (b : Block) (k x desc : Nat) : Nat :=
  let a := b.disp.lastSet.look (b.runAt x).kernel
  b2n (a != 0 && scarabOf (a - 1) == k && b.servant k == some k) + 2 * (b.candidates k desc).length

/-- Whether a bound run can be resumed now (R202). -/
def Block.resumable (b : Block) (x desc : Nat) : Bool :=
  b.spanStands x desc && (b.runAt x).set.all (b.idleFor x) && !b.resumeGuarded x

/-- Whether the rules dispatch a head now. -/
def Block.couldStart (b : Block) (k x : Nat) : Bool :=
  match (b.runAt x).state with
  | .preempted => match b.kernelDesc k (b.runAt x).kernel with
    | (st, desc, b) => st == Status.ok && (b.runAt x).retiring.isNone && b.resumable x desc
  | .ready => match b.kernelPlan k x 0 with
    | (st, desc, images, b) => st == Status.ok && (b.choose k x desc images).isSome
  | _ => false

/-- A bound run at its evaluation: ended with POISON, resumed, or waiting. -/
def Block.evalBound (b : Block) (k x : Nat) : Block :=
  let run := b.runAt x
  let (st, desc, b) := b.kernelDesc k run.kernel
  if run.retiring.isSome then b.waitHead k x 0
  else if b.boundLost x then b.finish x Status.poison 0
  else if st ≠ Status.ok then b.finish x st 0
  else if b.resumable x desc then
    let plan := run.slots.map (fun s => (s, false))
    if b.fmode fnPlacement = 0 then b.begin k x 0 desc run.set plan []
    else b.propose k x { region := run.anchor, peer := k, detail := 0, count := 0 }
  else b.waitHead k x 1

/-- An unbound head at its evaluation. -/
def Block.evalNew (b : Block) (k x : Nat) : Block :=
  match b.kernelPlan k x 0 with
  | (st, desc, images, b) =>
    if st ≠ Status.ok then b.finish x st 0
    else match b.choose k x desc images with
      | none => b.waitHead k x (b.setsTried k x desc)
      | some (rule, set, plan) =>
        if b.fmode fnPlacement = 0 then b.begin k x rule desc set plan images
        else b.propose k x { region := set.headD 0xFF, peer := k, detail := rule, count := planLoads plan }

/-- A head at its evaluation. -/
def Block.evalHead (b : Block) (k x : Nat) : Block :=
  match (b.runAt x).state with
  | .preempted => b.evalBound k x
  | .ready => b.evalNew k x
  | _ => b

/-! Failures (R526). -/

/-- The end of a run that is active: its set is drained first (R123), with its final status held until then. -/
def Block.drainTo (b : Block) (x status result : Nat) : Block :=
  let run := b.runAt x
  let b := b.setRun x { run with done := some (status, result), nextSlots := [] }
  run.set.foldl (fun b r => b.setSwitchPending r true) b

/-- A run that is back in its list unbound has no current set, and ANCHOR reads 0xFF (Table 6.3). -/
def Block.clearAnchor (b : Block) (x : Nat) : Block :=
  if (b.runAt x).started then b else b.modRun x (fun r => { r with anchor := 0xFF })

/-- A start withdrawn: back at the head of its list, bound if it was PREEMPTED; its claims are released and the runs it
was preempting continue. -/
def Block.withdrawStart (b : Block) (x : Nat) : Block :=
  let b := (b.unclaim x).releaseVictims x
  let run := b.runAt x
  let b := b.setRun x { run with staging := false }
  if run.state = .starting then (b.clearAnchor x).listHead x (if run.started then .preempted else .ready) else b

/-- A run in flight loses its attempt: one that is STARTING goes back to the head of its list, one that is active is
drained with its status held. -/
def Block.loseAttempt (b : Block) (x status : Nat) : Block :=
  let run := b.runAt x
  if run.state = .starting then (b.endHcmd x status).withdrawStart x
  else if run.active? && run.retiring.isNone then
    run.set.foldl (fun b r => b.setSwitchPending r true) (b.setRun x { run with retiring := some status, nextSlots := [] })
  else b

/-- The phase change of a run tried (R204): the slots of its new phase and their loads and prefetches issued; it waits
where a region has no replaceable slot, or while the set is fenced (R448). -/
def Block.tryPhase (b : Block) (k x : Nat) : Block :=
  let run := b.runAt x
  if run.state ≠ .switching ∨ run.done.isSome ∨ run.retiring.isSome ∨ !run.nextSlots.isEmpty ∨ !run.set.all b.usable then b
  else
    match b.kernelDesc k run.kernel with
    | (st, desc, b) =>
      if st ≠ Status.ok then b.drainTo x st 0
      else match b.phaseImages k run.kernel desc run.nextPhase with
        | (st, images, b) =>
          if st ≠ Status.ok then b.drainTo x st 0
          else match b.planSet x run.kernel run.set images with
            | none => b
            | some plan =>
              let b := b.setRun x { b.runAt x with nextSlots := plan.map (·.1) }
              b.issue k run.kernel desc run.set plan images

/-- The first failure that the regions of a run report: kind and status. -/
def Block.failureOf (b : Block) (x : Nat) : Option (Nat × Nat) :=
  ((b.runAt x).set.find? (fun r => b.ctx.opStatus.look r != 0)).map
    (fun r => (b.ctx.opStatus.look r / 16, b.ctx.opStatus.look r % 16))

/-- The failures of a run's set forgotten. -/
def Block.forgetFailures (b : Block) (x : Nat) : Block :=
  { b with ctx := { b.ctx with opStatus := b.ctx.opStatus.filter (fun e => !(b.runAt x).set.contains e.1) } }

/-- A failure of a start, a resumption, a phase change or a staging dealt with (R526). -/
def Block.handleFailure (b : Block) (k x : Nat) : Block :=
  match b.failureOf x with
  | none => b
  | some (kind, st) =>
    let run := b.runAt x
    let b := b.forgetFailures x
    let switching := run.state = .switching
    let finish (b : Block) : Block := if switching then b.drainTo x st 0 else b.finish x st 0
    if st = Status.retired then b.loseAttempt x st
    else if kind = 1 ∧ (st = Status.poison ∨ st = Status.malformed ∨ st = Status.accessDenied) then finish b
    else if kind = 2 ∧ st = Status.poison ∧ run.started ∧ !switching then finish b
    else if run.fails ≥ b.reg Reg.restartLimit then finish b
    else
      let b := b.setRun x { run with fails := run.fails + 1 }
      let b := b.trace k .wait (some x) { region := run.anchor, status := st }
      if switching then (b.setRun x { b.runAt x with nextSlots := [] }).tryPhase k x
      else (b.endHcmd x st).withdrawStart x

/-- Whether a run has operations of its own in progress: starting, changing phase, or staging. -/
def Run.placing (x : Run) : Bool := x.state == .starting || (x.state == .switching && x.done.isNone) || x.staging

/-- Whether the regions of a reservation still are the set of its run's kernel at their anchor, under the remap table in force. -/
def Block.stillFormed (b : Block) (v : Reservation) : Bool × Block :=
  let run := b.runAt v.run
  let (st, desc, b) := b.kernelDesc (b.actor run.home) run.kernel
  (st != Status.ok || b.kernelSet (v.set.headD 0) desc == some v.set, b)

/-- Reservations that no longer stand are dropped (R197): a region retired, held out of use, or no longer in the set. -/
def Block.dropStale (b : Block) : Block :=
  b.disp.reserved.foldl (fun b v =>
    let (formed, b) := b.stillFormed v
    if !formed || v.set.any (fun r => b.isRetired r || b.isHeldOut r || b.rgn.heldOut.contains (b.phys r)) then
      { b with disp := { b.disp with reserved := b.disp.reserved.erase v } }
    else b) b

/-! Evaluation (R194). -/

/-- The heads of a priority that scarab k considers: that of its own list, but for bound runs that its deputy has not handed back
(R212), and the first bound run of each scarab whose deputy it is (R211). -/
def Block.headsOf (b : Block) (k p : Nat) : List Nat :=
  ((b.readyList k p).filter (fun x => b.servant k == some k || (b.runAt x).state != .preempted)).take 1 ++ ((b.serves k).filter (· != k)).flatMap (fun j =>
    ((b.readyList j p).filter (fun x => (b.runAt x).state == .preempted)).take 1)

/-- A deputy hands back the work of the scarabs that have returned (R212). -/
def Block.handBack (b : Block) (k : Nat) : Block :=
  { b with disp := { b.disp with returning := b.disp.returning.filter (fun e => e.2 != some k) } }

/-- A run that is active and whose state in a slot it holds has been discarded ends with POISON, its set drained first (R77). -/
def Block.endDiscarded (b : Block) (x : Nat) : Block :=
  let run := b.runAt x
  if run.stateLost && run.active? && run.done.isNone && run.retiring.isNone then b.drainTo x Status.poison 0 else b

/-- DISPATCH_EVALUATION: work handed back, failures dealt with, phase changes tried again, then the heads from priority 0 to 7. -/
def Block.evaluate (b : Block) (k : Nat) : Block :=
  let b := b.handBack k
  let served := b.serves k
  let mine := (b.disp.runs.filter (fun e => served.contains e.2.home && e.2.placing)).map (·.1)
  let b := (mine.foldl (fun b x => b.handleFailure k x) b).dropStale
  let b := ((b.disp.runs.filter (fun e => served.contains e.2.home)).map (·.1)).foldl Block.endDiscarded b
  let b := mine.foldl (fun b x => b.tryPhase k x) b
  (List.range 8).foldl (fun b p => (b.headsOf k p).foldl (fun b x => b.evalHead k x) b) b

/-- DISPATCH_EVALUATION. -/
def execDispatchEvaluation (k t : Nat) (s : State) : Host.Outcome State Fault Refusal :=
  s.answer (wfScarab k) (s.blk.eventIf t (fun b => b.started && b.scarabRuns k) (fun b => b.unlessWiped (fun b => b.evaluate k)))

/-! The start edge (R196, R200, R124). -/

/-- START_WORD for a region of a run's set (Table 4.9). -/
def startWord (w h : Nat) (i argLine : Nat) (twin : Bool) (die : Nat) : Nat :=
  let d := if twin then i / (w * h) else die
  (i % w) * 2 ^ 28 + (i % (w * h) / w) * 2 ^ 25 + d * 2 ^ 24 + argLine

/-- A run gives up the regions of its set and is bound to it, at the head or the tail of its list. -/
def Block.vacate (b : Block) (v : Nat) (tail : Bool) : Block :=
  let run := b.runAt v
  let b := b.setRun v { run with active := run.activeTime b.run, state := .preempted, preemptor := none,
                                 yielded := false, hostPreempt := false }
  let b := (b.regionsOf v).foldl Block.freeRegion b
  if tail then b.listTail v .preempted else b.listHead v .preempted

/-- A victim leaves its set at the start edge of the run that preempts it, or once its drain for a yield or a host
command is complete: PREEMPTED, bound, at the head or the tail of its list (R200, R203, R214). -/
def Block.park (b : Block) (v : Nat) (tail : Bool) : Block :=
  let run := b.runAt v
  ((b.vacate v tail).modRun v (fun r => { r with preempts := satAdd r.preempts 1 255 })).trace (b.actor run.home) .preempt (some v)
    { region := run.anchor }

/-- A victim at the start edge: one whose attempt has ended leaves, for RUN_RETIRED (R209), one whose end is known ends, and any other
is PREEMPTED. -/
def Block.leaveSet (b : Block) (v : Nat) : Block :=
  if (b.runAt v).retiring.isSome then b.vacate v false
  else match (b.runAt v).done with
  | some (st, res) => b.finish v ((b.runAt v).endStatus st) res
  | none => (b.park v false).count Reg.preemptions 1

/-- What the bridge of region number i of a set presents at the start edge. -/
def Block.presentStart (b : Block) (r word : Nat) : Block :=
  let w := putBits (putBit (b.rgn.bf.look r) 785 true) 817 786 word
  { b with rgn := { b.rgn with bf := b.rgn.bf.put r (if b.bridgeOff r then b.rgn.bf.look r else w) } }

/-- The wait of a run's first start, kept for the IX2 counters of its anchor (R216). -/
def Block.noteWait (b : Block) (anchor waited : Nat) : Block :=
  { b with disp := { b.disp with waits := b.disp.waits.put anchor ((waited :: b.disp.waits.look anchor).take 64) } }

/-- The shape of a set as SPAN_SHAPE shows it. -/
def spanShapeOf (desc : Nat) : Nat := b2n (kTwin desc) * 128 + (kHeight desc - 1) * 16 + (kWidth desc - 1)

/-- START_EDGE. `desc` is the run's kernel descriptor. -/
def Block.startRun (b : Block) (x desc : Nat) : Block :=
  let run := b.runAt x
  let movers := b.movers run.set run.slots
  let first := !run.started
  let left := (b.victimsOf x).flatMap (fun v => (b.runAt v).set)
  let b := (b.victimsOf x).foldl Block.leaveSet b
  let q : SwitchReq := { regions := movers, who := .scarab, run := some x, starts := run.set }
  let b := movers.foldl (b.switchRegion q) b
  let b := run.set.foldl (fun b r =>
    (b.takeRegion first x run.anchor (spanShapeOf desc) r).setSwitchPending r false) b
  let b := if first then
      (List.range run.set.length).foldl (fun b i =>
        b.presentStart (nthD run.set i 0)
          (startWord (kWidth desc) (kHeight desc) i run.argLine (kTwin desc) (dieOf (nthD run.set i 0)))) b
    else b
  let pairs := run.set.zip run.slots
  let b := if first then
      ((b.count Reg.dispDispatches 1).count (Reg.scarabDispatches run.home) 1)
    else b
  let b := if run.startTime = 0 then b.noteWait run.anchor (b.run - run.waitFrom) else b
  let b := b.setRun x { b.runAt x with
    state := .running, startTime := if run.startTime = 0 then b.ts else run.startTime, started := true,
    held := run.held ++ pairs.filter (fun e => !run.held.contains e),
    gens := pairs.map (fun e => (b.slotDesc (b.phys e.1) e.2).gen),
    switchedAt := b.run, activeFrom := b.run, fails := 0, staging := false, lastAnchor := run.anchor }
  ((run.set ++ left).foldl Block.drivePorts ((b.unclaim x).unreserve x)).endHcmd x Status.ok |>.refreshBorders

/-- Whether the edge just taken is the start edge of a run. -/
def Block.startTaken (b : Block) (x : Nat) : Bool :=
  b.clk.lastEdge == some b.clock && b.startDue b.clock x &&
    (b.movers (b.runAt x).set (b.runAt x).slots).all (fun r => b.rgn.heldEdge.look r == some b.clock)

/-- START_EDGE. -/
def execStartEdge (run t : Nat) (s : State) : Host.Outcome State Fault Refusal :=
  s.answer (wfRun run) (s.blk.eventIf t (fun b => b.startTaken run) (fun b =>
    let r := b.runAt run
    let (_, desc, b) := b.kernelDesc (b.actor r.home) r.kernel
    b.startRun run desc))

/-! Phase changes at the switch edge (R204). -/

/-- A run whose phase change came at this edge is RUNNING in its new phase. -/
def Block.phaseDone (b : Block) (x : Nat) : Block :=
  let run := b.runAt x
  let b := run.set.foldl (fun b r => b.setSwitchPending r false) b
  let pairs := run.set.zip run.nextSlots
  let b := b.setRun x { run with
    state := .running, phase := run.nextPhase, slots := run.nextSlots, nextSlots := [],
    gens := pairs.map (fun e => (b.slotDesc (b.phys e.1) e.2).gen),
    held := run.held ++ pairs.filter (fun e => !run.held.contains e), switchedAt := b.run,
    active := run.activeTime b.run, activeFrom := b.run, fails := 0 }
  let b := run.set.foldl Block.drivePorts b
  b.trace (b.actor run.home) .phase (some x) { region := run.anchor }

/-- SWITCH_EDGE: the span's planes exchange, and a run that was changing phase goes on. -/
def Block.takeSwitch (b : Block) (r : Nat) : Block :=
  match b.switchOf r with
  | none => b
  | some q =>
    let b := b.switchEdge r
    match q.run with
    | some x => if (b.runAt x).state = .switching ∧ !(b.runAt x).nextSlots.isEmpty then (b.phaseDone x).refreshBorders else b
    | none => b

/-- SWITCH_EDGE. -/
def execSwitchEdge (r t : Nat) (s : State) : Host.Outcome State Fault Refusal :=
  s.answer (wfRegion r) (s.blk.eventIf t (fun b => b.switchTaken r) (fun b => b.takeSwitch r))

/-! DONE_WORD (R125, R203, R204, R448). -/

/-- What a DONE_WORD asks for. -/
inductive DoneAsk where
  | finish (status : Nat) | yield | phase (n : Nat)
  deriving DecidableEq, Repr

/-- The reading of a DONE_WORD (Table 4.10): a REQUEST or STATUS not listed is END with MALFORMED. -/
def doneAsk (w : Nat) : DoneAsk :=
  let st := bitsOf w 31 28
  if st ≠ Status.ok ∧ st ≠ Status.poison ∧ st ≠ Status.malformed then .finish Status.malformed
  else match bitsOf w 27 24 with
    | 0 => .finish st
    | 1 => .yield
    | 2 => .phase (bitsOf w 23 16)
    | _ => .finish Status.malformed

/-- A DONE_WORD delivered to the scarab of run x. -/
def Block.deliverDone (b : Block) (x w : Nat) : Block :=
  let run := b.runAt x
  if run.done.isSome ∨ run.retiring.isSome then b
  else match doneAsk w with
    | .finish st => b.drainTo x st (bitsOf w 15 0)
    | .yield =>
      if run.state = .preempting then b
      else run.set.foldl (fun b r => b.setSwitchPending r true)
        (b.setRun x { run with state := .preempting, yielded := true, pendingFrom := b.run, nextSlots := [] })
    | .phase n =>
      if run.state = .preempting then b
      else
        let k := (b.servant run.home).getD run.home
        let (_, desc, b) := b.kernelDesc k run.kernel
        if n ≥ kPhases desc then b.drainTo x Status.malformed (bitsOf w 15 0)
        else
          let b := b.setRun x { b.runAt x with state := .switching, nextPhase := n, nextSlots := [] }
          (run.set.foldl (fun b r => b.setSwitchPending r true) b).tryPhase k x

/-- DONE_VALID presented by region r: only the anchor's has an effect; behind a fenced riser the bridge holds it. -/
def Block.presentDone (b : Block) (r w : Nat) : Block :=
  match b.runOf r with
  | none => b
  | some x =>
    if b.reg (Reg.spanAnchor r) ≠ r ∨ b.bridgeOff r then b
    else if b.fenced (riserPath (dieOf r)) || b.riserGone r then
      { b with rgn := { b.rgn with doneHeld := b.rgn.doneHeld.put r (some w) } }
    else b.deliverDone x w

/-- The DONE_WORDs held behind a fence are delivered when it is lowered (R448). -/
def Block.deliverHeld (b : Block) : Block :=
  (List.range 256).foldl (fun b r =>
    match b.rgn.doneHeld.look r, b.runOf r with
    | some w, some x =>
      { b with rgn := { b.rgn with doneHeld := b.rgn.doneHeld.put r none } }.deliverDone x w
    | _, _ => b) b

/-- Whether a region's design presents DONE_VALID with a DONE_WORD at this edge (Table 4.7). -/
def Block.donePresented (b : Block) (r w : Nat) : Bool :=
  let fb := b.rgn.fb.look r
  b.edgeNow r && fb.testBit 869 && bitsOf fb 901 870 == w

/-- DONE_END. -/
def execDoneEnd (r : Nat) (w : BitVec 32) (t : Nat) (s : State) : Host.Outcome State Fault Refusal :=
  s.answer (wfRegion r) (s.blk.eventIf t (fun b => b.donePresented r w.toNat) (fun b => b.presentDone r w.toNat))

/-- DONE_YIELD. -/
def execDoneYield (r : Nat) (w : BitVec 32) (t : Nat) (s : State) : Host.Outcome State Fault Refusal :=
  s.answer (wfRegion r) (s.blk.eventIf t (fun b => b.donePresented r w.toNat) (fun b => b.presentDone r w.toNat))

/-- DONE_PHASE. -/
def execDonePhase (r : Nat) (w : BitVec 32) (t : Nat) (s : State) : Host.Outcome State Fault Refusal :=
  s.answer (wfRegion r) (s.blk.eventIf t (fun b => b.donePresented r w.toNat) (fun b => b.presentDone r w.toNat))

/-- Whether every bridge of a run's set has drained (R30, R123). -/
def Block.drained (b : Block) (x : Nat) : Bool := (b.runAt x).set.all b.tagsIdle

/-- RUN_END (R30, R125): once the end is known and every ledger entry of the set is closed. A POISON completion or packet
delivered to the run makes its final status POISON, whatever the design reports. -/
def Block.runEnd (b : Block) (x : Nat) : Block :=
  let run := b.runAt x
  match run.done with
  | some (st, res) =>
    if run.active? && run.retiring.isNone && b.drained x then
      b.finish x (run.endStatus st) res
    else b
  | none => b

/-- RUN_END. -/
def execRunEnd (run t : Nat) (s : State) : Host.Outcome State Fault Refusal :=
  s.answer (wfRun run) (s.blk.event t (fun b => b.runEnd run))

/-! Reservation (R197). -/

/-- Whether a region can be reserved for run x: usable, not claimed by another, and reserved for none of the same or a
higher priority. It may hold a run. -/
def Block.takeable (b : Block) (x r : Nat) : Bool := b.usable r && b.claimFree x r && b.openTo x r

/-- The set to reserve: the fewest regions holding runs, then the fewest loads, then the lowest anchor. A bound run has
its own set only. -/
def Block.reserveSet (b : Block) (k x desc : Nat) (images : List Nat) : Option (List Nat) :=
  let run := b.runAt x
  if run.state = .preempted then (if run.set.all (b.takeable x) then some run.set else none)
  else
    let key (set : List Nat) : Nat :=
      (set.filter (fun r => (b.runOf r).isSome)).length * 2 ^ 20 +
        (match b.planSet x run.kernel set images with
          | some p => planLoads p
          | none => 2 ^ 10) * 2 ^ 8 + set.headD 0
    leastBy key ((b.candidates k desc).filter (fun set => set.all (b.takeable x)))

/-- Whether a running run may be preempted for run x (R199, R201). -/
def Block.qualifies (b : Block) (k v x : Nat) : Bool :=
  let run := b.runAt v
  match b.kernelDesc k run.kernel with
  | (st, desc, _) =>
    run.state == .running && run.done.isNone && run.retiring.isNone && (b.runAt x).prio < run.prio &&
      st == Status.ok && kPreemptible desc && !run.noPreempt && b.run ≥ run.switchedAt + us (kQuantum desc) &&
      b.run ≥ run.notBeforePreempt

/-- The runs that hold regions of a set. -/
def Block.holders (b : Block) (set : List Nat) : List Nat := (set.filterMap b.runOf).eraseDups

/-- A head that has waited RESERVE_US reserves a set; in host-assisted mode the preemptions that would follow are proposed
instead (R213). -/
def Block.reserveHead (b : Block) (k x : Nat) : Block :=
  let run := b.runAt x
  match b.kernelPlan k x (if run.state = .preempted then run.phase else 0) with
  | (st, desc, images, b) =>
    if st ≠ Status.ok then b
    else match b.reserveSet k x desc images with
      | none => b
      | some set =>
        if b.fmode fnPlacement = 0 then
          let rest := b.disp.reserved.filter (fun v => v.set.all (fun r => !set.contains r))
          let b := { b with disp := { b.disp with reserved := rest ++ [Reservation.mk x set] } }
          b.trace k .reserve (some x)
            { region := set.headD 0xFF, count := if run.state = .preempted then 1 else (b.candidates k desc).length }
        else
          ((b.holders set).filter (fun v => b.qualifies k v x)).foldl (fun b v =>
            b.propose k v { region := set.headD 0xFF, peer := run.home, detail := 5 }) b

/-- Whether a head has waited RESERVE_US and has no reservation. -/
def Block.reserveDue (b : Block) (x : Nat) : Bool :=
  decide (b.run ≥ (b.runAt x).listedAt + us (b.reg Reg.reserveUs)) && !b.disp.reserved.any (fun v => v.run == x)

/-- RESERVE: the heads of a priority that have waited reserve, but for one that a region idle at this edge, in `freed`, lets
dispatch directly (R26, R197). -/
def Block.reserve (b freed : Block) (k p : Nat) : Block :=
  (b.headsOf k p).foldl (fun b x =>
    let b := b.dropStale
    if !b.reserveDue x || freed.couldStart k x then b else b.reserveHead k x) b

/-! Preemption (R199 to R201). -/

/-- The reservation for which a running run may be preempted. -/
def Block.reservationOver (b : Block) (v : Nat) : Option Reservation :=
  b.disp.reserved.find? (fun q => (b.runAt q.run).prio < (b.runAt v).prio && q.set.any (fun r => b.runOf r == some v))

/-- Step 1 of R200: the preempting run's contexts made resident and prefetched, in unheld slots. -/
def Block.stagePreempt (b : Block) (k x : Nat) (set : List Nat) : Block :=
  let run := b.runAt x
  match b.kernelPlan k x (if run.started then run.phase else 0) with
  | (st, desc, images, b) =>
    if st ≠ Status.ok then b.finish x st 0
    else
      let plan := if run.started then (if b.resumeGuarded x then none else some (run.slots.map (fun s => (s, false))))
        else b.planSet x run.kernel set images
      match plan with
      | none => b
      | some plan =>
        let b := b.setRun x { run with staging := true, set, slots := plan.map (·.1), loads := planLoads plan }
        b.issue k run.kernel desc set plan images

/-- Whether a staged run's contexts are in the planes of its set. -/
def Block.staged (b : Block) (x : Nat) : Bool :=
  ((b.runAt x).set.zip (b.runAt x).slots).all (fun e => b.planeHolds e.1 e.2)

/-- Whether an operation of the scarabs is under way or waits in a region. -/
def Block.staging (b : Block) (r : Nat) : Bool :=
  let mine (o : CtxOp) : Bool := o.who == .scarab && o.phys == b.phys r
  (b.ctx.waiting.look (b.phys r)).any mine || (b.ctx.engineQueue.look (dieOf r)).any mine ||
    (b.ctx.running.look (dieOf r)).any mine || (b.ctx.prefetch.look (b.phys r)).any mine

/-- Runs that are to leave for run x: PREEMPTING, with SWITCH_PENDING in every region of their sets (step 2 of R200). -/
def Block.raiseVictims (b : Block) (x : Nat) (vs : List Nat) : Block :=
  vs.foldl (fun b v =>
    let vr := b.runAt v
    let b := b.setRun v { vr with state := .preempting, preemptor := some x, pendingFrom := b.run }
    vr.set.foldl (fun b r => b.setSwitchPending r true) b) b

/-- Step 2 of R200: the victims PREEMPTING, the preempting run STARTING. -/
def Block.raisePreempt (b : Block) (k x : Nat) (set : List Nat) (vs : List Nat) : Block :=
  let run := b.runAt x
  let plan := run.slots.map (fun s => (s, false))
  let loads := run.loads
  let b := b.becomeStarting x 5 set plan
  let b := (b.setRun x { b.runAt x with loads }).raiseVictims x vs
  let b := (set.foldl (fun b r => b.wakeRegion r run.prio) b).cacheTouch k run.kernel
  b.trace k (if run.started then .resume else .dispatch) (some x)
    { region := set.headD 0xFF, detail := run.startDetail 5, count := loads }

/-- The trace record and the end of a host command PREEMPT of run v. -/
def Block.endHostPreempt (b : Block) (v status : Nat) : Block :=
  ({ b with disp := { b.disp with hcmd := none } }.setReg Reg.hcmdStatus status).trace (b.actor (b.runAt v).home) .hostCmd (some v)
    { status }

/-- PREEMPTION of run v. A run that yielded, or that the host preempts, completes its drain and is PREEMPTED; a running
run that a reservation wants is preempted at the first cricket tick at which it qualifies, first staging the contexts of the
preempting run; contexts that something has overwritten meanwhile are staged again. Other runs in the set that do not qualify yet are waited for (R199). -/
def Block.preemption (b : Block) (v : Nat) : Block :=
  let run := b.runAt v
  if run.state = .preempting then
    if run.done.isNone ∧ run.retiring.isNone ∧ b.drained v then
      if run.yielded then (b.park v true).refreshBorders
      else if run.hostPreempt then
        let b := ((b.park v false).count Reg.preemptions 1).refreshBorders
        if b.disp.hcmd.any (fun h => h.kind == 3 && h.run == v) then b.endHostPreempt v Status.ok else b
      else b
    else b
  else if b.clock % tick = 0 ∧ b.fmode fnPlacement = 0 then
    match b.reservationOver v with
    | none => b
    | some q =>
      match b.servant (b.runAt q.run).home with
      | none => b
      | some k =>
        let x := b.runAt q.run
        if !b.qualifies k v q.run then b
        else if x.state = .ready ∨ x.state = .preempted then
          if x.staging ∧ x.set = q.set then
            if b.staged q.run then b.raisePreempt k q.run q.set ((b.holders q.set).filter (fun y => b.qualifies k y q.run))
            else if q.set.any b.staging then b
            else b.stagePreempt k q.run q.set
          else b.stagePreempt k q.run q.set
        else if x.state = .starting ∧ x.rule = 5 ∧ x.set = q.set then b.raiseVictims q.run [v]
        else b
  else b

/-- PREEMPTION. -/
def execPreemption (run t : Nat) (s : State) : Host.Outcome State Fault Refusal :=
  s.answer (wfRun run) (s.blk.event t (fun b => b.unlessWiped (fun b => b.preemption run)))

/-- A run whose preemption is cancelled continues, and qualifies again after a further QUANTUM_US. -/
def Block.resumeVictim (b : Block) (v : Nat) : Block :=
  let run := b.runAt v
  let (_, desc, b) := b.kernelDesc (b.actor run.home) run.kernel
  (b.letGo v).modRun v (fun r => { r with notBeforePreempt := b.run + us (kQuantum desc) })

/-- Whether the preemption of run v is cancelled: PREEMPT_LIMIT_US have passed since SWITCH_PENDING was raised for it, and neither it nor
another victim of the same start ends (R201, R205). -/
def Block.cancelDue (b : Block) (v : Nat) : Bool :=
  let run := b.runAt v
  run.state == .preempting && run.done.isNone && run.retiring.isNone && decide (b.run ≥ run.pendingFrom + us (b.reg Reg.preemptLimitUs)) &&
    (match run.preemptor with
      | some x => (b.victimsOf x).all (fun y => (b.runAt y).done.isNone)
      | none => run.hostPreempt)

/-- Whether the host's command PREEMPT of run v reaches its limit (R214). -/
def Block.hostLate (b : Block) (v : Nat) : Bool :=
  match b.disp.hcmd with
  | some h => h.kind == 3 && h.run == v && decide (b.run ≥ h.since + us (b.reg Reg.preemptLimitUs))
  | none => false

/-- The preemption of run v cancelled. -/
def Block.cancelPreempt (b : Block) (v : Nat) : Block :=
  let run := b.runAt v
  let note (b : Block) : Block :=
    (b.count Reg.preemptCancels 1).trace (b.actor run.home) .preemptCancel (some v) { region := run.anchor }
  match run.preemptor with
  | some x =>
    let b := note (((b.victimsOf x).foldl Block.resumeVictim b).unclaim x)
    let b := (b.setRun x { b.runAt x with staging := false }).clearAnchor x
    b.listHead x (if (b.runAt x).started then .preempted else .ready)
  | none => note (b.resumeVictim v)

/-- PREEMPT_CANCEL (R201, R205, R214). -/
def Block.preemptCancel (b : Block) (v : Nat) : Block :=
  let late := b.hostLate v
  let b := if b.cancelDue v then b.cancelPreempt v else b
  if late then b.endHostPreempt v Status.timeout else b

/-- The rows by which the run that preempts starts, a victim's END is seen or its drain is complete, at time `t`. -/
def leaveRow (t : Nat) : Instr → Option (State → Host.Outcome State Fault Refusal)
  | .startEdge x t' => atEdge t t' (execStartEdge x t')
  | .doneEnd r w t' => atEdge t t' (execDoneEnd r w t')
  | .runEnd x t' => atEdge t t' (execRunEnd x t')
  | .preemption x t' => atEdge t t' (execPreemption x t')
  | _ => none

/-- Whether the start edge, the victim's end or the end of the host's preemption is visible at the edge of the limit (R26, R201). -/
def State.leaveWon (s : State) (v t : Nat) : Bool :=
  let b := s.blk.at t
  let u := (s.settle (leaveRow t)).blk.at t
  (b.cancelDue v || b.hostLate v) && !((b.cancelDue v && u.cancelDue v) || (b.hostLate v && u.hostLate v))

/-- PREEMPT_CANCEL. -/
def execPreemptCancel (run t : Nat) (s : State) : Host.Outcome State Fault Refusal :=
  s.answer (wfRun run) (s.limit (s.leaveWon run t) t (s.blk.event t (fun b => b.preemptCancel run)))

end Sys2Proof.Machine
end

