-- ==== Sys2Proof/Machine/Bridge.lean ====
section
/-! DEFINITION. The region bridge: memory requests through the page map, the port or the riser (R120, R132 to R142,
R524), their completions, and stream packets out and in (R121, R122). -/

namespace Sys2Proof.Machine

open Sys2Proof

/-! Tags. -/

/-- A tag of a region's bridge. -/
def Block.tagAt (b : Block) (r tag : Nat) : Tag := b.rgn.tags.get (fun _ => {}) (64 * r + tag)

/-- The block with a tag replaced. -/
def Block.setTag (b : Block) (r tag : Nat) (x : Tag) : Block :=
  { b with rgn := { b.rgn with tags := b.rgn.tags.set (fun _ => {}) (64 * r + tag) x } }

/-- A memory request has its final status: the ledger closes and the completion waits in the bridge (R120). -/
def Block.finishTag (b : Block) (r tag status data beats : Nat) : Block :=
  let x := b.tagAt r tag
  if x.isOpen && x.done.isNone then
    let b := (b.ledgerClose r tag status beats).setTag r tag { x with done := some (status, if x.write then 0 else data) }
    { b with mem := { b.mem with used := b.mem.used.filter (fun u => !(u.region == r && u.tag == tag)) } }.settleAcks
  else b

/-! Translation (R139 to R142). -/

/-- A page map entry that breaks Table 5.3. -/
def mapReserved (e : Nat) : Bool := bitsOf e 58 56 != 0 || bitsOf e 43 15 != 0

def mapV (e : Nat) : Bool := e.testBit 63
def mapW (e : Nat) : Bool := e.testBit 62
def mapC (e : Nat) : Bool := e.testBit 61
def mapPin (e : Nat) : Bool := e.testBit 60
def mapMig (e : Nat) : Bool := e.testBit 59
def mapNode (e : Nat) : Nat := bitsOf e 55 44
def mapFrame (e : Nat) : Nat := bitsOf e 14 0

/-- Whether a map address is read by a region's port over the networks: the map lies on the other die, or the port is retired. -/
def Block.mapFar (b : Block) (r a : Nat) : Bool := a / 2 ^ 30 != dieOf r || b.reg (Reg.portPath r) == 1

/-- A map entry read by a region's port: at the port's own die directly, on the memory-port path alone (R524), else over the riser and
the tap of its bank, whose path may be fenced. -/
def Block.mapRead (b : Block) (r a : Nat) : Nat × Nat × Block :=
  if b.mapFar r a then
    (if b.fenced (riserPath (dieOf r) ++ tapPath (a / 2 ^ 30)) then (Status.seamFence, 0, b) else b.tapRead r a 8)
  else
    let (st, d, b) := b.bankRead (a / 64)
    (st, byteSlice d (a % 64) 8, b)

/-- A refill: the entry read, and installed unless poisoned; a full buffer loses an entry that the spec does not name. -/
def Block.refill (b : Block) (r x page a : Nat) : Nat × Nat × Block :=
  let b := b.count (Reg.tbMisses r) 1
  if b.userStatus a ≠ Status.ok then (b.userStatus a, 0, b)
  else
    let (st, e, b) := b.mapRead r a
    if st ≠ Status.ok then (st, 0, b)
    else
      let p := b.phys r
      let tb := b.mem.tb.look p
      let (tb, b) := if tb.length < 256 then (tb, b) else (let (v, b) := b.draw; (tb.eraseIdx (v % 256), b))
      (Status.ok, e, { b with mem := { b.mem with tb := b.mem.tb.put p (tb ++ [TbEntry.mk x page a e]) } })

/-- The refusals of R141 that follow the read of the entry, in order. -/
def Block.entryStatus (b : Block) (e : Nat) (write : Bool) : Nat :=
  if !mapV e || (write && !mapW e) then Status.accessDenied
  else if mapReserved e then Status.malformed
  else if mapNode e = b.node ∧ b.bankRetired (bankOfFrame (mapFrame e)) then Status.retired
  else Status.ok

/-! The memory port of a region's own die (R132 to R137). -/

/-- A read by the port: the cache where the page may be cached, else the bank. -/
def Block.portRead (b : Block) (r l : Nat) (cacheable : Bool) : Nat × Nat × Block :=
  let p := b.phys r
  match (if cacheable then b.cached p l else none) with
  | some d => (Status.ok, d, (b.count (Reg.cacheHits r) 1).cachePut p l d)
  | none =>
    let b := if cacheable then b.count (Reg.cacheMisses r) 1 else b
    let (st, d, b) := b.bankRead l
    if st = Status.ok ∧ cacheable then (st, d, b.cachePut p l d) else (st, d, b)

/-- A write by the port: through to the bank, and into the line its cache already holds. -/
def Block.portWrite (b : Block) (r l data mask : Nat) : Nat × Bool × Block :=
  let p := b.phys r
  let (st, ok, b) := b.bankWrite l data mask false (some p)
  match b.cached p l with
  | none => (st, ok, b)
  | some d =>
    let key := cacheKey p l
    let set := b.mem.caches.look key
    let set := if st = Status.ok then set.map (fun e => if e.1 = l then (l, mergeLine d data mask) else e)
      else if ok then set.filter (fun e => e.1 != l) else set
    (st, ok, { b with mem := { b.mem with caches := b.mem.caches.put key set } })

/-! Performing a request. -/

/-- A request waits at the port and is tried again when the fence or the wipe ends. -/
def Block.holdRequest (b : Block) (q : HeldReq) : Block :=
  { b with net := { b.net with held := b.net.held ++ [q] } }

/-- A request sent by the riser over the networks, with the tag and ledger entry of its MREQ_TAG (R524). What meets an
exhausted riser stays open until the window edge (R469). -/
def Block.riserRequest (b : Block) (q : HeldReq) (node a mapAddr : Nat) : Block :=
  let r := q.region
  if b.fenced (riserPath (dieOf r)) then b.finishTag r q.tag Status.seamFence 0 0
  else
    let (st, stn, port) := b.destOf r node a 64 q.write
    if st ≠ Status.ok then b.finishTag r q.tag st 0 0
    else if b.riserGone r then b
    else
      let e := b.ledgerAt r q.tag
      let b := b.setLedger r q.tag { e with addr := a / 4, node := node, dstStn := stn, dstPort := port }
      let b := { b with mem := { b.mem with used := b.mem.used ++ [UsedEntry.mk r q.tag mapAddr none] } }
      let b := b.sendReq (reqFlit (b2n q.write) 0 0 r q.tag stn port node a)
      if q.write then
        b.sendDat (b.riserPlace r).1 (b.riserPlace r).2 (datSideband 0 stn port r q.tag 1 0 0) [mkBeat q.data false q.mask]
      else b

/-- A translated request on the port's own die (R133), or over the riser. One whose line is being wiped waits with the entry it used,
and a shootdown of that entry is not acknowledged before it is performed (R143, R155). -/
def Block.access (b : Block) (q : HeldReq) (mapAddr e : Nat) : Block :=
  let r := q.region
  let st := b.entryStatus e q.write
  if st ≠ Status.ok then
    (if st = Status.retired then b else b.count (Reg.deniedCompletions r) 1).finishTag r q.tag st 0 0
  else
    let a := mapFrame e * 65536 + q.line % 1024 * 64
    if mapNode e = b.node ∧ a / 2 ^ 30 = dieOf r ∧ b.reg (Reg.portPath r) = 0 then
      let le := b.ledgerAt r q.tag
      let b := b.setLedger r q.tag { le with addr := a / 4, node := b.node }
      if b.wiping (a / 64) then
        { b with mem := { b.mem with used := b.mem.used ++ [UsedEntry.mk r q.tag mapAddr (some e)] } }.holdRequest q
      else if q.write then
        let (st, ok, b) := b.portWrite r (a / 64) q.data q.mask
        b.finishTag r q.tag st 0 (b2n ok)
      else
        let (st, d, b) := b.portRead r (a / 64) (mapC e)
        b.finishTag r q.tag st d (b2n (st == Status.ok || st == Status.poison))
    else b.riserRequest q (mapNode e) a mapAddr

/-- The path a request is on until its translation is done (R524). -/
def Block.requestPath (b : Block) (r : Nat) : List Nat :=
  if b.reg (Reg.portPath r) = 1 then riserPath (dieOf r) else portPath (dieOf r)

/-- An accepted request is translated and performed (R133, R141): `x` and `kd` are its run and kernel descriptor. -/
def Block.perform (b : Block) (q : HeldReq) (x kd : Nat) : Block :=
  let r := q.region
  let page := q.line / 1024
  let a := kMapBase kd + 8 * page
  if q.write && q.mask == 0 then b.finishTag r q.tag Status.ok 0 1
  else if b.groupGone 2 (b.phys r) then b.holdRequest q
  else if b.fenced (b.requestPath r) then b.finishTag r q.tag Status.seamFence 0 0
  else if page ≥ kMapEntries kd then (b.count (Reg.deniedCompletions r) 1).finishTag r q.tag Status.accessDenied 0 0
  else match b.mem.used.find? (fun u => u.region == r && u.tag == q.tag && u.entry.isSome) with
    | some u => { b with mem := { b.mem with used := b.mem.used.erase u } }.access q a (u.entry.getD 0)
    | none =>
    match (b.mem.tb.look (b.phys r)).find? (fun e => e.run == x && e.page == page && e.mapAddr == a) with
    | some e => b.access q a e.entry
    | none =>
      if b.mig.fenced.contains a || b.wiping (a / 64) then b.holdRequest q
      else
        let (st, e, b) := b.refill r x page a
        if st = Status.ok then b.access q a e else b.finishTag r q.tag st 0 0

/-- The kernel descriptor of the run a region holds. -/
def Block.runKernel (b : Block) (x : Nat) : Nat × Nat × Block :=
  let run := b.runAt x
  b.kernelDesc run.home run.kernel

/-- A request of the run active in its region, performed under its kernel's page map. -/
def Block.performFor (b : Block) (q : HeldReq) : Block :=
  match b.runOf q.region with
  | none => b.finishTag q.region q.tag Status.abortedByHost 0 0
  | some x =>
    let (st, kd, b) := b.runKernel x
    if st = Status.ok then b.perform q x kd else b.finishTag q.region q.tag st 0 0

/-- The held requests that no longer wait are performed, in the order they were accepted (R134, R155, R230). -/
def Block.retryHeld (b : Block) : Block :=
  let qs := b.net.held
  qs.foldl (fun b q => b.performFor q) { b with net := { b.net with held := [] } }

/-! Sampling (R220). -/

/-- SAMPLE_SHIFT in force (R244). -/
def Block.sampleShift (b : Block) : Nat := nthD b.mig.inForce 0 6

/-- The header of a sample of a region's port, to a scarab. -/
def Block.sampleHeader (b : Block) (r home : Nat) : Nat :=
  let (stn, port) := b.iniPlace (320 + home)
  snpHeader snpSample 1 r stn port 0 b.node 0 (dieOf r)

/-- Whether a sample of a region's port cannot leave its memory die: tap P mod 16 of its slot position is fenced (R259). -/
def Block.sampleLost (b : Block) (r : Nat) : Bool :=
  b.fenced (tapPath (dieOf r)) || b.groupGone 4 (16 * dieOf r + b.position r % 16)

/-- An accepted request counted, and every 2^SAMPLE_SHIFT-th one sampled and sent to the run's home scarab. -/
def Block.sampleRequest (b : Block) (q : HeldReq) : Block :=
  let r := q.region
  match b.runOf r with
  | none => b
  | some x =>
    if b.reg (Reg.portPath r) = 1 || (q.write && q.mask == 0) then b
    else
      let n := b.mig.counted.look r + 1
      if n < 2 ^ b.sampleShift then { b with mig := { b.mig with counted := b.mig.counted.put r n } }
      else
        let b := { b with mig := { b.mig with counted := b.mig.counted.put r 0 } }
        let (st, kd, b) := b.runKernel x
        let page := q.line / 1024
        if st ≠ Status.ok ∨ page ≥ kMapEntries kd then b
        else if b.sampleLost r || (b.mig.samples.filter (fun s => s.region == r)).length ≥ 16 then b.count Reg.samplesDropped 1
        else
          let home := (b.runAt x).home
          let entry := b.node * 2 ^ 52 + kMapBase kd + 8 * page
          let b := { b with mig := { b.mig with samples := b.mig.samples ++ [Sample.mk r home entry (b.runAt x).kernel page] } }
          b.sendSnpFrom (tapStation (dieOf r) (b.position r % 16)) 7 (b.sampleHeader r home) [entry]

/-! MEMORY_REQUEST and MEMORY_COMPLETION. -/

/-- The memory request that port wires carry (Table 4.7). -/
def wireRequest (r fb : Nat) : HeldReq :=
  ⟨r, bitsOf fb 607 602, fb.testBit 601, bitsOf fb 599 576, bitsOf fb 575 512, bitsOf fb 511 0⟩

/-- Whether a request is the oldest that passed at the bridge and has not been taken up (R119). -/
def Block.requestPassed (b : Block) (q : HeldReq) : Bool :=
  (b.rgn.passed.look q.region).head?.map (wireRequest q.region) == some q

/-- Whether a tag is in use: open, or its completion presented at this very edge (R120). -/
def Block.tagBusy (b : Block) (r tag : Nat) : Bool :=
  let x := b.tagAt r tag
  x.isOpen || (x.shown.isSome && x.shown == b.rgn.edgeAt.look r)

/-- A request that has passed at the bridge (R120, R482). -/
def Block.memoryRequest (b : Block) (q : HeldReq) : Block :=
  let r := q.region
  let b := { b with rgn := { b.rgn with passed := b.rgn.passed.put r (b.rgn.passed.look r).tail } }
  if b.tagBusy r q.tag then b.count (Reg.tagReuse r) 1
  else
    let b := (b.setTag r q.tag { isOpen := true, write := q.write }).ledgerOpen r q.tag (b2n q.write)
      (b.node * 2 ^ 52) 0 0 1
    (b.sampleRequest q).performFor q

/-- MEMORY_REQUEST: the request whose VALID and READY were both 1 at an edge, with the operands its wires carried. -/
def execMemoryRequest (r tag : Nat) (write : Bool) (line : Nat) (mask : BitVec 64) (data : BitVec 512) (t : Nat)
    (s : State) : Host.Outcome State Fault Refusal :=
  s.answer (wfRegion r && wfTag tag && decide (line < 2 ^ 24))
    (s.blk.eventIf t (fun b => b.requestPassed ⟨r, tag, write, line, mask.toNat, data.toNat⟩)
      (fun b => b.memoryRequest ⟨r, tag, write, line, mask.toNat, data.toNat⟩))

/-- A run whose region has seen poison ends with POISON (R125). -/
def Block.poisonRun (b : Block) (r : Nat) : Block :=
  match b.runOf r with
  | some x => b.modRun x (fun run => { run with poisoned := true })
  | none => b

/-- The bridge presents a completion on the port wires, and the tag is free from the next edge (R120). -/
def Block.presentCompletion (b : Block) (r tag status data : Nat) : Block :=
  let w := b.rgn.bf.look r
  let w := putBits (putBits (putBits (putBits w 511 0 data) 512 512 1) 518 513 tag) 522 519 status
  let b := { b with rgn := { b.rgn with bf := b.rgn.bf.put r w } }.setTag r tag { shown := some b.clock }
  if status = Status.poison then (b.count (Reg.poisonCompletions r) 1).poisonRun r else b

/-- Whether the bridge may present a completion: it drives its wires on a fabric edge, one completion in a fabric cycle (R119,
R120). -/
def Block.presents (b : Block) (r : Nat) : Bool := b.edgeNow r && !(b.rgn.bf.look r).testBit 512

/-- MEMORY_COMPLETION: a completion that waits in the bridge. -/
def execMemoryCompletion (r tag t : Nat) (s : State) : Host.Outcome State Fault Refusal :=
  s.answer (wfRegion r && wfTag tag)
    (s.blk.eventIf t (fun b => b.presents r)
      (fun b => match (b.tagAt r tag).done with
      | some (st, d) => b.presentCompletion r tag st d
      | none => b))

/-! Streams. -/

/-- Stream beats packed by pairs into DAT beats, an odd one padded with zeros (R121). -/
def packBeats : List Nat → List Nat
  | [] => []
  | [x] => [x]
  | x :: y :: l => (x + y * 2 ^ 256) :: packBeats l

/-- The stream route entry of an index (Table 6.8). -/
def Block.streamRoute (b : Block) (i : Nat) : Nat := bitsOf (b.reg Reg.routeTable) (64 * i + 63) (64 * i)

/-- A packet, or the piece of one that lies in a frame, sent to its route: to the stream resolver, to the octet of another
node, or as a write of its lines (R188, R257, R260). A riser that is fenced refuses it, and so does a node with no route. -/
def Block.sendStream (b : Block) (r tag e : Nat) (data : List Nat) : Block :=
  let node := bitsOf e 55 44
  let addr := bitsOf e 39 6 * 64
  let toRun := bitsOf e 63 62 == 1
  let n := data.length
  let (st, stn, port) :=
    if toRun then
      (if node = b.node then (Status.ok, 64, 3)
       else match b.routeTo node with
        | some lk => (Status.ok, lk / 8, 0)
        | none => (Status.pathLost, 0, 0))
    else b.destOf r node addr (64 * n) true
  let b := b.ledgerOpen r tag (if toRun then 3 else 1) (node * 2 ^ 52 + (if toRun then 0 else addr)) stn port n
  let st := if b.fenced (riserPath (dieOf r)) then Status.seamFence else st
  if st ≠ Status.ok then b.ledgerClose r tag st 0
  else if b.riserGone r then b
  else
    let beats := data.map (fun d => mkBeat d false fullMask)
    let (here, port') := b.riserPlace r
    if toRun then
      b.sendDat here port' (datSideband (streamTop node (bitsOf e 43 30) (bitsOf e 29 28)) stn port r tag n 2 0) beats
    else
      (b.sendReq (reqFlit 1 0 (n - 1) r tag stn port node addr)).sendDat here port'
        (datSideband 0 stn port r tag n 0 0) beats

/-- A packet that its bridge refuses whole: its ledger entry opens and closes with the status, and nothing of it is delivered
(R20, R121, R188, R482; DEDUCED, log 178). -/
def Block.refuseStream (b : Block) (r tag e n status : Nat) : Block :=
  (b.ledgerOpen r tag (if bitsOf e 63 62 = 2 then 1 else 3) (bitsOf e 55 44 * 2 ^ 52) 0 0 n).ledgerClose r tag status 0

/-- A packet that a stream route entry names. One written by address whose bytes do not all lie in one range is refused whole
(R20); one that crosses a frame is sent in two pieces, each in one frame (R255). -/
def Block.routeStream (b : Block) (r tag e : Nat) (data : List Nat) : Block :=
  let kind := bitsOf e 63 62
  let line := bitsOf e 39 6
  let n := data.length
  let cut := min n (1024 - line % 1024)
  if kind = 0 ∨ kind = 3 then (b.count Reg.routeRefused 1).refuseStream r tag e n Status.accessDenied
  else if kind = 1 ∨ cut = n then
    let b := if kind == 2 && reservedOffset (64 * line) (64 * n) then b.count Reg.reservedAccesses 1 else b
    b.sendStream r tag e data
  else if reservedOffset (64 * line) (64 * n) then
    (b.count Reg.reservedAccesses 1).refuseStream r tag e n Status.accessDenied
  else
    let b := b.sendStream r tag e (data.take cut)
    match b.freeTag r 64 64 with
    | none => b
    | some tag => b.sendStream r tag (putBits e 39 6 (line + cut)) (data.drop cut)

/-- A packet whose last beat has arrived (R121, R188). -/
def Block.streamOut (b : Block) (r ch : Nat) (beats : List Nat) : Block :=
  match b.runOf r, b.freeTag r 64 64 with
  | some x, some tag =>
    let e := b.streamRoute ((b.runAt x).soutRoute ch)
    if beats.length > 128 then (b.count (Reg.streamTooLong r) 1).refuseStream r tag e 64 Status.tooLong
    else
      let b := if beats.length % 2 = 1 then b.count (Reg.streamPadded r) 1 else b
      b.routeStream r tag e (packBeats beats)
  | _, _ => b

/-- Whether the bridge has a tag for a packet and for its second piece; until then the packet waits. -/
def Block.streamTag (b : Block) (r : Nat) : Bool :=
  ((List.range 64).filter (fun q => (b.ledgerAt r (64 + q)).state != .opened)).length ≥ 2

/-- Whether a stream-out packet waits whole in the bridge. -/
def Block.packetPassed (b : Block) (r ch : Nat) (beats : List Nat) : Bool :=
  b.rgn.outDone.look r == some (ch, beats) && b.streamTag r

/-- The packet that waits whole in the bridge is forwarded, and the next one may begin (R121). -/
def Block.forwardPacket (b : Block) (r ch : Nat) (beats : List Nat) : Block :=
  { b with rgn := { b.rgn with outDone := b.rgn.outDone.put r none } }.streamOut r ch beats

/-- STREAM_OUT_PACKET: a packet whose beats have all passed at fabric edges, the last of them with SOUT_LAST. -/
def execStreamOutPacket (r ch : Nat) (beats : List (BitVec 256)) (t : Nat) (s : State) :
    Host.Outcome State Fault Refusal :=
  s.answer (wfRegion r && wfChannel ch && !beats.isEmpty)
    (s.blk.eventIf t (fun b => b.packetPassed r ch (beats.map (·.toNat)))
      (fun b => b.forwardPacket r ch (beats.map (·.toNat))))

/-! Streams in (R122, R123, R267, R483). -/

/-- Whether a packet's addressed run is active in the region. -/
def Block.runsHere (b : Block) (r sb : Nat) : Bool :=
  match b.runOf r with
  | some x => x == dRun sb && (b.runAt x).active? && !b.bridgeOff r
  | none => false

/-- The stream beats of a packet's DAT beats: the lower half of each first (R122). -/
def halves : List Beat → List Nat
  | [] => []
  | x :: l => x.data.toNat % 2 ^ 256 :: x.data.toNat / 2 ^ 256 :: halves l

/-- A packet that has started: its beats are offered in turn from the next edge. -/
def Block.startStreamIn (b : Block) (r sb : Nat) (beats : List Beat) : Block :=
  { b with rgn := { b.rgn with
      inPacket := b.rgn.inPacket.put r (some { sb := sb, beats := halves beats, poison := beats.any (·.poison) }) } }

/-- A packet at the bridge: refused behind a fence, and where its run is not active; else its delivery starts, unless another's has
not ended or a switch is pending, for which it waits. -/
def Block.streamArrivesIn (b : Block) (r sb : Nat) (beats : List Beat) : Block :=
  let (stn, port) := b.riserPlace r
  let here := (b.arrived 1 sb).land 1 (dSrc sb) (datKey sb)
  if b.fenced (riserPath (dieOf r)) then
    (here.count Reg.fenceRefusals 1).complete 0 stn port (dSrc sb) (dTag sb) Status.seamFence 0 0
  else if !b.runsHere r sb then
    (here.count (Reg.streamInRefused r) 1).complete 0 stn port (dSrc sb) (dTag sb) Status.accessDenied 0 0
  else if (b.rgn.inPacket.look r).isSome || b.rgn.pendingFlag.look r then b
  else (here.countBytes true 1 r beats.length).startStreamIn r sb beats

/-- The design has taken every stream beat of a packet: it is committed whole (R158, R483). -/
def Block.streamInDone (b : Block) (r : Nat) (q : InPacket) : Block :=
  let (stn, port) := b.riserPlace r
  let b := { b with rgn := { b.rgn with inPacket := b.rgn.inPacket.put r none } }
  let b := if q.poison then b.poisonRun r else b
  b.complete 0 stn port (dSrc q.sb) (dTag q.sb) (if q.poison then Status.poison else Status.ok) (q.beats.length / 2) 0

/-- A step of a stream-in packet's delivery: its arrival, or the taking of its last stream beat. -/
def Block.streamIn (b : Block) (r sb : Nat) (beats : List Beat) (taken : Nat) : Block :=
  if taken = 0 then (if b.delivers 1 sb then b.streamArrivesIn r sb beats else b)
  else match b.rgn.inPacket.look r with
    | some q => if q.sb = sb ∧ q.taken = taken ∧ taken = q.beats.length then b.streamInDone r q else b
    | none => b

/-- STREAM_IN_PACKET: `taken` is 0 as the packet arrives, and the number of its stream beats once the design has taken them all;
the bridge drives and takes them at the fabric edges. -/
def execStreamInPacket (r : Nat) (sb : BitVec 128) (beats : List Beat) (taken t : Nat) (s : State) :
    Host.Outcome State Fault Refusal :=
  s.answer (wfRegion r && !beats.isEmpty) (s.blk.event t (fun b => b.streamIn r sb.toNat beats taken))

end Sys2Proof.Machine
end

