-- ==== Sys2Proof/Machine/Mig.lean ====
section
/-! DEFINITION. Data placement: heat and its evaluation, the frame pool, and the steps of a migration (R219 to R240). -/

namespace Sys2Proof.Machine

open Sys2Proof

/-! SNP commands (R259). -/

/-- An SNP command leaves its sender: its ledger entry opens under the message number, and `n` acknowledgements or the
one answer are awaited. -/
def Block.snpCommand (b : Block) (op ini msg stn port node arg : Nat) (payload : List Nat) (addr n : Nat) : Block :=
  let b := b.ledgerOpen ini msg 4 addr stn port 1
  let rest := b.net.snp.filter (fun o => !(o.ini == ini && o.msg == msg))
  let b := { b with net := { b.net with snp := rest ++ [SnpOp.mk ini msg n []] } }
  b.sendSnp (snpHeader op payload.length ini stn port msg node 0 arg) payload

/-! Page map entries as the engines update them. -/

/-- A conditional update by scarab k of the entry at a local offset (R228): status, whether it was written, block. -/
def Block.condUpdate (b : Block) (k off expected new : Nat) : Nat × Bool × Block :=
  let b := (b.meets off 8).tapTraffic (320 + k) (localPort off).1 1 true (b.tapStatus (320 + k) off)
  if b.tapStatus (320 + k) off ≠ Status.ok then (b.tapStatus (320 + k) off, false, b)
  else
    let (st, d, b) := b.bankRead (off / 64)
    if st ≠ Status.ok then (st, false, b)
    else if byteSlice d (off % 64) 8 = expected then
      let (_, ok, b) := b.bankWrite (off / 64) (new * 256 ^ (off % 64)) (255 * 2 ^ (off % 64)) false none
      (Status.ok, ok, b)
    else (Status.ok, false, b)

/-- An entry with MIG set or cleared, and with another place. -/
def withMig (e : Nat) (v : Bool) : Nat := putBit e 59 v
def withPlace (e node frame : Nat) : Nat := putBit (putBits (putBits e 55 44 node) 14 0 frame) 59 false

/-! The pool (R227). -/

/-- The lowest pool frame on a memory die whose bank is IN_SERVICE. -/
def Block.poolFrameOn (b : Block) (die : Nat) : Option Nat :=
  b.mig.pool.find? (fun f => f / 2 ^ 14 == die && b.reg (Reg.bankState (bankOfFrame f)) == 0)

/-- A frame wiped and put into the pool; a frame whose bank is not in service stays out (R227). -/
def Block.returnFrame (b : Block) (f : Nat) : Block :=
  let b := b.wipeLines true f
  if b.reg (Reg.bankState (bankOfFrame f)) = 0 then b.poolAdd f else b

/-- A frame of node `node` wiped and returned to its pool: by message to another node (R237). -/
def Block.returnTo (b : Block) (k node f : Nat) : Block :=
  if node = b.node then b.returnFrame f
  else match b.routeTo node with
    | some lk => b.snpCommand snpRelease (320 + k) 40 (lk / 8) 0 node 0 [f] (node * 2 ^ 52) 1
    | none => b

/-- A frame of another node that was granted in place of the one named is released, one message at a time (R239). -/
def Block.releaseHeld (b : Block) : Block :=
  match b.mig.hostHeld with
  | [] => b
  | (k, node, f) :: rest => { b with mig := { b.mig with hostHeld := rest } }.returnTo k node f

/-! Heat (R221 to R223). -/

def heatKey (k i : Nat) : Nat := 512 * k + i
def Block.heatAt (b : Block) (k i : Nat) : Heat := b.mig.heat.get (fun _ => {}) (heatKey k i)
def Block.setHeat (b : Block) (k i : Nat) (h : Heat) : Block :=
  { b with mig := { b.mig with heat := b.mig.heat.set (fun _ => {}) (heatKey k i) h } }

/-- A record is free while both counts are 0. -/
def Heat.free (h : Heat) : Bool := h.la == 0 && h.lb == 0

/-- The record a sample goes to: its own, the lowest free one, or the coldest, which starts anew. -/
def Block.heatFor (b : Block) (k entry : Nat) : Nat × Heat :=
  match (List.range 512).find? (fun i => !(b.heatAt k i).free && (b.heatAt k i).entry == entry) with
  | some i => (i, b.heatAt k i)
  | none =>
    match (List.range 512).find? (fun i => (b.heatAt k i).free) with
    | some i => (i, { entry := entry })
    | none => (((leastBy (fun i => (b.heatAt k i).la + (b.heatAt k i).lb) (List.range 512)).getD 0), { entry := entry })

/-- SAMPLE (R221): a sample reaches scarab k, and leaves its port's queue. -/
def Block.sample (b : Block) (k entry die : Nat) : Block :=
  let s := b.mig.samples.find? (fun s => s.home == k && s.entry == entry && dieOf s.region == die)
  let b := match s with
    | some s => { b with mig := { b.mig with samples := b.mig.samples.erase s } }.arrived 3 (b.sampleHeader s.region k)
    | none => b
  let (i, h) := b.heatFor k entry
  let h := if die = 0 then { h with la := satAdd h.la 1 0xFFFF } else { h with lb := satAdd h.lb 1 0xFFFF }
  let h := match s with
    | some s => { h with kernel := s.kernel, page := s.page }
    | none => h
  ((b.setHeat k i h).count (Reg.heatSamples k) 1).countBytes true 3 (320 + k) 2

/-- SAMPLE. -/
def execSample (k entry die t : Nat) (s : State) : Host.Outcome State Fault Refusal :=
  s.answer (wfScarab k && wfDie die && decide (entry < 2 ^ 64)) (s.blk.event t (fun b => b.sample k entry die))

/-- Parameter i of 0x6300.02 to .09 in force (R244): shift, epoch, threshold, hysteresis, cooldown, final chunks, rounds,
limit. -/
def Block.migParam (b : Block) (i : Nat) : Nat := nthD b.mig.inForce i 0

/-- A candidate of R223: the record, the samples of its user die, the user die and the entry's value. -/
structure Candidate where
  index : Nat
  heat : Heat
  hot : Nat
  die : Nat
  value : Nat

/-- Whether a record that is not free is a candidate, with the read of its entry. -/
def Block.judgeHeat (b : Block) (k i : Nat) (h : Heat) : Option Candidate × Block :=
  let (st, e, b) := b.tapRead (320 + k) (bitsOf h.entry 39 0) 8
  let u := if h.la > h.lb then 0 else 1
  let hu := max h.la h.lb
  let hv := min h.la h.lb
  let isLocal := mapNode e == b.node
  let ok := st == Status.ok && bitsOf h.entry 63 52 == b.node && mapV e && !mapPin e && !mapMig e && !mapReserved e &&
    h.la != h.lb && !(isLocal && mapFrame e / 2 ^ 14 == u) && decide (hu ≥ b.migParam 2) &&
    (!isLocal || decide (hu ≥ b.migParam 3 * hv)) &&
    (h.last == 0 || decide ((b.cricket + 2 ^ 32 - h.last) % 2 ^ 32 ≥ 1000 * b.migParam 4))
  (if ok then some ⟨i, h, hu, u, e⟩ else none, b)

/-- A later record inserted into candidates in descending order of the user die's samples, ties to the lowest record (R223). -/
def insertHot (c : Candidate) : List Candidate → List Candidate
  | [] => [c]
  | x :: l => if c.hot > x.hot then c :: x :: l else x :: insertHot c l

/-- A migration proposal (Table 7.5, R238): a full queue drops its oldest. -/
def Block.proposeMove (b : Block) (entry value dstNode dstDie reason la lb kernel page : Nat) : Block :=
  let w := entry * 2 ^ 192 + b.ts % 2 ^ 64 * 2 ^ 128 + mapNode value * 2 ^ 116 + mapFrame value * 2 ^ 101 +
    dstNode * 2 ^ 88 + dstDie * 2 ^ 87 + reason * 2 ^ 84 + la * 2 ^ 68 + lb * 2 ^ 52 + kernel * 2 ^ 40 + page * 2 ^ 26
  if b.mig.proposals.length < 256 then { b with mig := { b.mig with proposals := b.mig.proposals ++ [w] } }
  else { b with mig := { b.mig with proposals := b.mig.proposals.drop 1 ++ [w] } }.count Reg.propDropped 1

/-- What becomes of a candidate: ready to start in hardware mode, proposed in host-assisted mode (R224, R238). -/
def Block.takeCandidate (k : Nat) (b : Block) (c : Candidate) : Block :=
  if b.fmode fnMigration = 0 then
    let r : MigReady := { scarab := k, reason := .hot, entry := bitsOf c.heat.entry 39 0, value := c.value, node := b.node,
                          die := c.die, heat := c.index }
    { b with mig := { b.mig with ready := b.mig.ready ++ [r] } }
  else
    let (node, die) := if (b.poolFrameOn c.die).isSome then (b.node, c.die) else (0, 0)
    b.proposeMove c.heat.entry c.value node die 0 c.heat.la c.heat.lb c.heat.kernel c.heat.page

/-- Evaluation by one scarab (R223). -/
def Block.evaluateHeat (b : Block) (k : Nat) : Block :=
  let (cs, b) := (List.range 512).foldl (fun (acc : List Candidate × Block) i =>
    let (cs, b) := acc
    let h := b.heatAt k i
    if h.free then (cs, b)
    else match b.judgeHeat k i h with
      | (some c, b) => (insertHot c cs, b)
      | (none, b) => (cs, b)) ([], b)
  cs.foldl (Block.takeCandidate k) b

/-- A record halved; one that is left free is forgotten (R222). -/
def Heat.halve (h : Heat) : Heat :=
  let h := { h with la := h.la / 2, lb := h.lb / 2 }
  if h.free then {} else h

/-- The end of an epoch (R222, R244). Hot candidates of the epoch before that found no slot or no frame are left, those for want of
a frame counted (R224). -/
def Block.epochEnd (b : Block) : Block :=
  let frameless := (b.mig.ready.filter (fun r => r.reason == MigReason.hot && (b.poolFrameOn r.die).isNone)).length
  let b := b.count Reg.migNoFrame frameless
  let b := { b with mig := { b.mig with
    inForce := [Reg.sampleShift, Reg.sampleEpochUs, Reg.migThreshold, Reg.hyst, Reg.migCooldownMs, Reg.migFinalChunks,
      Reg.migMaxRounds, Reg.migLimitUs].map b.reg
    ready := b.mig.ready.filter (fun r => r.reason != MigReason.hot) } }
  let b := (List.range 32).foldl (fun b k => b.evaluateHeat k) b
  let heat : SMap Heat := (b.mig.heat.map (fun e => (e.1, e.2.halve))).filter (fun e => !e.2.free)
  { b with mig := { b.mig with heat := heat } }

/-- Whether an epoch ends now: a cricket tick whose count is a multiple of SAMPLE_EPOCH_US in force. -/
def Block.epochDue (b : Block) : Bool :=
  b.clock % tick == 0 && b.cricket != 0 && b.cricket % max 1 (b.migParam 1) == 0

/-- The work of an epoch's end, which waits for the end of a wipe that its reads meet (R155). -/
def Block.epochWork (b : Block) : Block :=
  let b := { b with mem := { b.mem with stalled := false }, mig := { b.mig with epochOwed := true } }
  b.unlessWiped (fun b => { b.epochEnd with mig := { b.epochEnd.mig with epochOwed := false } })

/-- EPOCH_END. -/
def execEpochEnd (t : Nat) (s : State) : Host.Outcome State Fault Refusal :=
  s.answer true (s.blk.eventIf t Block.epochDue Block.epochWork)

/-! Slots. -/

/-- The slot's job. -/
def Block.jobAt (b : Block) (m : Nat) : Option MigJob := b.mig.jobs.look m
def Block.setJob (b : Block) (m : Nat) (j : Option MigJob) : Block :=
  { b with mig := { b.mig with jobs := b.mig.jobs.put m j } }

/-- Node and frame of the source and destination of a slot. -/
def Block.mslotSource (b : Block) (m : Nat) : Nat × Nat :=
  (bitsOf (b.reg (Reg.mslotSrc m)) 26 15, bitsOf (b.reg (Reg.mslotSrc m)) 14 0)
def Block.mslotDest (b : Block) (m : Nat) : Nat × Nat :=
  (bitsOf (b.reg (Reg.mslotDst m)) 26 15, bitsOf (b.reg (Reg.mslotDst m)) 14 0)

/-- Whether a frame is the source or destination of a migration, of this node or of one that has armed a tracker here; its wipe is
then aborted (R232). -/
def Block.migratingFrame (b : Block) (f : Nat) : Bool :=
  b.mig.trackers.any (fun e => e.2.map (·.frame) == some f) || (List.range 32).any (fun m => b.reg (Reg.mslotState m) != 0 &&
    (b.mslotSource m == (b.node, f) || b.mslotDest m == (b.node, f)))

/-! Pool commands (R225). -/

/-- POOL_CMD: 1 adds the frame in POOL_FRAME, 2 removes it. -/
def Block.writePoolCmd (b : Block) (v : Nat) : Nat × Block :=
  let f := b.reg Reg.poolFrame
  let bank := bankOfFrame f
  b.guarded [badValue Reg.poolCmd v, (b.reg Reg.poolStatus ≥ 128, Abort.busy),
      (v == 1 && (b.bankRetired bank || b.inPool f || b.reg (Reg.bankState bank) != 0 || b.migratingFrame f), Abort.condition),
      (v == 2 && !b.inPool f, Abort.condition)]
    (fun b =>
      if v = 1 then
        { (b.wipeLines true f).setReg Reg.poolStatus 128 with mig := { b.mig with adding := some f } }
      else (b.poolDrop f).setReg Reg.poolStatus 0)

/-- POOL_FRAME, then POOL_CMD. -/
def Block.poolCommand (b : Block) (f v : Nat) : Nat × Block :=
  match b.writePlain [(Reg.poolFrame, f)] with
  | (0, b') => b'.writePoolCmd v
  | (a, b') => (a, b')

/-- POOL_ADD. -/
def execPoolAdd (frame : Nat) (s : State) : Host.Outcome State Fault Refusal :=
  s.answer true (s.blk.host (fun b => b.poolCommand frame 1))

/-- POOL_REMOVE. -/
def execPoolRemove (frame : Nat) (s : State) : Host.Outcome State Fault Refusal :=
  s.answer true (s.blk.host (fun b => b.poolCommand frame 2))

/-- PROP_POP (R238). -/
def Block.writePropPop (b : Block) (v : Nat) : Nat × Block :=
  b.guarded [badValue Reg.propPop v]
    (fun b => { b with mig := { b.mig with proposals := b.mig.proposals.drop 1 } })

/-- PROP_POP. -/
def execPropPop (v : Nat) (s : State) : Host.Outcome State Fault Refusal :=
  s.answer true (s.blk.host (fun b => b.writePropPop v))

/-- The lowest free slot. -/
def Block.freeSlot (b : Block) : Option Nat := (List.range 32).find? (fun m => b.reg (Reg.mslotState m) == 0)

/-- Hot migrations in slots, of all scarabs or of one (R224). -/
def Block.hotSlots (b : Block) (k : Option Nat) : Nat :=
  ((List.range 32).filter (fun m => b.reg (Reg.mslotState m) != 0 && (match b.jobAt m with
    | some j => j.ready.reason == .hot && (match k with | some k => j.ready.scarab == k | none => true)
    | none => false))).length

/-- The host's migration ends with its status (R239). -/
def Block.endHostMove (b : Block) (reason : MigReason) (st : Nat) : Block :=
  if reason = .host then b.setReg Reg.hmigStatus st else b

/-- A slot becomes FREE with the final status of its migration. -/
def Block.freeMigSlot (b : Block) (m st : Nat) : Block :=
  ((b.setReg (Reg.mslotState m) 0).setReg (Reg.mslotLastStatus m) st).setJob m none

/-- A migration that ends before it is done: recorded, counted and logged (R233, item 6). -/
def Block.recordAbandon (b : Block) (m st : Nat) (j : MigJob) : Block :=
  let b := ((b.freeMigSlot m st).setReg Reg.lastAbandonStatus st).count Reg.migAbandoned 1
  (b.endHostMove j.ready.reason st).logEvent 0x0305 0 (320 + j.ready.scarab)
    (b.node * 2 ^ 52 + j.ready.entry + st * 2 ^ 64)

/-! Copying (R229). -/

/-- A line of S as a copy of slot m takes it: VALID, data and POISON. One that a stray write has changed since the FINAL take is taken as
it was then (R236); any other is read, its state voted as by any read (R150, R154). -/
def Block.sourceLine (b : Block) (m l : Nat) : Bool × Nat × Bool × Block :=
  match ((b.jobAt m).map (·.kept)).bind (fun k => k.find? (fun e => e.1 == l)) with
  | some (_, d, v, p) => (v, d, p, b)
  | none => match b.voteLine l with
    | (v, _, b) => match b.readLine l with
      | (d, p, b') => if v then (true, d, p, b') else (false, 0, false, b)

/-- One line copied within this node: VALID and POISON with it; a line not valid at S is not written. -/
def Block.copyLine (b : Block) (m src dst : Nat) : Block :=
  match b.sourceLine m src with
  | (true, d, p, b) => (b.writeLine dst d fullMask p none).2.count Reg.bytesMoved 64
  | (false, _, _, b) => b

/-- Blocks of lines copied within this node. -/
def Block.copyBlocks (b : Block) (m s d : Nat) (blocks : List (Nat × Nat)) : Block :=
  blocks.foldl (fun b e => (List.range e.2).foldl (fun b i => b.copyLine m (1024 * s + e.1 + i) (1024 * d + e.1 + i)) b) b

/-- The blocks of a whole frame, and of marked chunks. -/
def wholeFrame : List (Nat × Nat) := (List.range 16).map (fun i => (64 * i, 64))
def chunkBlocks (bits : Nat) : List (Nat × Nat) := (onesOf 256 bits).map (fun c => (4 * c, 4))

/-- A request of the migration engine of scarab k on another node's frame: none where no tag is free. -/
def Block.engineRequest (b : Block) (k m op node f first n : Nat) : Option (Nat × Block) :=
  (b.freeTag (320 + k) 41 23).map (fun tag =>
    let a := 65536 * f + 64 * first
    let (st, stn, port) := b.destOf (320 + k) node a (64 * n) (op == 1)
    let b := b.ledgerOpen (320 + k) tag op (node * 2 ^ 52 + a) stn port n
    if st ≠ Status.ok then
      let b := b.ledgerClose (320 + k) tag st 0
      (tag, match b.jobAt m with
        | some j => b.setJob m (some { j with failed := j.failed ++ [st], todo := [] })
        | none => b)
    else (tag, b.sendReq (reqFlit op 0 (n - 1) (320 + k) tag stn port node a)))

/-- Lines of this node's frame read for a write to another node: a line not valid here goes with no byte enabled, and is not written
(R229). -/
def Block.readBlock (b : Block) (m f first n : Nat) : List Beat × Block :=
  (List.range n).foldl (fun (acc : List Beat × Block) i =>
    let (v, d, p, b) := acc.2.sourceLine m (1024 * f + first + i)
    (acc.1 ++ [mkBeat d p (if v then fullMask else 0)], b)) ([], b)

/-- A copy access that a retired bank of this node answers with RETIRED ends the copying (R164). -/
def Block.copyRefused (b : Block) (m : Nat) : Block :=
  match b.jobAt m with
  | some j => b.setJob m (some { j with failed := j.failed ++ [Status.retired], todo := [] })
  | none => b

/-- A block written to the destination: at once in this node, by WRITE to another. The lines read from another node come without
their VALID bits, and each is written (DEDUCED, log 183). -/
def Block.putBlock (b : Block) (m k first : Nat) (beats : List Beat) : Block :=
  let (nd, fd) := b.mslotDest m
  if nd = b.node ∧ b.bankRetired (bankOfFrame fd) then b.copyRefused m
  else if nd = b.node then
    (beats.zip (List.range beats.length)).foldl (fun b e =>
      (b.writeLine (1024 * fd + first + e.2) e.1.data.toNat fullMask e.1.poison none).2.count Reg.bytesMoved 64) b
  else match b.engineRequest k m 1 nd fd first beats.length with
    | none => b
    | some (tag, b) =>
      match b.jobAt m with
      | none => b
      | some j =>
        if !j.failed.isEmpty then b
        else
          let f := b.ledgerAt (320 + k) tag
          (b.setJob m (some { j with copies := j.copies ++ [MigOpen.mk tag true first beats.length (beats.filter (fun x => x.mask != 0)).length] })).sendDat
            (b.iniPlace (320 + k)).1 (b.iniPlace (320 + k)).2 (datSideband 0 f.dstStn f.dstPort (320 + k) tag beats.length 0 0) beats

/-- The blocks still to be copied over the networks are issued while tags are free. -/
def Block.pumpCopies (b : Block) (m : Nat) : Nat → Block
  | 0 => b
  | n + 1 =>
    match b.jobAt m with
    | none => b
    | some j =>
      match j.todo with
      | [] => b
      | (first, len) :: rest =>
        let k := j.ready.scarab
        if (b.freeTag (320 + k) 41 23).isNone then b
        else
          let b := b.setJob m (some { j with todo := rest })
          let (ns, fs) := b.mslotSource m
          if ns = b.node ∧ b.bankRetired (bankOfFrame fs) then b.copyRefused m
          else if ns = b.node then
            let (beats, b) := b.readBlock m fs first len
            (b.putBlock m k first beats).pumpCopies m n
          else match b.engineRequest k m 0 ns fs first len with
            | none => b
            | some (tag, b) =>
              match b.jobAt m with
              | none => b
              | some j =>
                if !j.failed.isEmpty then b
                else (b.setJob m (some { j with copies := j.copies ++ [MigOpen.mk tag false first len 0] })).pumpCopies m n

/-- Whether both frames lie on this node. -/
def Block.copyLocal (b : Block) (m : Nat) : Bool := (b.mslotSource m).1 == b.node && (b.mslotDest m).1 == b.node

/-- Copying over the networks begun. -/
def Block.beginCopy (b : Block) (m : Nat) (blocks : List (Nat × Nat)) : Block :=
  match b.jobAt m with
  | none => b
  | some j => if b.copyLocal m then b else (b.setJob m (some { j with todo := blocks })).pumpCopies m (blocks.length + 1)

/-- A completion of a copy access (R237). -/
def Block.copyAnswer (b : Block) (m : Nat) (o : MigOpen) (status : Nat) (beats : List Beat) : Block :=
  match b.jobAt m with
  | none => b
  | some j =>
    let j := { j with copies := j.copies.erase o }
    if status ≠ Status.ok ∧ status ≠ Status.poison then
      b.setJob m (some { j with failed := j.failed ++ [status], todo := [] })
    else
      let b := b.setJob m (some j)
      let b := if o.write then b.count Reg.bytesMoved (64 * o.written)
        else b.putBlock m j.ready.scarab o.first (beats.map (fun x => { x with mask := BitVec.ofNat 64 fullMask }))
      b.pumpCopies m 64

/-! Messages of a migration. -/

/-- The tap or octet to which tracker messages for the source go. -/
def Block.trackerPlace (b : Block) (m : Nat) : Option (Nat × Nat) :=
  let (ns, fs) := b.mslotSource m
  if ns = b.node then some (localPort (65536 * fs)) else (b.routeTo ns).map (fun lk => (lk / 8, 0))

/-- A tracker message of slot m, under message number m; a node that cannot be reached fails the migration. -/
def Block.trackerSend (b : Block) (m op arg : Nat) (payload : List Nat) : Block :=
  match b.jobAt m, b.trackerPlace m with
  | some j, some (stn, port) =>
    let b := b.setJob m (some { j with msg := some m, taken := false, chunks := 0, asking := false })
    b.snpCommand op (320 + j.ready.scarab) m stn port (b.mslotSource m).1 arg payload
      ((b.mslotSource m).1 * 2 ^ 52 + 65536 * (b.mslotSource m).2) 1
  | some j, none => b.setJob m (some { j with failed := j.failed ++ [Status.pathLost] })
  | none, _ => b

/-- A broadcast about the entry of slot m to every tap of this node. -/
def Block.fenceSend (b : Block) (m op : Nat) : Block :=
  match b.jobAt m with
  | some j =>
    let a := b.node * 2 ^ 52 + j.ready.entry
    (b.setJob m (some { j with msg := some m })).snpCommand op (320 + j.ready.scarab) m 127 15 b.node 0 [a] a 32
  | none => b

/-- The node that asks for a tracker: the partner of the link over which an octet proxies the request, else this node. DEDUCED
(log 184): the commands name their destination only (Table 8.10), so this partner is all that a node knows of who migrates. -/
def Block.armerNode (b : Block) (hdr : Nat) : Nat :=
  match b.link.proxies.find? (fun p => p.op == opSnp && p.octet + 256 == sSrc hdr && p.ptag == sMsg hdr) with
  | some p => p.node
  | none => b.node

/-- A tracker of this node freed; a request that waits for one on its die is armed and answered (Table 7.2). -/
def Block.armTracker (b : Block) (hdr f : Nat) : Block :=
  let die := f / 2 ^ 14
  match (List.range 16).find? (fun q => (b.mig.trackers.look (16 * die + q)).isNone) with
  | none => { b with mig := { b.mig with armWait := b.mig.armWait ++ [(hdr, f)] } }
  | some q =>
    let b := { b with mig := { b.mig with
      trackers := b.mig.trackers.put (16 * die + q) (some { frame := f, node := b.armerNode hdr }) } }
    let (stn, port) := b.iniPlace (sSrc hdr)
    b.sendSnpFrom (localPort (65536 * f)).1 (localPort (65536 * f)).2 (snpHeader snpTrackerArmed 0 (sSrc hdr) stn port (sMsg hdr) (sNode hdr) 0 q) []

/-- A tracker freed, and the requests that wait tried again. -/
def Block.freeTracker (b : Block) (key : Nat) : Block :=
  let ws := b.mig.armWait
  let b := { b with mig := { b.mig with trackers := b.mig.trackers.put key none, armWait := [] } }
  ws.foldl (fun b w => b.armTracker w.1 w.2) b

/-- The tracker of slot m disarmed: at once on this node, by message on another. -/
def Block.disarm (b : Block) (m : Nat) (j : MigJob) : Block :=
  match j.tracker with
  | none => { b with mig := { b.mig with
      armWait := b.mig.armWait.filter (fun w => !(sSrc w.1 == 320 + j.ready.scarab && sMsg w.1 == m)) } }
  | some q =>
    let (ns, fs) := b.mslotSource m
    if ns = b.node then b.freeTracker (16 * (fs / 2 ^ 14) + q) else b.trackerSend m snpTrackerDisarm q []

/-- A fence lifted at every port: the refills that wait read the entry (R228, step 8). -/
def Block.liftFence (b : Block) (entry : Nat) : Block :=
  { b with mig := { b.mig with fenced := b.mig.fenced.filter (· != entry) } }.retryHeld

/-! Starting (R224, R228). -/

/-- The destination frame of a ready migration, taken from the pool (R227, R240). -/
def Block.pickFrame (b : Block) (r : MigReady) : Option (Nat × Block) :=
  match r.frame with
  | some f => some (f, b)
  | none =>
    let found := match b.poolFrameOn r.die with
      | some f => some f
      | none => if r.reason = MigReason.drain then b.poolFrameOn (1 - r.die) else none
    found.map (fun f => (f, b.poolDrop f))

/-- CLAIM in slot m (R228, Table 7.2): the entry is marked MIG, or the slot stays FREE. -/
def Block.claim (b : Block) (m : Nat) (r : MigReady) (f : Nat) : Block :=
  let (st, ok, b) := b.condUpdate r.scarab r.entry r.value (withMig r.value true)
  let j : MigJob := { ready := r, value := withMig r.value true }
  let b := if r.reason = .host then b.setReg Reg.hmigSlot m else b
  if ok then
    (b.setRegs [(Reg.mslotState m, 1), (Reg.mslotReason m, r.reason.code), (Reg.mslotEntry m, b.node * 2 ^ 52 + r.entry),
      (Reg.mslotSrc m, mapNode r.value * 2 ^ 15 + mapFrame r.value), (Reg.mslotDst m, r.node * 2 ^ 15 + f),
      (Reg.mslotRound m, 0), (Reg.mslotDirty m, 0)]).setJob m (some j)
  else
    let b := b.returnTo r.scarab r.node f
    if st = Status.ok then b.endHostMove r.reason Status.abortedByHost
    else b.recordAbandon m st j

/-- The ready migration that scarab k starts next: host commands first, then drains that have a frame, then hot ones (R224, R240). -/
def Block.nextReady (b : Block) (k : Nat) : Option MigReady :=
  let waits (r : MigReady) : Bool := r.reason == MigReason.drain && (b.poolFrameOn 0).isNone && (b.poolFrameOn 1).isNone
  let mine := b.mig.ready.filter (fun r => r.scarab == k && !waits r)
  (mine.find? (fun r => r.reason == MigReason.host)).or ((mine.find? (fun r => r.reason == MigReason.drain)).or mine.head?)

/-- The order in which migrations that are ready take free slots (R224). -/
def MigReason.rank : MigReason → Nat
  | .host => 0 | .drain => 1 | .hot => 2

/-- Whether the free slots are all for migrations of other scarabs that come before this one (R224). -/
def Block.outranked (b : Block) (r : MigReady) : Bool :=
  let ahead := ((List.range 32).filter (· != r.scarab)).filterMap b.nextReady |>.filter (fun x => decide (x.reason.rank < r.reason.rank))
  !ahead.isEmpty && decide (((List.range 32).filter (fun m => b.reg (Reg.mslotState m) == 0)).length ≤ ahead.length)

/-- MIGRATION_START (R224, R228). -/
def Block.migrationStart (b : Block) (k : Nat) : Block :=
  match (b.nextReady k).filter (fun r => !b.outranked r) with
  | none => b
  | some r =>
    let b' := { b with mig := { b.mig with ready := b.mig.ready.erase r } }
    let full := r.reason == .hot && (decide (b.hotSlots none ≥ b.reg Reg.migActiveMax) || decide (b.hotSlots (some k) ≥ 2))
    match b.freeSlot with
    | none => if r.reason = .hot then b' else b
    | some m =>
      if full then b'
      else match b'.pickFrame r with
        | none => if r.reason = .hot then b'.count Reg.migNoFrame 1 else b
        | some (f, b) => b.claim m r f

/-- MIGRATION_START. -/
def execMigrationStart (k t : Nat) (s : State) : Host.Outcome State Fault Refusal :=
  s.answer (wfScarab k) (s.blk.event t (fun b => b.unlessWiped (fun b => b.migrationStart k)))

/-! Abandonment (R233). -/

/-- A migration before SWITCH is abandoned (item 1): the fence is lifted; the rest of the undoing is the step ABANDON (Table 7.2). Of
causes at one edge R29 chooses the status. -/
def Block.abandon (b : Block) (m st : Nat) : Block :=
  let state := b.reg (Reg.mslotState m)
  match b.jobAt m with
  | none => b
  | some j =>
    if state = 10 ∧ j.endingAt = b.run then
      b.setJob m (some { j with ending := Status.first (st :: j.ending.toList) })
    else if state = 0 ∨ state ≥ 8 then b
    else
      let b := if j.fenced then b.liftFence j.ready.entry else b
      (b.setReg (Reg.mslotState m) 10).setJob m (some { j with todo := [], ending := some st, endingAt := b.run })

/-- A frame of a node wiped and returned to its pool for slot m; by RELEASE, whose acknowledgement is awaited, to another node that can
be reached (R228, R234, R237). -/
def Block.releaseFrame (b : Block) (m node f : Nat) : Block :=
  if node = b.node then b.returnFrame f
  else match b.jobAt m, b.routeTo node with
    | some j, some lk => (b.setJob m (some { j with msg := some m })).snpCommand snpRelease (320 + j.ready.scarab) m (lk / 8) 0 node 0 [f]
        (node * 2 ^ 52) 1
    | _, _ => b

/-- The parts of RELEASE and ABANDON, each begun once the one before is acknowledged (R228): `first`, the tracker disarmed; then the
frame released; then `last`. A part that awaits nothing is followed at once by the next. -/
def Block.undo (b : Block) (m : Nat) (frame : Nat × Nat) (first last : Block → Block) : Block :=
  let waits (b : Block) : Bool := match b.jobAt m with | some j => j.msg.isSome | none => false
  let at' (b : Block) (n : Nat) : Block := match b.jobAt m with | some j => b.setJob m (some { j with part := n }) | none => b
  let release (b : Block) : Block :=
    let b := at' (b.releaseFrame m frame.1 frame.2) 2
    if waits b then b else last b
  match b.jobAt m with
  | none => b
  | some j =>
    if j.part = 0 then
      let b := first b
      match b.jobAt m with
      | none => b
      | some j =>
        let b := at' (b.disarm m j) 1
        if waits b then b else release b
    else if j.part = 1 then release b
    else last b

/-- The step ABANDON (items 2 to 6): every answer awaited has come, so that no fence and no tracker of the migration comes after it. -/
def Block.endAbandon (b : Block) (m : Nat) (j : MigJob) : Block :=
  b.undo m (b.mslotDest m)
    (fun b =>
      let b := if j.fenced then b.liftFence j.ready.entry else b
      (b.condUpdate j.ready.scarab j.ready.entry j.value (withMig j.value false)).2.2)
    (fun b => b.recordAbandon m (j.ending.getD Status.abortedByHost) j)

/-- Whether a path that a migration uses is fenced: to S, to D or to E (Table 7.4). -/
def Block.migFenced (b : Block) (m : Nat) (j : MigJob) : Bool :=
  let cut (p : Nat × Nat) : Bool := p.1 == b.node && b.fenced (tapPath (p.2 / 2 ^ 14))
  cut (b.mslotSource m) || cut (b.mslotDest m) || b.fenced (tapPath (j.ready.entry / 2 ^ 30))

/-- Migrations whose path a die-level reset has fenced are abandoned with SEAM_FENCE (R233, R447). -/
def Block.abandonFenced (b : Block) : Block :=
  ((List.range 32).filter (fun m => match b.jobAt m with | some j => b.migFenced m j | none => false)).foldl
    (fun b m => b.abandon m Status.seamFence) b

/-- The status of each cause of Table 7.4. -/
def abandonStatus : AbandonCause → Nat
  | .status c => Status.received c
  | .entryChanged => Status.abortedByHost
  | .noFrame => Status.accessDenied
  | .cancelled => Status.abortedByHost
  | .timeout => Status.timeout
  | .retired => Status.retired
  | .fence => Status.seamFence

/-- MIGRATION_ABANDON. -/
def execMigrationAbandon (m : Nat) (cause : AbandonCause) (t : Nat) (s : State) : Host.Outcome State Fault Refusal :=
  s.answer (wfMig m) (s.blk.event t (fun b => b.unlessWiped (fun b => b.abandon m (abandonStatus cause))))

/-- Whether a migration has reached MIG_LIMIT_US since its CLAIM completed (R233). -/
def Block.migLimitDue (b : Block) (m : Nat) : Bool :=
  match b.jobAt m with
  | some j => decide (2 ≤ b.reg (Reg.mslotState m) ∧ b.reg (Reg.mslotState m) ≤ 7 ∧ b.run - j.since ≥ us j.limitUs)
  | none => false

/-- HMIG_CANCEL (R235, Table 7.6). -/
def Block.writeHmigCancel (b : Block) (m : Nat) : Nat × Block :=
  b.guarded [badValue Reg.hmigCancel m,
      (b.reg (Reg.mslotState m) == 0 || decide (b.reg (Reg.mslotState m) ≥ 8), Abort.condition)]
    (fun b => b.abandon m Status.abortedByHost)

/-- HMIG_CANCEL. -/
def execHmigCancel (m t : Nat) (s : State) : Host.Outcome State Fault Refusal :=
  s.answer true ((s.blk.at t).host (fun b => b.writeHmigCancel m))

/-! The steps (Table 7.2). -/

/-- The bits of a slot's tracker, where it lies on this node. -/
def Block.trackerBits (b : Block) (m : Nat) (j : MigJob) : Option Nat :=
  let (ns, fs) := b.mslotSource m
  if ns = b.node then
    match j.tracker with
    | some q => (b.mig.trackers.look (16 * (fs / 2 ^ 14) + q)).map (·.bits)
    | none => none
  else none

/-- A take of the tracker's bitmap, which asks for its count where the tracker is on another node. -/
def Block.takeBits (b : Block) (m : Nat) (asking : Bool) : Block :=
  match b.jobAt m with
  | none => b
  | some j =>
    let b := b.trackerSend m snpTrackerTake (j.tracker.getD 0) []
    match b.jobAt m with
    | some j => b.setJob m (some { j with asking })
    | none => b

/-- The step after COPY or a RECOPY round: another round while the count exceeds MIG_FINAL_CHUNKS, else FENCE. The count of a tracker
on another node is read by a take (Table 8.11), whose chunks the round, or FINAL, then copies (DEDUCED, log 183). -/
def Block.afterCopy (b : Block) (m : Nat) (j : MigJob) : Block :=
  let again := decide (b.reg (Reg.mslotRound m) < j.maxRounds)
  let fence (b : Block) : Block := (b.setReg (Reg.mslotState m) 5).fenceSend m snpMigFence
  let round (b : Block) : Block := (b.setReg (Reg.mslotState m) 4).count (Reg.mslotRound m) 1
  match b.trackerBits m j with
  | some w => if popCount 256 w > j.finalChunks && again then (round b).takeBits m false else fence b
  | none =>
    if !j.asking then b.takeBits m true
    else if !j.taken then b
    else if popCount 256 j.chunks > j.finalChunks && again then
      ((round b).setJob m (some { j with asking := false })).beginCopy m (chunkBlocks j.chunks)
    else fence (b.setJob m (some { j with asking := false, carry := j.carry ||| j.chunks }))

/-- A step of copying chunks is complete: the bitmap has come and every marked chunk is copied. -/
def Block.chunksDone (b : Block) (m : Nat) (j : MigJob) : Option Block :=
  if !j.taken then none
  else if b.copyLocal m then some (b.copyBlocks m (b.mslotSource m).2 (b.mslotDest m).2 (chunkBlocks j.chunks))
  else if j.todo.isEmpty && j.copies.isEmpty then some b
  else none

/-- SWITCH done (R228, R234), or the migration abandoned. -/
def Block.switchStep (b : Block) (m : Nat) (j : MigJob) : Block :=
  let (nd, fd) := b.mslotDest m
  let (st, ok, b) := b.condUpdate j.ready.scarab j.ready.entry j.value (withPlace j.value nd fd)
  if ok then ((b.count Reg.migDone 1).setReg (Reg.mslotState m) 8).fenceSend m snpMigLift
  else b.abandon m (if st = Status.ok then Status.abortedByHost else st)

/-- LAST_MIG set in the heat records of an entry that has been moved. -/
def Block.noteMoved (b : Block) (entry : Nat) : Block :=
  let note (e : Nat × Heat) : Nat × Heat :=
    if e.2.entry = entry ∧ !e.2.free then (e.1, { e.2 with last := b.cricket % 2 ^ 32 }) else e
  { b with mig := { b.mig with heat := b.mig.heat.map note } }

/-- RELEASE: the tracker is disarmed and S released; then LAST_MIG of the entry's heat records is set, and the slot is FREE with OK; a
drain's move counts for its bank until that has retired (R245). -/
def Block.releaseStep (b : Block) (m : Nat) (j : MigJob) : Block :=
  b.undo m (b.mslotSource m) id (fun b =>
    let b := b.noteMoved (b.node * 2 ^ 52 + j.ready.entry)
    let b := if j.ready.reason = MigReason.drain ∧ !b.bankRetired j.ready.bank then b.count (Reg.drainMoved j.ready.bank) 1 else b
    (b.freeMigSlot m Status.ok).endHostMove j.ready.reason Status.ok)

/-- Whether a bank of S or D on this node has retired: its accesses answer RETIRED (R164). -/
def Block.migRetired (b : Block) (m : Nat) : Bool :=
  let gone (p : Nat × Nat) : Bool := p.1 == b.node && b.bankRetired (bankOfFrame p.2)
  gone (b.mslotSource m) || gone (b.mslotDest m)

/-- MIGRATION_STEP_DONE (R228): the step in progress completes, where what it waits for has come, and the next begins. -/
def Block.stepDone (b : Block) (m : Nat) : Block :=
  match b.jobAt m with
  | none => b
  | some j =>
    let state := b.reg (Reg.mslotState m)
    if state ≤ 7 ∧ !j.failed.isEmpty then b.abandon m ((Status.first j.failed).getD Status.pathLost)
    else if state ≤ 7 && b.migFenced m j then b.abandon m Status.seamFence
    else if (state = 3 ∨ state = 4 ∨ state = 6) && b.copyLocal m && b.migRetired m then b.abandon m Status.retired
    else match state with
    | 1 =>
      let b := ((b.count Reg.migStarted 1).setReg (Reg.mslotStart m) b.ts).setReg (Reg.mslotState m) 2
      let b := b.setJob m (some { j with since := b.run, finalChunks := b.migParam 5, maxRounds := b.migParam 6, limitUs := b.migParam 7 })
      b.trackerSend m snpTrackerArm 0 [(b.mslotSource m).2]
    | 2 => if j.tracker.isSome then (b.setReg (Reg.mslotState m) 3).beginCopy m wholeFrame else b
    | 3 =>
      if b.copyLocal m then (b.copyBlocks m (b.mslotSource m).2 (b.mslotDest m).2 wholeFrame).afterCopy m j
      else if j.todo.isEmpty && j.copies.isEmpty then b.afterCopy m j else b
    | 4 => if j.asking then b.afterCopy m j else match b.chunksDone m j with
      | some b => b.afterCopy m j
      | none => b
    | 5 => if j.msg.isSome then b else (b.setReg (Reg.mslotState m) 6).takeBits m false
    | 6 => match b.chunksDone m j with
      | some b => b.setReg (Reg.mslotState m) 7
      | none => b
    | 7 => b.switchStep m j
    | 8 => if j.msg.isSome then b else b.setReg (Reg.mslotState m) 9
    | 9 => if j.msg.isSome then b else b.releaseStep m j
    | 10 => if j.msg.isSome || !j.copies.isEmpty then b else b.endAbandon m j
    | _ => b

/-- MIGRATION_STEP_DONE. -/
def execMigrationStepDone (m t : Nat) (s : State) : Host.Outcome State Fault Refusal :=
  s.answer (wfMig m) (s.blk.event t (fun b => b.unlessWiped (fun b => b.stepDone m)))

/-- Whether SWITCH of a migration completes at the edge of the limit (R233). -/
def State.switchWon (s : State) (m t : Nat) : Bool :=
  let u := (s.settle (fun d => match d with
    | .migrationStepDone m' t' => if m' = m then atEdge t t' (execMigrationStepDone m' t') else none
    | _ => none)).blk
  s.blk.reg (Reg.mslotState m) == 7 && u.reg (Reg.mslotState m) == 8

/-- MIGRATION_TIMEOUT. -/
def execMigrationTimeout (m t : Nat) (s : State) : Host.Outcome State Fault Refusal :=
  s.answer (wfMig m) (s.limit (s.switchWon m t) t (s.blk.eventIf t (fun b => b.migLimitDue m) (fun b => b.abandon m Status.timeout)))

/-! The host's migrations (R239). -/

/-- The frame a host command would take on this node: the one it names, or the lowest of the die. -/
def Block.hostFrame (b : Block) : Option Nat :=
  let f := b.reg Reg.hmigDestFrame
  let die := b.reg Reg.hmigDestDie
  if f = 0xFFFFFFFF then b.poolFrameOn die
  else if b.inPool f && f / 2 ^ 14 == die then some f else none

/-- A frame of another node asked for: FRAME_REQ names the die only (Table 8.11). -/
def Block.askFrame (b : Block) (r : MigReady) (stn : Nat) : Block :=
  b.snpCommand snpFrameReq (320 + r.scarab) 39 stn 0 r.node r.die [] (r.node * 2 ^ 52) 1

/-- HMIG_GO accepted. -/
def Block.hostMove (b : Block) : Block :=
  let a := b.reg Reg.hmigEntry
  let off := bitsOf a 51 0
  let node := b.reg Reg.hmigDestNode
  let denied (b : Block) : Block := b.setReg Reg.hmigStatus Status.accessDenied
  if a % 8 ≠ 0 ∨ bitsOf a 63 52 ≠ b.node ∨ off ≥ 2 ^ 31 then denied b
  else
    let (st, e, b) := b.tapRead (320 + (off / 8) % 32) off 8
    if st ≠ Status.ok then b.setReg Reg.hmigStatus st
    else if !mapV e || mapPin e || mapMig e then denied b
    else
      let k := (off / 8) % 32
      let named := if b.reg Reg.hmigDestFrame = 0xFFFFFFFF then none else some (b.reg Reg.hmigDestFrame)
      let r : MigReady := { scarab := k, reason := .host, entry := off, value := e, node := node, die := b.reg Reg.hmigDestDie,
                            frame := named }
      let same := named == some (mapFrame e) && mapFrame e / 2 ^ 14 == r.die
      if node = mapNode e ∧ same then b.setReg Reg.hmigStatus Status.ok
      else if node = b.node then
        match b.hostFrame with
        | none => denied b
        | some f =>
          let b := b.poolDrop f
          { b.setReg Reg.hmigStatus 128 with mig := { b.mig with ready := b.mig.ready ++ [{ r with frame := some f }] } }
      else match b.routeTo node with
        | none => b.setReg Reg.hmigStatus Status.pathLost
        | some lk =>
          if (named.map (fun f => f / 2 ^ 14 != r.die)).getD false then denied b
          else ({ b.setReg Reg.hmigStatus 128 with mig := { b.mig with hostWait := some r } }).askFrame r (lk / 8)

/-- HMIG_GO. -/
def Block.writeHmigGo (b : Block) (v : Nat) : Nat × Block :=
  b.guarded [badValue Reg.hmigGo v, (b.reg Reg.hmigStatus ≥ 128, Abort.busy)]
    (fun b => (b.setReg Reg.hmigSlot 0xFF).hostMove)

/-- HMIG_GO. -/
def execHmigGo (v t : Nat) (s : State) : Host.Outcome State Fault Refusal :=
  s.answer true ((s.blk.at t).unlessWiped (fun b => b.host (fun b => b.writeHmigGo v)))

/-! Drain scans (R240). -/

/-- The page maps of the kernels in the kernel table, each distinct base once: base, entry count and first kernel. -/
def Block.kernelMaps (b : Block) (k : Nat) : List (Nat × Nat × Nat) × Block :=
  (List.range 4096).foldl (fun (acc : List (Nat × Nat × Nat) × Block) n =>
    let (maps, b) := acc
    let a := b.reg Reg.ktableBase + 128 * n
    let (v, _, b) := b.voteLine (a / 64)
    let (v', _, b) := b.voteLine (a / 64 + 1)
    if !v && !v' then (maps, b)
    else
      let (st, kd, b) := b.tapRead (320 + k) a 128
      if st = Status.ok ∧ kValid kd ∧ !maps.any (fun m => m.1 == kMapBase kd) then
        (maps ++ [(kMapBase kd, kMapEntries kd, n)], b)
      else (maps, b)) ([], b)

/-- What a scan has found so far: entries, pinned ones, poisoned lines. -/
structure ScanTally where
  found : Nat := 0
  pinned : Nat := 0
  poisoned : Nat := 0

/-- An entry that names a frame of the bank (R240). -/
def Block.scanEntry (b : Block) (bank : Nat) (z : ScanTally) (off e kernel page : Nat) : ScanTally × Block :=
  let die := mapFrame e / 2 ^ 14
  let host := b.fmode fnMigration == 1
  let global := b.node * 2 ^ 52 + off
  let z := { z with found := z.found + 1 }
  let dst := match b.poolFrameOn die with
    | some _ => some die
    | none => if (b.poolFrameOn (1 - die)).isSome then some (1 - die) else none
  let propose (b : Block) (reason : Nat) : Block :=
    match dst with
    | some d => b.proposeMove global e b.node d reason 0 0 kernel page
    | none => b.proposeMove global e 0 0 reason 0 0 kernel page
  if mapPin e then
    ({ z with pinned := z.pinned + 1 }, if host then propose b 2 else b.logEvent 0x0303 2 bank global)
  else if mapMig e then (z, b)
  else if host then (z, propose b 1)
  else
    let r : MigReady := { scarab := bank % 32, reason := .drain, entry := off, value := e, node := b.node, die := die, bank := bank }
    let waiting := b.mig.ready.any (fun x => x.reason == MigReason.drain && x.entry == off)
    let b := if waiting then b else { b with mig := { b.mig with ready := b.mig.ready ++ [r] } }
    if dst.isNone ∧ !b.mig.poolEmpty.contains bank then
      (z, { b.logEvent 0x0304 2 bank 0 with mig := { b.mig with poolEmpty := bank :: b.mig.poolEmpty } })
    else (z, b)

/-- One map line: its entries up to the map's end, or a poisoned line skipped and counted. -/
def Block.scanLine (b : Block) (bank : Nat) (z : ScanTally) (base entries kernel line : Nat) : ScanTally × Block :=
  let n := min 8 (entries - 8 * line)
  let (valid, poisoned, b) := b.voteLine ((base + 64 * line) / 64)
  if !valid && !poisoned then (z, b)
  else
    let (st, v, b) := b.tapRead (320 + bank % 32) (base + 64 * line) (8 * n)
    if st ≠ Status.ok then ({ z with poisoned := z.poisoned + 1 }, b.count (Reg.drainPoisonSkips bank) 1)
    else (List.range n).foldl (fun (acc : ScanTally × Block) i =>
      let e := bitsOf v (64 * i + 63) (64 * i)
      if mapV e && mapNode e == acc.2.node && bankOfFrame (mapFrame e) == bank then
        acc.2.scanEntry bank acc.1 (base + 64 * line + 8 * i) e kernel (8 * line + i)
      else acc) (z, b)

/-- The scan for pages in a bank over the page maps of the kernels: what it counts, and whether the bank is clean (R240). -/
def scanMaps (bank : Nat) (found : List (Nat × Nat × Nat) × Block) : Block :=
  let (maps, b) := found
  let (z, b) := maps.foldl (fun (acc : ScanTally × Block) m =>
    (List.range ((m.2.1 + 7) / 8)).foldl (fun (acc : ScanTally × Block) line =>
      acc.2.scanLine bank acc.1 m.1 m.2.1 m.2.2 line) acc) ({}, b)
  let clean := b.mig.scanClean.filter (· != bank)
  let b := { b with mig := { b.mig with scanClean := if z.found = 0 ∧ z.poisoned = 0 then bank :: clean else clean } }
  ((b.count (Reg.drainScans bank) 1).setReg (Reg.drainFound bank) z.found).setReg (Reg.drainPinned bank) z.pinned

/-- DRAIN_SCAN (R240): the bank's mark of an empty pool goes, and every page map is scanned. -/
def Block.drainScan (b : Block) (bank : Nat) : Block :=
  scanMaps bank
    (({ b with mig := { b.mig with poolEmpty := b.mig.poolEmpty.filter (· != bank) } } : Block).kernelMaps (bank % 32))

/-- DRAIN_SCAN: while the bank is DRAINING. -/
def execDrainScan (bank t : Nat) (s : State) : Host.Outcome State Fault Refusal :=
  s.answer (wfBank bank) (s.blk.eventIf t (fun b => b.reg (Reg.bankState bank) == 2) (fun b => b.unlessWiped (fun b => b.drainScan bank)))

end Sys2Proof.Machine
end

