-- ==== Sys2Proof/Machine/Link.lean ====
section
/-! DEFINITION. The Caryar Link: containers, credits and replay, the egress records and proxies of the octets, width
changes, partner loss and routes (R312 to R349). A link sends a container as soon as credits and its replay share allow;
line time is not modelled. -/

namespace Sys2Proof.Machine

open Sys2Proof

/-- LINK_STATE (Table 10.5). -/
abbrev kDisabled : Nat := 0
abbrev kDown : Nat := 1
abbrev kInit : Nat := 2
abbrev kActive : Nat := 3
abbrev kIdle : Nat := 4
abbrev kRecovery : Nat := 5

/-- The state of a link. -/
def Block.linkState (b : Block) (lk : Nat) : Nat := b.reg (Reg.linkState lk)

/-- Whether a link holds state that a partner could be lost from (R322, R342). -/
def Block.holdsLink (b : Block) (lk : Nat) : Bool :=
  let st := b.linkState lk
  st == kActive || st == kIdle || st == kRecovery || (st == kInit && !(b.linkAt lk).fresh)

/-! Routes (R347 to R349). -/

/-- Since when each routed node is unreachable; a node that is reachable again, or has a route no longer, is not lost. -/
def Block.trackNodes (b : Block) : Block :=
  let routed (n : Nat) : Bool := (b.link.routes.look n).testBit 63
  let b := { b with link := { b.link with unreach := b.link.unreach.filter (fun e => routed e.1), lost := b.link.lost.filter routed } }
  b.link.routes.foldl (fun b e =>
    let n := e.1
    if !e.2.testBit 63 || !(b.usableChoices n).isEmpty then
      let back := if e.2.testBit 63 && b.link.unreach.look n != 0 then n :: b.commit.back.filter (· != n) else b.commit.back
      { b with link := { b.link with unreach := b.link.unreach.put n 0, lost := b.link.lost.filter (· != n) }
               commit := { b.commit with back := back } }
    else if b.link.unreach.look n = 0 then
      { b with link := { b.link with unreach := b.link.unreach.put n (b.run + 1) } }
    else b) b

/-- The usability of links or of choices has changed. -/
def Block.routesChanged (b : Block) : Block := b.refreshRoutes.trackNodes

/-! Swarm time (R351 to R353), in units of 1/256 of 10 ns. -/

/-- Swarm time with fraction: TS and its 8-bit fraction, plus the offset. -/
def Block.swarmAt (b : Block) (frac : Nat) : Nat :=
  unsignedOf 72 ((b.ts * 256 + frac % 256 : Nat) + signedOf 64 (b.reg Reg.swarmOffset))

/-- The part of a correction that has been slewed by now: at most 50 ppm of the time since (R352). -/
def Block.slewTime (b : Block) : Block :=
  let x := b.link.time
  let room : Int := ((b.run - x.slewedAt) * 256 * 50 / (refclk * 1000000) : Nat)
  let d : Int := if x.slew < 0 then max x.slew (-room) else min x.slew room
  if d = 0 then b
  else
    { b.setReg Reg.swarmOffset (unsignedOf 64 (signedOf 64 (b.reg Reg.swarmOffset) + d)) with
        link := { b.link with time := { x with slew := x.slew - d, slewedAt := b.run } } }

/-- The time parent's link enters a state (R353): holdover while it is not ACTIVE, with the offset held; the offset is
acquired again once it is. -/
def Block.parentMoved (b : Block) (lk st : Nat) : Block :=
  if b.reg Reg.timeParent ≠ lk then b
  else
    let b := b.slewTime
    { b.setReg Reg.timeState (if st = kActive then 1 else 3) with
      link := { b.link with time := { b.link.time with sent := none, acquired := false, slew := 0 } } }

/-- A link enters a state. -/
def Block.enterLink (b : Block) (lk st : Nat) : Block :=
  (((b.setReg (Reg.linkState lk) st).modLink lk (fun x => { x with since := b.run })).parentMoved lk st).routesChanged

/-- A PATH_LOST over a link for a node holds the link off for that node (R348). -/
def Block.holdOff (b : Block) (node lk : Nat) : Block :=
  let until' := b.run + us (b.reg Reg.routeHoldoffUs)
  ({ b with link := { b.link with holdoff := b.link.holdoff.put (512 * node + lk) until' } }.count Reg.holdoffs 1).routesChanged

/-! The link stream (R313, R314): its blocks go to the lanes of the active set in turn, a row of them in each block slot. -/

/-- The lanes that carry the link stream: those of the active set, and before there is one those that are UP. -/
def Block.streamLanes (b : Block) (lk : Nat) : List Nat :=
  let set := b.reg (Reg.activeSet lk)
  if set = 0 then b.upLanes lk else (b.lanesOf lk).filter (fun l => set.testBit (l - lk))

/-- What the transmitter of a link keeps changed. -/
def Block.modTx (b : Block) (lk : Nat) (f : LinkTx → LinkTx) : Block := b.modLink lk (fun x => { x with tx := f x.tx })

/-- The blocks of a row sent in a slot; lanes that it leaves out send IDLE. -/
def Block.sendRow (b : Block) (lk : Nat) : Block :=
  let row := (b.linkAt lk).tx.row
  if row.isEmpty then b
  else
    let given := (b.streamLanes lk).zip row
    (b.modTx lk (fun x => { x with row := [] })).transmit lk (fun t => t.begun.step (fun l => given.lookup l))

/-- A block put on the link stream. -/
def Block.pushBlock (b : Block) (lk blk : Nat) : Block :=
  if (b.streamLanes lk).isEmpty then b
  else
    let b := b.modTx lk (fun x => { x with row := x.row ++ [blk], owed := true })
    if (b.linkAt lk).tx.row.length ≥ (b.streamLanes lk).length then b.sendRow lk else b

/-- A block sent on every lane of the link stream in one slot (R320). -/
def Block.pushAll (b : Block) (lk blk : Nat) : Block :=
  let ls := b.streamLanes lk
  ((b.sendRow lk).transmit lk (fun t => t.begun.step (fun l => if ls.contains l then some blk else none))).modTx lk
    (fun x => { x with owed := true })

/-- A container put on the container stream: the data blocks it completes go on the link stream (R314). -/
def Block.pushContainer (b : Block) (lk c : Nat) : Block :=
  let x := (b.linkAt lk).tx
  let v := x.stream * 2 ^ 576 + c
  let n := x.streamBits + 576
  let b := b.modTx lk (fun x => { x with stream := v % 2 ^ (n % 128), streamBits := n % 128 })
  (List.range (n / 128)).foldl (fun b i => b.pushBlock lk (dataBlock (bitsOf v (n - 1 - 128 * i) (n - 128 * (i + 1))))) b

/-- The container stream of a link starts again (R314). -/
def Block.startStream (b : Block) (lk : Nat) : Block :=
  b.modLink lk (fun x => { x with half := false, tx := { x.tx with row := [], stream := 0, streamBits := 0 } })

/-- What has been given out leaves the pins: the rest of its slot and of its codewords is filled (R289). -/
def Block.flushLine (b : Block) (lk : Nat) : Block :=
  if (b.linkAt lk).tx.owed then
    ((b.sendRow lk).transmit lk Tx.fillWords).modTx lk (fun x => { x with owed := false })
  else b

/-! Control blocks (R320). -/

/-- A control block sent on a link: its type and its bits [119:16]. One that stands for the whole link goes on every lane of the link
stream in the same slot. -/
def Block.sendControl (b : Block) (lk ty body : Nat) : Block :=
  let blk := withCrc16 (ty * 2 ^ 120 + body * 2 ^ 16)
  let b := b.emit .control lk [blk]
  if 0x62 ≤ ty ∧ ty ≤ 0x65 then b.pushAll lk (controlBlock blk) else b.pushBlock lk (controlBlock blk)

/-- log2 of a configured width. -/
def widthLog2 (w : Nat) : Nat := if w = 8 then 3 else if w = 4 then 2 else if w = 2 then 1 else 0

/-- The INIT block of a link (Table 10.4). -/
def Block.sendInit (b : Block) (lk : Nat) : Block :=
  let x := b.linkAt lk
  b.sendControl lk 0x62
    (b2n x.fresh * 2 ^ 103 + b.node * 2 ^ 89 + lk / 8 * 2 ^ 83 + lk % 8 * 2 ^ 80 + widthLog2 (b.linkWidth lk) * 2 ^ 78 +
      x.expect * 2 ^ 66 + b.reg (Reg.credQ lk) * 2 ^ 52 + b.reg (Reg.credW lk) * 2 ^ 38 + b.reg (Reg.credK lk) * 2 ^ 24 +
      b.rxUp lk * 2 ^ 16)

/-- A KEEPALIVE (R341). -/
def Block.sendKeepalive (b : Block) (lk : Nat) : Block :=
  (b.sendControl lk 0x33 (b.node * 2 ^ 92 + lk / 8 * 2 ^ 86 + lk % 8 * 2 ^ 83)).modLink lk (fun x => { x with lastTx := b.run })

/-- A LANES block with a transmit set (R338). -/
def Block.sendLanes (b : Block) (lk set : Nat) : Block :=
  (b.sendControl lk 0x63 (b.rxUp lk * 2 ^ 96 + set * 2 ^ 88)).modLink lk (fun x => { x with lanesAt := b.run })

/-- An ACK of everything accepted so far (R327). -/
def Block.sendAck (b : Block) (lk : Nat) : Block :=
  (b.sendControl lk 0x60 (((b.linkAt lk).expect + 4095) % 4096 * 2 ^ 92)).modLink lk (fun x => { x with accepted := 0 })

/-- A NAK (R325). -/
def Block.sendNak (b : Block) (lk : Nat) : Block :=
  ((b.sendControl lk 0x61 ((b.linkAt lk).expect * 2 ^ 92)).count (Reg.naksSent lk) 1).modLink lk
    (fun x => { x with nakAt := b.run })

/-! Containers sent (R324, R327, R329). -/

/-- A link's share of its octet's replay buffer. -/
def Block.replayShare (b : Block) (lk : Nat) : Nat := 256 * b.linkWidth lk

/-- The credit return that the next container carries. -/
def LinkRun.nextReturn (x : LinkRun) : Nat × Nat × LinkRun :=
  if 0 < x.oweQ then (0, min x.oweQ 4095, { x with oweQ := x.oweQ - min x.oweQ 4095 })
  else if 0 < x.oweW then (1, min x.oweW 4095, { x with oweW := x.oweW - min x.oweW 4095 })
  else if 0 < x.oweK then (3, min x.oweK 4095, { x with oweK := x.oweK - min x.oweK 4095 })
  else (2, 0, x)

/-- A container sent for the first time. -/
def Block.sendContainer (b : Block) (lk vt payload : Nat) : Block :=
  let (cvn, n, x) := (b.linkAt lk).nextReturn
  let c := vt * 2 ^ 570 + x.seq * 2 ^ 558 + cvn * 2 ^ 556 + n * 2 ^ 544 + payload
  let c := c + containerCrc c * 2 ^ 512
  let x := { x with
    seq := (x.seq + 1) % 4096
    replay := x.replay ++ [(x.seq, c)]
    half := !x.half
    lastTx := b.run
    progressAt := if x.replay.isEmpty then b.run else x.progressAt
    quietSince := if vt = vtNull then x.quietSince else b.run
    idleAsked := x.idleAsked && vt == vtNull }
  (((b.setLink lk x).count (Reg.txContainers lk) 1).emit .container lk [c]).pushContainer lk c

/-- Containers of the replay buffer sent again, from a sequence number on or from the oldest (R327). -/
def Block.resend (b : Block) (lk : Nat) (from' : Option Nat) : Block :=
  let x := b.linkAt lk
  let cs : List (Nat × Nat) := match from' with
    | some s => x.replay.dropWhile (fun (e : Nat × Nat) => e.1 != s)
    | none => x.replay
  if cs.isEmpty then b
  else
    let b := b.setLink lk { x with half := xor x.half (cs.length % 2 == 1), lastTx := b.run, progressAt := b.run,
                                   replays := x.replays + 1 }
    let b := (b.count (Reg.replays lk) 1).count (Reg.txContainers lk) cs.length
    cs.foldl (fun b e => (b.emit .container lk [e.2]).pushContainer lk e.2) b

/-- Credits held for a class: 0 Q, 1 W, 3 K; the reserved classes need none. -/
def LinkRun.mayspend (x : LinkRun) (cls : Nat) : Bool :=
  if cls = 0 then decide (0 < x.creditQ) else if cls = 1 then decide (0 < x.creditW)
  else if cls = 3 then decide (0 < x.creditK) else true

/-- A credit of a class spent. -/
def LinkRun.spend (x : LinkRun) (cls : Nat) : LinkRun :=
  if cls = 0 then { x with creditQ := x.creditQ - 1 } else if cls = 1 then { x with creditW := x.creditW - 1 }
  else if cls = 3 then { x with creditK := x.creditK - 1 } else x

/-- Credits of a class owed to the partner. -/
def LinkRun.owe (x : LinkRun) (cls n : Nat) : LinkRun :=
  if cls = 0 then { x with oweQ := x.oweQ + n } else if cls = 1 then { x with oweW := x.oweW + n }
  else if cls = 3 then { x with oweK := x.oweK + n } else x

/-- Containers have left the receive buffer. -/
def Block.returnCredit (b : Block) (lk cls n : Nat) : Block := b.modLink lk (fun x => x.owe cls n)

/-- The queue walked in order: what may go goes, and a class that must wait waits whole. A W packet whose REQ still waits
waits too (R319), and from the start of a flush to FLUSH_ACK only the ABORT_W of a begun packet goes (R335). -/
def Block.pumpItems (lk : Nat) : List TxItem → List Nat → List TxItem → Block → List TxItem × Block
  | [], _, kept, b => (kept, b)
  | it :: rest, blocked, kept, b =>
    let x := b.linkAt lk
    let go := decide (x.replay.length < b.replayShare lk) && !blocked.contains it.cls && x.mayspend it.cls &&
      !((b.reg (Reg.flush lk)).testBit it.cls && it.vt != vtAbortW) && !(it.cls == 1 && kept.any (fun k => k.cls == 0 && k.src == it.src && k.tag == it.tag))
    if go then
      let x := match it.answer with
        | some a => { x with answers := x.answers ++ [(x.seq, a)] }
        | none => x
      pumpItems lk rest blocked kept ((b.setLink lk (x.spend it.cls)).sendContainer lk it.vt it.payload)
    else pumpItems lk rest (it.cls :: blocked) (kept ++ [it]) b

/-- FLUSH sent for each virtual network being flushed once its begun packets are finished (R335). -/
def Block.pumpFlush (b : Block) (lk : Nat) : Block :=
  [0, 1, 3].foldl (fun b vn =>
    let x := b.linkAt lk
    if (b.reg (Reg.flush lk)).testBit vn && !x.flushSent.testBit vn && !x.queue.any (fun i => i.cls == vn && i.vt == vtAbortW) then
      (b.sendControl lk 0x64 (vn * 2 ^ 102)).setLink lk { x with flushSent := putBit x.flushSent vn true }
    else b) b

/-- NULL containers for the credits owed and for a data block begun (R314, R329), at most `n`. -/
def Block.pumpNulls (b : Block) (lk : Nat) : Nat → Block
  | 0 => b
  | n + 1 =>
    let x := b.linkAt lk
    if (0 < x.oweQ + x.oweW + x.oweK ∨ x.half) ∧ x.replay.length < b.replayShare lk then
      (b.sendContainer lk vtNull 0).pumpNulls lk n
    else b

/-- A link leaves electrical idle, at least 200 ns after it went idle (R301): a training burst on every lane, and a new superframe
(R302). -/
def Block.leaveIdle (b : Block) (lk : Nat) : Block :=
  if b.linkState lk = kIdle ∧ (b.linkAt lk).leaving = 0 ∧ (b.linkAt lk).since + ns 200 ≤ b.run then
    let b := (b.enabledLanes lk).foldl (fun b l => (b.emit .lane l [2, burstBits (b.reg (Reg.rate l))]).stopStream l) b
    (b.modLink lk (fun x => { x with leaving := b.run + 1 })).transmit lk (fun t => t.begun.fillWords)
  else b

/-- Everything a link may send, sent. -/
def Block.pumpLink (b : Block) (lk : Nat) : Block :=
  let x := b.linkAt lk
  if b.linkState lk = kActive then
    let (kept, b) := Block.pumpItems lk x.queue [] [] b
    (((b.modLink lk (fun x => { x with queue := kept })).pumpFlush lk).pumpNulls lk 16).flushLine lk
  else if x.queue.isEmpty then b.flushLine lk
  else (b.leaveIdle lk).flushLine lk

/-- Containers queued for a link. -/
def Block.queueItems (b : Block) (lk : Nat) (items : List TxItem) : Block :=
  b.modLink lk (fun x => { x with queue := x.queue ++ items })

/-- The containers of a W packet (R318). -/
def wItems (sb : Nat) (beats : List Beat) (src tag : Nat) : List TxItem :=
  let full := beats.all (fun x => x.mask.toNat == fullMask)
  let stream := dKind sb == 2
  let first := beatSideband sb true (beats.length == 1) (beats.headD (mkBeat 0 false 0))
  let head := putBits first 127 64 (if stream then sb / 2 ^ 64 else if full then fullMask else 0)
  let item (vt payload : Nat) : TxItem := ⟨1, vt, payload, src, tag, none⟩
  let masks (g : List Beat) : Nat := (g.zip (List.range 8)).foldl (fun a e => a + e.1.mask.toNat * 2 ^ (64 * e.2)) 0
  let dat (x : Beat) : TxItem := item (if x.poison then vtDataWP else vtDataW) x.data.toNat
  item vtHeadW head ::
    (rowsOf 8 (beats.length + 1) beats).flatMap (fun g =>
      (if full || stream then [] else [item vtMask (masks g)]) ++ g.map dat)

/-- The containers of an RDATA packet (R318), the last of which ends the response of a proxy entry. -/
def dItems (sb : Nat) (beats : List Beat) (status src tag : Nat) (answer : Owed) : List TxItem :=
  let item (vt payload : Nat) : TxItem := ⟨4, vt, payload, src, tag, none⟩
  let head := putBits (beatSideband sb true (beats.length == 1) (beats.headD (mkBeat 0 false 0))) 25 22 0
  item vtHeadD head :: beats.map (fun x => item (if x.poison then vtDataDP else vtDataD) x.data.toNat) ++
    [{ item vtTailD status with answer := some answer }]

/-! Egress records (R330, R331, R334). -/

/-- Slots of RESV_D, flits of RESV_C and slots of RESV_A that a record reserves (R330). -/
def Egress.reserves (e : Egress) : Nat × Nat × Nat :=
  if e.op = 0 then (e.asked + 2, 1, 0)
  else if e.op = opSnp ∧ [snpTrackerArm, snpTrackerTake, snpFrameReq].contains e.snp then (0, 0, 1)
  else (0, 1, 0)

/-- The reservation of a link for a class would exceed its whole allocation; or would do so with what is open. -/
def Block.reserveFits (b : Block) (lk : Nat) (all : Bool) (e : Egress) : Bool :=
  let es := if all then e :: b.link.egress.filter (fun x => x.lk == lk) else [e]
  let total (f : Nat × Nat × Nat → Nat) : Nat := sumOf (es.map (fun x => f x.reserves))
  decide (total (·.1) ≤ b.reg (Reg.resvD lk) ∧ total (·.2.1) ≤ 8 * b.reg (Reg.resvC lk) ∧ total (·.2.2) ≤ b.reg (Reg.resvA lk))

/-- The credited classes that a request uses are served by the partner (R331). -/
def Block.classServed (b : Block) (lk op : Nat) : Bool :=
  let x := b.linkAt lk
  let q := decide (0 < x.allocQ)
  let w := decide (0 < x.allocW)
  if op = 0 then q else if op = 1 ∨ op = 2 then q && w else if op = 3 then w else decide (0 < x.allocK)

/-- Records open at an octet. -/
def Block.egressOpen (b : Block) (o : Nat) : Nat := (b.link.egress.filter (fun e => e.lk / 8 == o)).length

/-- The link by which an octet sends to a node: its current choice, or the lowest choice of the octet that holds state. -/
def Block.octetLink (b : Block) (o n : Nat) : Option Nat :=
  let e := b.link.routes.look n
  let holds (lk : Nat) : Bool := b.startsLink lk && b.holdsLink lk && lk / 8 == o
  match b.routeTo n with
  | some lk => if lk / 8 = o then some lk else none
  | none => if e.testBit 63 then ((List.range 4).filterMap (routeChoice e)).find? holds else none

/-- A request ended by the octet that would have sent it: completed to its SRC. -/
def Block.octetAnswer (b : Block) (o : Nat) (e : Egress) (status beats : Nat) : Block :=
  let b := if status = Status.pathLost then b.count Reg.pathLostCompletions 1 else b
  if e.op = opSnp then
    let (stn, port) := b.iniPlace e.src
    if e.snp = snpTrackerArm ∨ e.snp = snpTrackerTake ∨ e.snp = snpFrameReq then
      let op := if e.snp = snpTrackerArm then snpTrackerArmed else if e.snp = snpTrackerTake then snpTrackerBits else snpFrameGrant
      let payload := if e.snp = snpTrackerTake then [0, 0, 0, 0] else if e.snp = snpFrameReq then [0] else []
      b.sendSnpFrom o 0 (snpHeader op payload.length e.src stn port e.tag e.node status 0) payload
    else b.sendRsp o 0 (rspFlit 2 status e.src 0 0 o 0 (e.tag * 2 ^ 11))
  else b.complete (if e.op = 0 then 1 else 0) o 0 e.src e.tag status beats 0

/-- A request sent over a link, or completed by the octet, or held back (R330, R331, R334): `items` are its containers. -/
def Block.egressSend (b : Block) (e : Egress) (items : List TxItem) : Option Block :=
  let o := e.lk / 8
  if !b.classServed e.lk e.op || !b.reserveFits e.lk false e then some (b.octetAnswer o e Status.accessDenied 0)
  else if b.egressOpen o ≥ 1024 || !b.reserveFits e.lk true e then none
  else
    let b := { b with link := { b.link with egress := b.link.egress ++ [{ e with since := b.run, limit := b.reg Reg.ledgerLimitUs, openTime := b.ts }] } }
    some ((b.queueItems e.lk items).pumpLink e.lk)

/-- Whether one held back at an octet's port, for one of the nodes, goes over a link: what comes later for that link waits behind it. -/
def Block.heldFor (b : Block) (o lk : Nat) (nodes : List Nat) : Bool := nodes.any (fun n => b.octetLink o n == some lk)

/-- The nodes of the REQ flits, of the STREAM packets and of the SNP commands held back at an octet's port. -/
def Block.heldReqs (b : Block) (o : Nat) : List Nat := (b.link.heldBack.filter (fun h => h.1 == o)).map (fun h => qNode h.2)
def Block.heldStreams (b : Block) (o : Nat) : List Nat := (b.link.rxStreams.filter (fun h => h.1 == 512 + o)).map (fun h => dNode h.2.1)
def Block.heldSnps (b : Block) (o : Nat) : List Nat := (b.link.heldSnp.filter (fun h => h.1 == o)).map (fun h => sNode h.2.1)

/-- A REQ flit that has reached an octet for another node. -/
def Block.octetReq (b : Block) (o f : Nat) : Block :=
  let n := qNode f
  let e : Egress := { lk := 0, src := qSrc f, tag := qTag f, op := qOp f, node := n, asked := if qSize f = 0 then qLen f + 1 else 1,
                      addr := qAddr f }
  match b.octetLink o n with
  | none => b.octetAnswer o e Status.pathLost 0
  | some lk =>
    match if b.heldFor o lk (b.heldReqs o) then none else b.egressSend { e with lk := lk } [⟨0, vtReq, f, qSrc f, qTag f, none⟩] with
    | some b => b
    | none => { b with link := { b.link with heldBack := b.link.heldBack ++ [(o, f)] } }

/-- A STREAM packet that has reached an octet for another node. -/
def Block.octetStream (b : Block) (o sb : Nat) (beats : List Beat) : Block :=
  let e : Egress := { lk := 0, src := dSrc sb, tag := dTag sb, op := 3, node := dNode sb, asked := beats.length }
  match b.octetLink o (dNode sb) with
  | none => b.octetAnswer o e Status.pathLost 0
  | some lk =>
    match if b.heldFor o lk (b.heldStreams o) then none else b.egressSend { e with lk := lk } (wItems sb beats (dSrc sb) (dTag sb)) with
    | some b => b
    | none => { b with link := { b.link with rxStreams := b.link.rxStreams ++ [(512 + o, sb, beats)] } }

/-- The data of a WRITE or CAS that has reached an octet: it follows its REQ on the same link, or is discarded with it. -/
def Block.octetData (b : Block) (o sb : Nat) (beats : List Beat) : Block :=
  match b.link.egress.find? (fun e => e.lk / 8 == o && e.src == dSrc sb && e.tag == dTag sb && (e.op == 1 || e.op == 2)) with
  | some e => (b.queueItems e.lk (wItems sb beats e.src e.tag)).pumpLink e.lk
  | none =>
    if b.link.heldBack.any (fun h => h.1 == o && qSrc h.2 == dSrc sb && qTag h.2 == dTag sb) then
      { b with net := { b.net with early := b.net.early ++ [(sb, beats)] } }
    else b

/-- An SNP command that has reached an octet for another node. -/
def Block.octetSnp (b : Block) (o h : Nat) (payload : List Nat) : Block :=
  let e : Egress := { lk := 0, src := sSrc h, tag := sMsg h, op := opSnp, node := sNode h, snp := sOp h }
  match b.octetLink o (sNode h) with
  | none => b.octetAnswer o e Status.pathLost 0
  | some lk =>
    let body := h + (payload.zip (List.range 7)).foldl (fun a x => a + x.1 * 2 ^ (64 * (x.2 + 1))) 0
    match if b.heldFor o lk (b.heldSnps o) then none else b.egressSend { e with lk := lk } [⟨3, vtSnpK, body, sSrc h, sMsg h, none⟩] with
    | some b => b
    | none => { b with link := { b.link with heldSnp := b.link.heldSnp ++ [(o, h, payload)] } }

/-- What waits at an octet's port for a record is tried again, in order. -/
def Block.retryOctet (b : Block) (o : Nat) : Block :=
  let fs := b.link.heldBack.filter (fun h => h.1 == o)
  let ss := b.link.heldSnp.filter (fun h => h.1 == o)
  let ts := b.link.rxStreams.filter (fun h => h.1 == 512 + o)
  let b := { b with link := { b.link with
    heldBack := b.link.heldBack.filter (fun h => h.1 != o)
    heldSnp := b.link.heldSnp.filter (fun h => h.1 != o)
    rxStreams := b.link.rxStreams.filter (fun h => h.1 != 512 + o) } }
  let b := fs.foldl (fun b h =>
    let b := b.octetReq o h.2
    match b.net.early.find? (fun e => dSrc e.1 == qSrc h.2 && dTag e.1 == qTag h.2 && dStn e.1 == o) with
    | some e => { b with net := { b.net with early := b.net.early.erase e } }.octetData o e.1 e.2
    | none => b) b
  let b := ss.foldl (fun b h => b.octetSnp o h.2.1 h.2.2) b
  ts.foldl (fun b h => b.octetStream o h.2.1 h.2.2) b

/-- A record closed. -/
def Block.closeEgress (b : Block) (e : Egress) : Block :=
  { b with link := { b.link with egress := b.link.egress.erase e } }

/-! Proxies (R333). -/

/-- The lowest free proxy tag of an octet, or MSG_ID for SNP. -/
def Block.freeProxy (b : Block) (o : Nat) (snp : Bool) : Option Nat :=
  let used := (b.link.proxies.filter (fun p => p.octet == o && (p.op == opSnp) == snp)).map (·.ptag)
  (List.range (if snp then 256 else 1024)).find? (fun q => !used.contains q)

/-- A response owed over a link: an RSP flit in class C, with the proxy entry that it ends. -/
def Block.respond (b : Block) (lk f : Nat) (answer : Option Owed) : Block :=
  (b.queueItems lk [⟨2, vtRsp, f, rDst f, rTag f, answer⟩]).pumpLink lk

/-- A response that cannot be delivered, reported to initiator 368 (R343). -/
def Block.undeliverable (b : Block) (lk : Nat) (a : Owed) : Block :=
  let o := lk / 8
  let b := { b with link := { b.link with undelivered := b.link.undelivered ++ [Undelivered.mk (256 + o) a.ptag lk a.node a.src a.tag] } }
  (b.count (Reg.undelivered o) 1).ledgerReport (256 + o) a.ptag a.status a.beats

/-- What a proxy entry owes its requester. -/
def Proxy.owed (p : Proxy) (status beats : Nat) : Owed := ⟨p.ptag, p.node, p.src, p.tag, status, beats⟩

/-- A proxy entry's final response: sent back by its link, or, once the partner is lost, reported to initiator 368
(R333, R343). A packet partly forwarded at a flush completes with FLUSHED (R337). -/
def Block.proxyEnd (b : Block) (p : Proxy) (status beats arg : Nat) : Block :=
  let b := { b with link := { b.link with proxies := b.link.proxies.erase p } }
  let (status, beats) := match p.flushed with
    | some n => (Status.flushed, min n beats)
    | none => (status, beats)
  let a := p.owed status beats
  if p.lost then b.undeliverable p.lk a
  else if p.op = opSnp then b.respond p.lk (rspFlit 2 status p.src 0 0 p.octet 0 (p.tag * 2 ^ 11)) (some a)
  else b.respond p.lk (rspFlit (if p.op = 0 then 1 else 0) status p.src p.tag beats p.octet 0 arg) (some a)

/-- A REQ flit taken by the proxy of a link's octet; none where no proxy tag is free. A new WRITE takes the place of one of
the same SRC and TAG whose data never came. -/
def Block.proxyReq (b : Block) (lk f : Nat) : Option Block :=
  let o := lk / 8
  (b.freeProxy o false).map (fun q =>
    let stale (p : Proxy) : Bool := p.lk == lk && p.op == 1 && p.waiting && p.src == qSrc f && p.tag == qTag f
    let b := { b with link := { b.link with proxies := b.link.proxies.filter (fun p => !stale p) } }
    let n := qBytes f
    let (st, stn, port) := b.destOf (256 + o) (qNode f) (qAddr f) n (qOp f != 0)
    let b := if reservedOffset (qAddr f) n then b.count Reg.reservedAccesses 1 else b
    let b := if st = Status.pathLost then b.count Reg.pathLostCompletions 1 else b
    let f' := reqFlit (qOp f) (qSize f) (qLen f) (256 + o) q stn port (qNode f) (qAddr f) + bitsOf f 35 0
    let p : Proxy := { octet := o, lk, ptag := q, op := qOp f, src := qSrc f, tag := qTag f, flit := some f',
                       waiting := qOp f == 1, node := b.reg (Reg.linkPartnerNode lk) }
    let b := { b with link := { b.link with proxies := b.link.proxies ++ [p] } }
    if st ≠ Status.ok then (if qOp f = 0 then b.proxyEnd p st 0 0 else
      { b with link := { b.link with proxies := b.link.proxies.map (fun x => if x == p then { p with refusal := some st } else x) } })
    else if qOp f = 1 then b else b.sendReq f')

/-- REQ containers and STREAM packets that wait for a proxy tag. -/
def Block.proxyFlits (b : Block) (lk : Nat) : List Nat → List Nat × Block
  | [] => ([], b)
  | f :: fs =>
    match b.proxyReq lk f with
    | some b => b.proxyFlits lk fs
    | none => (f :: fs, b)

/-- A REQ container in the receive buffer of a link: its flits are proxied in order, and it leaves once all are. -/
def Block.takeReq (b : Block) (lk : Nat) (flits : List Nat) : Block :=
  match b.proxyFlits lk flits with
  | ([], b) => b.returnCredit lk 0 1
  | (rest, b) => { b with link := { b.link with rxHeld := b.link.rxHeld ++ [(lk, rest)] } }

/-! W packets received (R332, R333). -/

/-- Where a STREAM packet goes from an octet (Table 8.12). -/
def Block.streamPlace (b : Block) (node : Nat) : Option (Nat × Nat) :=
  if node = b.node then some (64, 3) else (b.routeTo node).map (fun l => (l / 8, 0))

/-- The forwarding of a STREAM packet begins: it takes a proxy entry; none where no proxy tag is free (R333). -/
def Block.openStream (b : Block) (lk : Nat) (p : RxPacket) : Option (RxPacket × Block) :=
  (b.freeProxy (lk / 8) false).map (fun q =>
    let x : Proxy := { octet := lk / 8, lk, ptag := q, op := 3, src := dSrc p.head, tag := dTag p.head, waiting := true,
                       node := b.reg (Reg.linkPartnerNode lk) }
    let b := { b with link := { b.link with proxies := b.link.proxies ++ [x] } }
    match b.streamPlace (dNode p.head) with
    | none => ({ p with begun := true }, (b.count Reg.pathLostCompletions 1).proxyEnd x Status.pathLost 0 0)
    | some (stn, port) => ({ p with begun := true, dest := some (stn, port, q) }, b))

/-- Whether the REQ of a W packet still waits in the receive buffer for a proxy tag. -/
def Block.reqHeld (b : Block) (lk : Nat) (p : RxPacket) : Bool :=
  b.link.rxHeld.any (fun h => h.1 == lk && h.2.any (fun f => qSrc f == dSrc p.head && qTag f == dTag p.head))

/-- The proxy entry of a WRITE's or CAS's data. -/
def Block.writeProxy (b : Block) (lk : Nat) (p : RxPacket) : Option Proxy :=
  b.link.proxies.find? (fun x => x.lk == lk && x.src == dSrc p.head && x.tag == dTag p.head && (x.op == 1 || x.op == 2) && !x.lost)

/-- The forwarding of a W packet begins (R332): a STREAM packet takes its proxy entry, and a WRITE's REQ leaves (R333). None where it has
to wait for a proxy tag. The data of a request that has completed already is swallowed. -/
def Block.beginForward (b : Block) (lk : Nat) (p : RxPacket) : Option (RxPacket × Block) :=
  if dKind p.head = 2 then b.openStream lk p
  else match b.writeProxy lk p with
    | none => if b.reqHeld lk p then none else some ({ p with begun := true }, b)
    | some x =>
      if x.refusal.isSome then some ({ p with begun := true }, b)
      else
        let f := x.flit.getD 0
        let b := { b with link := { b.link with proxies := b.link.proxies.map (fun y => if y == x then { x with waiting := false } else y) } }
        some ({ p with begun := true, dest := some (qStn f, qPort f, x.ptag) }, if x.waiting then b.sendReq f else b)

/-- The beats of a W packet that have come and are not forwarded yet leave for its destination. -/
def Block.forwardBeats (b : Block) (lk : Nat) (p : RxPacket) : RxPacket × Block :=
  let total := dLen p.head + 1
  let fresh := (p.beats.take total).drop p.sent
  let p' := { p with sent := p.sent + fresh.length }
  match p.dest with
  | none => (p', b)
  | some (stn, port, q) =>
    if fresh.isEmpty then (p', b)
    else
      let stream := dKind p.head == 2
      let top := if stream then streamTop (dNode p.head) (dRun p.head) (dCh p.head) else 0
      (p', b.sendBeats (lk / 8) 0 (datSideband top stn port (256 + lk / 8) q total (if stream then 2 else 0) 0) total p.sent fresh)

/-- A W packet whose last beat has been forwarded: its entry waits for the completion, or is refused. -/
def Block.finishW (b : Block) (lk : Nat) (p : RxPacket) : Block :=
  let x? : Option Proxy := match p.dest with
    | some (_, _, q) => b.link.proxies.find? (fun x => x.octet == lk / 8 && x.op != opSnp && x.ptag == q)
    | none => if dKind p.head = 2 then none else b.writeProxy lk p
  match x? with
  | none => b
  | some x =>
    let x' := { x with waiting := false, flushed := p.flushed }
    let b := { b with link := { b.link with proxies := b.link.proxies.map (fun y => if y == x then x' else y) } }
    match x.refusal with
    | some st => b.proxyEnd x' st 0 0
    | none => b

/-- All that a W packet has is forwarded, and it ends. -/
def Block.forwardW (b : Block) (lk : Nat) (p : RxPacket) : Block :=
  let (p, b) := b.forwardBeats lk p
  b.finishW lk p

/-- Containers of a W packet with the given head and number of beats (R318). -/
def wContainers (head beats : Nat) : Nat :=
  1 + beats + (if dKind head = 0 ∧ bitsOf head 127 64 = 0 then (beats + 7) / 8 else 0)

/-- A W packet received whole on a link: it waits while no proxy tag is free. -/
def Block.takeW (b : Block) (lk head : Nat) (beats : List Beat) : Block :=
  match b.beginForward lk { head, beats } with
  | none => { b with link := { b.link with rxStreams := b.link.rxStreams ++ [(lk, head, beats)] } }
  | some (p, b) => (b.returnCredit lk 1 (wContainers head beats.length)).forwardW lk p

/-- Whether a command goes to every tap, or to every bridge, of the node (Table 8.11). -/
def snpWide (op : Nat) : Bool := [snpShootdown, snpMigFence, snpMigLift, snpSeamFence].contains op

/-- The station port that an SNP command received on a link is for (R333), if any. -/
def Block.snpPlace (b : Block) (lk h : Nat) (payload : List Nat) : Option (Nat × Nat) :=
  if sNode h ≠ b.node then (b.routeTo (sNode h)).map (fun l => (l / 8, 0))
  else if snpWide (sOp h) then some (127, 15)
  else if sOp h = snpTrackerArm then some (localPort (65536 * (payload.headD 0 % 32768)))
  else if sOp h = snpTrackerTake ∨ sOp h = snpTrackerDisarm then
    (b.link.armed.find? (fun a => a.1 == lk && a.2.1 == sSrc h && a.2.2.1 == sArg h % 16)).map (fun a => (a.2.2.2, 7))
  else if sOp h = snpFrameReq ∨ sOp h = snpRelease then some (0, 8)
  else none

/-- The acknowledgements that a command waits for: of 32 taps, or of the bridges in service (R259). -/
def Block.snpAcks (b : Block) (h : Nat) : Nat :=
  if sNode h ≠ b.node || !snpWide (sOp h) then 1
  else if sOp h = snpSeamFence then ((List.range 256).filter (fun r => !b.isRetired r)).length else 32

/-- An SNP command received on a link (R333): proxied to the taps or scarab it is for, or refused where it is for none. SAMPLE never
crosses a link and is never acknowledged (R259): one that comes is dropped. -/
def Block.proxySnp (b : Block) (lk h : Nat) (payload : List Nat) : Block :=
  let o := lk / 8
  if sOp h = snpSample then b.returnCredit lk 3 1
  else match b.freeProxy o true with
  | none => { b with link := { b.link with heldSnp := b.link.heldSnp ++ [(64 + lk, h, payload)] } }
  | some q =>
    let b := b.returnCredit lk 3 1
    let p : Proxy := { octet := o, lk, ptag := q, op := opSnp, src := sSrc h, tag := sMsg h, node := b.reg (Reg.linkPartnerNode lk),
                       snp := sOp h, flit := payload.head?, acks := b.snpAcks h }
    let b := { b with link := { b.link with proxies := b.link.proxies ++ [p] } }
    match b.snpPlace lk h payload with
    | some (stn, port) =>
      b.sendSnp (snpHeader (sOp h) (sFlits h) (256 + o) stn port q (sNode h) 0 (sArg h)) payload
    | none => b.proxyEnd p (if sNode h = b.node then Status.malformed else Status.pathLost) 0 0

/-- What waits in an octet's receive buffers is tried again. -/
def Block.retryProxy (b : Block) (o : Nat) : Block :=
  let mine (key : Nat) : Bool := decide (64 ≤ key) && (key - 64) / 8 == o
  let ks := b.link.heldSnp.filter (fun h => mine h.1)
  let qs := b.link.rxHeld.filter (fun h => h.1 / 8 == o)
  let ss := b.link.rxStreams.filter (fun h => h.1 / 8 == o)
  let b := { b with link := { b.link with rxHeld := b.link.rxHeld.filter (fun h => h.1 / 8 != o)
                                          rxStreams := b.link.rxStreams.filter (fun h => h.1 / 8 != o)
                                          heldSnp := b.link.heldSnp.filter (fun h => !mine h.1) } }
  let b := qs.foldl (fun b h => b.takeReq h.1 h.2) b
  let b := ks.foldl (fun b h => b.proxySnp (h.1 - 64) h.2.1 h.2.2) b
  ss.foldl (fun b h => b.takeW h.1 h.2.1 h.2.2) b

/-- A completion that has come back to an octet's proxy (R333). -/
def Block.proxyCompletion (b : Block) (o tag status beats arg : Nat) : Option Block :=
  (b.link.proxies.find? (fun p => p.octet == o && p.op != opSnp && p.ptag == tag)).map
    (fun p => ((b.proxyEnd p status beats arg).retryProxy o))

/-- An RDATA packet that has come back to an octet's proxy. -/
def Block.proxyData (b : Block) (o sb : Nat) (beats : List Beat) : Option Block :=
  (b.link.proxies.find? (fun p => p.octet == o && p.op == 0 && p.ptag == dTag sb)).map (fun p =>
    let st := Status.received (lastStatus beats)
    if p.lost then (b.proxyEnd p st beats.length 0).retryProxy o
    else
      let b := { b with link := { b.link with proxies := b.link.proxies.erase p } }
      let head := datSideband 0 o 0 p.src p.tag beats.length 1 0
      ((b.queueItems p.lk (dItems head beats st p.src p.tag (p.owed st beats.length))).pumpLink p.lk).retryProxy o)

/-- An answer to an SNP command that has come back to an octet's proxy: sent on in class A, and the station of a tracker
armed for another node remembered. -/
def Block.proxyAnswer (b : Block) (o h : Nat) (payload : List Nat) : Option Block :=
  (b.link.proxies.find? (fun p => p.octet == o && p.op == opSnp && p.ptag == sMsg h)).map (fun p =>
    let b := { b with link := { b.link with proxies := b.link.proxies.erase p } }
    let b := if sOp h = snpTrackerArmed ∧ sStatus h = 0 then
        let stn := (localPort (65536 * (p.flit.getD 0 % 32768))).1
        { b with link := { b.link with armed := b.link.armed ++ [(p.lk, p.src, sArg h % 16, stn)] } }
      else b
    let st := Status.received (sStatus h)
    if p.lost then (b.undeliverable p.lk (p.owed st 0)).retryProxy o
    else
      let h' := snpHeader (sOp h) (sFlits h) p.src 0 0 p.tag (sNode h) st (sArg h)
      let body := h' + (payload.zip (List.range 7)).foldl (fun a x => a + x.1 * 2 ^ (64 * (x.2 + 1))) 0
      ((b.queueItems p.lk [⟨5, vtSnpA, body, p.src, p.tag, some (p.owed st 0)⟩]).pumpLink p.lk).retryProxy o)

/-- The status with which an SNP command whose acknowledgements have all come completes (R259). -/
def snpStatus (statuses : List Nat) : Nat :=
  ((Status.first (statuses.filter (· != Status.ok))).getD Status.ok)

/-- An acknowledgement that has come back to an octet's proxy: the entry ends with the last that it waits for. -/
def Block.proxySack (b : Block) (o msg status : Nat) : Option Block :=
  (b.link.proxies.find? (fun p => p.octet == o && p.op == opSnp && p.ptag == msg)).map (fun p =>
    let p' := { p with acks := p.acks - 1, statuses := p.statuses ++ [status] }
    let b := { b with link := { b.link with proxies := b.link.proxies.map (fun x => if x == p then p' else x) } }
    if 1 < p.acks then b else (b.proxyEnd p' (snpStatus p'.statuses) 0 0).retryProxy o)

/-! The active set (R323, R338). -/

/-- The lowest-numbered aligned group of the largest width, up to `w`, whose lanes are all in a mask. -/
def bestSet (w m : Nat) : Nat :=
  let groups := ([8, 4, 2, 1].filter (· ≤ w)).flatMap (fun v => (List.range (w / v)).map (fun i => (2 ^ v - 1) * 2 ^ (v * i)))
  (groups.find? (fun g => g &&& m == g)).getD 0

/-- The set in use compared with the set of R323, and changed where they differ (R338): LANES in the last slot before an alignment slot,
on the old set; then the container stream begins again on the new one, and what is not acknowledged is sent again. -/
def Block.changeSet (b : Block) (lk : Nat) : Block :=
  let set := bestSet (b.linkWidth lk) (b.rxUp lk &&& (b.linkAt lk).partnerUp)
  if set = 0 ∨ set = b.reg (Reg.activeSet lk) then b
  else
    let b := (b.sendRow lk).transmit lk (fun t => t.begun.fillTo 1023)
    let b := ((b.sendLanes lk set).setReg (Reg.activeSet lk) set).count (Reg.widthChanges lk) 1
    let b := (b.startStream lk).resend lk none
    b.modLink lk (fun x => { x with replays := 0 })

/-! Partner loss (R342, R343). -/

/-- A W packet that was begun and can no longer arrive is ended with poisoned zero beats, as at a flush. -/
def padPacket (p : RxPacket) : List Beat :=
  p.beats ++ List.replicate (dLen p.head + 1 - p.beats.length) (mkBeat 0 true fullMask)

/-- A W packet discarded whole in the receive buffer at a flush: answered FLUSHED with zero beats, with its REQ if that still waits
there (R336). -/
def Block.discardW (b : Block) (lk : Nat) (p : RxPacket) : Block :=
  match b.link.proxies.find? (fun x => x.lk == lk && x.src == dSrc p.head && x.tag == dTag p.head && x.op != 0 && x.op != opSnp) with
  | some x => (b.proxyEnd { x with flushed := none } Status.flushed 0 0)
  | none =>
    let mine (f : Nat) : Bool := qSrc f == dSrc p.head && qTag f == dTag p.head
    let b := { b with link := { b.link with rxHeld := b.link.rxHeld.map (fun (h : Nat × List Nat) => if h.1 = lk then (h.1, h.2.filter (fun f => !mine f)) else h) } }
    b.respond lk (rspFlit 0 Status.flushed (dSrc p.head) (dTag p.head) 0 (lk / 8) 0 0) none

/-- Beats of an RDATA packet received, up to number `n`, go on to the initiator, the last of them with the status (R332). -/
def Block.forwardD (b : Block) (lk : Nat) (p : RxPacket) (n status : Nat) : RxPacket × Block :=
  let total := dLen p.head + 1
  let fresh := (p.beats.take n).drop p.sent
  if fresh.isEmpty then (p, b)
  else
    let (stn, port) := b.iniPlace (dSrc p.head)
    ({ p with sent := p.sent + fresh.length },
      b.sendBeats (lk / 8) 0 (datSideband 0 stn port (dSrc p.head) (dTag p.head) total 1 status) total p.sent fresh)

/-- Every egress record of a link completes with PATH_LOST, with the beats confirmed; an RDATA packet being delivered is
ended with poisoned zero beats (R343, item 1). -/
def Block.failEgress (b : Block) (lk : Nat) : Block :=
  let es := b.link.egress.filter (fun e => e.lk == lk)
  let inD := (b.linkAt lk).inD
  let b := { b with link := { b.link with egress := b.link.egress.filter (fun e => e.lk != lk) } }
  es.foldl (fun b e =>
    match inD with
    | some p =>
      if p.begun ∧ e.op = 0 ∧ dSrc p.head = e.src ∧ dTag p.head = e.tag then
        ((b.count Reg.pathLostCompletions 1).forwardD lk { p with beats := padPacket p } (dLen p.head + 1) Status.pathLost).2
      else b.octetAnswer (lk / 8) e Status.pathLost e.beats
    | none => b.octetAnswer (lk / 8) e Status.pathLost e.beats) b

/-- The link's state is given up (R343, items 1 to 4): records completed, what waits completed with zero beats, proxies left
to run. -/
def Block.clearLink (b : Block) (lk : Nat) : Block :=
  let b := b.failEgress lk
  let x := b.linkAt lk
  let b := match x.inW with
    | some p => if p.begun then b.forwardW lk { p with beats := padPacket p, flushed := some (p.flushed.getD p.beats.length) } else b
    | none => b
  let mine (p : Proxy) : Bool := p.lk == lk && !p.lost
  let stuck := b.link.proxies.filter (fun p => mine p && p.waiting)
  let b := { b with link := { b.link with
    proxies := b.link.proxies.map (fun p => if mine p then { p with lost := true } else p)
    rxHeld := b.link.rxHeld.filter (fun h => h.1 != lk)
    rxStreams := b.link.rxStreams.filter (fun h => h.1 != lk)
    heldSnp := b.link.heldSnp.filter (fun h => h.1 != 64 + lk) } }
  let b := stuck.foldl (fun b p => b.proxyEnd { p with lost := true } Status.pathLost 0 0) b
  -- responses that have not left, or are not acknowledged
  let b := (x.answers.map (·.2) ++ x.queue.filterMap (·.answer)).foldl (fun b a => b.undeliverable lk a) b
  b.setLink lk { since := b.run }

/-- A link leaves what it held for DOWN. -/
def Block.linkDown (b : Block) (lk : Nat) : Block :=
  (((b.clearLink lk).setReg (Reg.activeSet lk) 0).setReg (Reg.flush lk) 0).enterLink lk kDown

/-- Entry into INIT (R322). -/
def Block.enterInit (b : Block) (lk : Nat) (fresh : Bool) : Block :=
  let b := (b.enterLink lk kInit).modLink lk (fun x =>
    { x with fresh := fresh, inits := 1, partnerInit := none, lastRx := if fresh then b.run else x.lastRx })
  b.sendInit lk

/-- Every lane of a link is idle. -/
def Block.allIdle (b : Block) (lk : Nat) : Bool :=
  !(b.enabledLanes lk).isEmpty && (b.enabledLanes lk).all (fun l => b.laneState l == lIdle)

/-- A link that leaves IDLE is ACTIVE again once lanes of it are UP (R302, R340). -/
def Block.exitIdle (b : Block) (lk : Nat) : Block :=
  let b := (b.startStream lk).modLink lk (fun x => { x with leaving := 0, lastRx := b.run, idleAsked := false })
  let b := (b.setReg (Reg.activeSet lk) (bestSet (b.linkWidth lk) (b.rxUp lk &&& (b.linkAt lk).partnerUp))).enterLink lk kActive
  b.sendKeepalive lk

/-- The link follows its lanes (R321, R322, R338, R339). `dark` says whether every lane is without signal. -/
def Block.lanesMoved (b : Block) (lk : Nat) : Block :=
  let st := b.linkState lk
  let up := !(b.upLanes lk).isEmpty
  if (b.enabledLanes lk).isEmpty then
    (if st = kDisabled then b else (b.linkDown lk).enterLink lk kDisabled)
  else if st = kDisabled ∨ st = kDown then
    (let b := if st = kDisabled then b.enterLink lk kDown else b
     if up then b.enterInit lk true else b)
  else if st = kInit then
    (if up then b else if (b.linkAt lk).fresh then b.enterLink lk kDown
     else (b.count (Reg.recoveries lk) 1).enterLink lk kRecovery)
  else if st = kActive then
    (if up then (b.sendLanes lk (b.reg (Reg.activeSet lk))).changeSet lk
     else if b.allIdle lk then b.enterLink lk kIdle
     else ((b.count (Reg.recoveries lk) 1).setReg (Reg.activeSet lk) 0).enterLink lk kRecovery)
  else if st = kRecovery then (if up then b.enterInit lk false else b)
  else if st = kIdle ∧ up ∧ 0 < (b.linkAt lk).leaving then b.exitIdle lk
  else b

/-- The partner is declared lost (R343). -/
def Block.partnerLost (b : Block) (lk cause : Nat) : Block :=
  let node := b.reg (Reg.linkPartnerNode lk)
  let b := (b.linkDown lk).setRegs [(Reg.lossCause lk, cause), (Reg.lossTime lk, b.ts)]
  let b := (b.count (Reg.partnerLosses lk) 1).logEvent 0x0501 5 lk (node + cause * 2 ^ 16)
  (b.lanesMoved lk).retryOctet (lk / 8)

/-! INIT and ACTIVE (R322). -/

/-- Root periods of a mean alignment period at a rate. -/
def alignPeriod (rate : Nat) : Nat := 133250 * 544 * 2 ^ rate / 2056

/-- Entry into ACTIVE with the partner's INIT. -/
def Block.enterActive (b : Block) (lk i : Nat) : Block :=
  let x := b.linkAt lk
  let x := { x with partnerUp := bitsOf i 39 32, lanesAt := b.run, lastRx := if x.fresh then b.run else x.lastRx, lastTx := b.run,
                    partnerInit := none, idleAsked := false, leaving := 0 }
  let x := if x.fresh then
      { x with seq := 0, expect := 0, creditQ := bitsOf i 81 68, creditW := bitsOf i 67 54, creditK := bitsOf i 53 40,
               allocQ := bitsOf i 81 68, allocW := bitsOf i 67 54, allocK := bitsOf i 53 40, replay := [], quietSince := b.run }
    else x
  let b := (b.setLink lk x).setRegs [(Reg.linkPartnerNode lk, bitsOf i 116 105),
    (Reg.partnerLink lk, 8 * bitsOf i 104 99 + bitsOf i 98 96)]
  let b := b.setReg (Reg.activeSet lk) (bestSet (b.linkWidth lk) (b.rxUp lk &&& bitsOf i 39 32))
  let b := (b.startStream lk).enterLink lk kActive
  if x.fresh then b else b.resend lk (some (bitsOf i 93 82))

/-- What has come due on a link by now, one block an alignment period: INIT blocks and entry into ACTIVE (R322), and LANES
while the two sides' sets differ (R338). The blocks of periods that pass with no event of the link between them are sent together at the
next (DESIGN CHOICE, log 191). -/
def Block.settleLink (b : Block) (lk : Nat) : Block :=
  let x := b.linkAt lk
  let periods (since : Nat) : Nat := (b.run - since) / alignPeriod (b.reg (Reg.rate (((b.upLanes lk).head?).getD lk)))
  if b.linkState lk = kInit then
    let due := 1 + periods x.since
    let b := (List.range (due - x.inits)).foldl (fun b _ => b.sendInit lk) b
    let b := b.modLink lk (fun x => { x with inits := max x.inits due })
    match x.partnerInit with
    | some i => if due ≥ 2 then b.enterActive lk i else b
    | none => b
  else if b.linkState lk = kActive ∧ b.rxUp lk ≠ x.partnerUp ∧ 0 < periods x.lanesAt then
    ((List.range (periods x.lanesAt)).foldl (fun b _ => b.sendLanes lk (b.reg (Reg.activeSet lk))) b)
  else b

/-! Containers received (R325, R326). -/

/-- A CRC failure (R325). -/
def Block.crcFailed (b : Block) (lk : Nat) : Block :=
  let b := b.count (Reg.crcFails lk) 1
  if (b.linkAt lk).discarding then b
  else (b.modLink lk (fun x => { x with discarding := true })).sendNak lk

/-- Credits returned to the transmitter; none above its allocation. -/
def LinkRun.credit (x : LinkRun) (cvn n : Nat) : LinkRun :=
  if cvn = 0 ∧ !x.flushSent.testBit 0 then { x with creditQ := min x.allocQ (x.creditQ + n) }
  else if cvn = 1 ∧ !x.flushSent.testBit 1 then { x with creditW := min x.allocW (x.creditW + n) }
  else if cvn = 3 ∧ !x.flushSent.testBit 3 then { x with creditK := min x.allocK (x.creditK + n) }
  else x

/-- A container accepted in sequence. -/
def Block.acceptContainer (b : Block) (lk c : Nat) : Block :=
  let x := b.linkAt lk
  let x := { x with
    expect := (x.expect + 1) % 4096
    discarding := false
    accepted := x.accepted + 1
    acceptedAt := if x.accepted = 0 then b.run else x.acceptedAt
    lastRx := b.run
    quietSince := if cKind c = CKind.null then x.quietSince else b.run
    idleAsked := x.idleAsked && cKind c == CKind.null }
  let x := x.credit (cCvn c) (cCount c)
  let b := (b.setLink lk x).count (Reg.rxContainers lk) 1
  if x.accepted ≥ 256 then b.sendAck lk else b

/-- Whether an accepted container is a protocol error by itself (R326). -/
def Block.protoError (b : Block) (lk c : Nat) : Bool :=
  let x := b.linkAt lk
  let k := cKind c
  let proxied (h : Nat) : Bool := x.expectW.contains (dSrc h, dTag h)
  k == .reserved || (k == .null && cPayload c != 0) || (cCvn c == 2 && cCount c != 0) ||
  ((k == .mask || k == .dataW || k == .dataWP || k == .abortW) && x.inW.isNone) ||
  ((k == .dataD || k == .dataDP || k == .tailD) && x.inD.isNone) ||
  (k == .headW && (x.inW.isSome || !(dKind (cPayload c) == 2 || (dKind (cPayload c) == 0 && proxied (cPayload c))))) ||
  (k == .headD && x.inD.isSome)

/-- Whether a container lies in a block with an error mark: the last codeword of a lane of the link was uncorrectable (R286, R316). -/
def Block.linkMarked (b : Block) (lk : Nat) : Bool := (b.upLanes lk).any (fun l => (b.laneAt l).marked)

/-- Whether a control block has an error mark and is not used (R286); of one that comes on every lane, any one valid copy is enough
(R320). -/
def Block.controlMarked (b : Block) (lk ty : Nat) : Bool :=
  if 0x62 ≤ ty ∧ ty ≤ 0x65 then (b.upLanes lk).all (fun l => (b.laneAt l).marked) else b.linkMarked lk

/-- A container on an ACTIVE link (R325, R326): checked, put in sequence and accepted; `f` is the effect of its content. -/
def Block.rxContainer (b : Block) (lk c : Nat) (f : Block → Block) : Block :=
  if b.linkState lk ≠ kActive then b
  else
    let e := (b.linkAt lk).expect
    let behind := (e + 4096 - cSeq c) % 4096
    if cCrc c ≠ containerCrc c ∨ b.linkMarked lk then b.crcFailed lk
    else if behind = 0 then
      let b := b.acceptContainer lk c
      if b.protoError lk c then (b.count (Reg.protoErrors lk) 1).partnerLost lk 4 else f b
    else if behind ≤ 2048 then b.count (Reg.dupDiscards lk) 1
    else if (b.linkAt lk).discarding then b
    else b.crcFailed lk

/-! Link events. -/

/-- An event of a link at time `t`, after which the link sends what it may. -/
def Block.linkEvent (b : Block) (lk t : Nat) (f : Block → Block) : Block :=
  b.event t (fun b => if b.startsLink lk then (f (b.settleLink lk)).pumpLink lk else b)

/-- A write by the host to a record of a lane or link (`ok`: there is one), after which the link sends what it may. -/
def Block.hostLink (b : Block) (ok : Bool) (lk t : Nat) (f : Block → Nat × Block) : Block :=
  if ok then (b.host f).linkEvent lk t id else b.host (inRecord false f)

/-- An event of a link that falls only if its condition holds. -/
def Block.linkEventIf (b : Block) (lk t : Nat) (p : Block → Bool) (f : Block → Block) : Block :=
  b.linkEvent lk t (fun b => if p b then f b else b)

/-- A valid control block of a type on a link, in no block with an error mark: one that fails its checks is discarded and counted (R320). -/
def Block.rxControl (b : Block) (lk ty blk : Nat) (f : Block → Block) : Block :=
  if (b.upLanes lk).isEmpty || b.controlMarked lk ty then b
  else if !crc16Ok blk then b.count Reg.badBlocks 1
  else if kType blk ≠ ty then b
  else if blk &&& kReserved ty ≠ 0 then b.count Reg.badBlocks 1
  else f b

end Sys2Proof.Machine
end

