-- ==== Sys2Proof/Machine/Dma.lean ====
section
/-! DEFINITION. The DMA channels: descriptor rings, checks, transfers over the networks and the host's commands (R168 to
R174). -/

namespace Sys2Proof.Machine

open Sys2Proof

/-- A channel's page and work. -/
def Block.dmaAt (b : Block) (c : Nat) : Dma := b.mem.dma.get (fun _ => {}) c

/-- The block with a channel replaced. -/
def Block.setDma (b : Block) (c : Nat) (x : Dma) : Block :=
  { b with mem := { b.mem with dma := b.mem.dma.set (fun _ => {}) c x } }

/-- Entries of a channel's ring. -/
def Block.dmaSize (b : Block) (c : Nat) : Nat := 2 ^ b.reg (Reg.dmaLog2 c)

/-- A write of DMA_PROD (R169, R184). -/
def Block.dmaProd (b : Block) (c v : Nat) : Nat × Block :=
  if b.reg (Reg.dmaEnable c) = 0 then (Status.accessDenied, b)
  else
    let s := b.dmaSize c
    let x := b.dmaAt c
    if advanceRefused s x.prodRd v ((x.cons + s - x.prodRd % s + s - 1) % s) then
      (Status.ok, (b.setDma c { x with refused := true, dbCount := satAdd x.dbCount 1 0xFFFF }).count (Reg.dmaOverruns c) 1)
    else (Status.ok, b.setDma c { x with prodRd := v, refused := false })

/-- DMA_PROD. -/
def execDmaProd (ch v : Nat) (s : State) : Host.Outcome State Fault Refusal :=
  s.answer true (s.blk.doorbell (fun b => if wfDma ch then b.dmaProd ch v else (Status.accessDenied, b)))

/-! Descriptors (Table 5.12). -/

abbrev tSrc (d : Nat) : Nat := bitsOf d 511 448
abbrev tDst (d : Nat) : Nat := bitsOf d 447 384
abbrev tLength (d : Nat) : Nat := bitsOf d 383 352
abbrev tWindow (d : Nat) : Nat := bitsOf d 351 320
abbrev tStop (d : Nat) : Bool := d.testBit 129
abbrev tIrq (d : Nat) : Bool := d.testBit 128

/-- Whether `n` bytes from a global address lie wholly within MA or wholly within MB of its node. -/
def withinDies (g n : Nat) : Bool := withinDie (bitsOf g 51 0) n

/-- The checks of Table 5.13, after the read: the status with which the descriptor ends at once, if it does. -/
def descCheck (d : Nat) : Option Nat :=
  if bitsOf d 255 130 ≠ 0 ∨ bitsOf d 127 0 ≠ 0 then some Status.malformed
  else if tLength d = 0 then some Status.ok
  else if !withinDies (tSrc d) (tLength d) || !withinDies (tDst d) (tWindow d) then some Status.accessDenied
  else if tLength d > tWindow d then some Status.tooLong
  else none

/-- Lines that a transfer's source and destination span. -/
def spanLines (g n : Nat) : Nat := (g % 64 + n + 63) / 64

/-- DONE_BYTES (R172): bytes of the longest run of committed lines from the first. -/
def doneBytes (d : Nat) (committed : List Nat) : Nat :=
  let n := spanLines (tDst d) (tLength d)
  let run := ((List.range n).takeWhile (fun i => committed.contains i)).length
  if run = 0 then 0 else min (tLength d) (64 * run - tDst d % 64)

/-- Bytes of destination line i that lie in the transfer. -/
def lineBytes (d i : Nat) : Nat :=
  let first := tDst d % 64
  min (64 * (i + 1)) (first + tLength d) - max (64 * i) first

/-- A descriptor ends (R173): written back where it was taken from, reported, and the channel's next state. -/
def Block.endDescriptor (b : Block) (c : Nat) (d st done : Nat) : Block :=
  let x := b.dmaAt c
  let ring := match x.job with
    | some j => j.ring
    | none => b.reg (Reg.dmaRingBase c)
  let (wb, b) := b.tapWrite (352 + c) (ring + 64 * x.cons) 8 (done * 2 ^ 32 + st * 2 ^ 28 + 2 ^ 27)
  let last := if wb = Status.ok then st else wb
  let b := b.setDma c { x with cons := (x.cons + 1) % b.dmaSize c, job := none }
  let b := b.setRegs [(Reg.dmaLastIndex c, x.cons), (Reg.dmaLastStatus c, last), (Reg.dmaLastDone c, done)]
  let b := b.count (Reg.dmaDescs c) 1
  let b := if st = Status.ok then b else b.count Reg.dmaHalts 1
  let b := if tIrq d then b.msix (b.reg (Reg.dmaVector c)) else b
  let x := b.dmaAt c
  b.setReg (Reg.dmaState c)
    (if b.reg (Reg.dmaEnable c) = 0 then 0 else if last ≠ Status.ok ∨ tStop d then 2 else if x.cons = x.prodRd then 0 else 1)

/-! Transfers (R168, R172). -/

/-- The length of the piece of a transfer that begins at line `i` of `n` from global address `g`: to the end of its frame,
at most 64 lines. -/
def pieceLen (g i n : Nat) : Nat := min (n - i) (min 64 (1024 - (bitsOf g 51 0 / 64 + i) % 1024))

/-- Source lines, counted from the first, that destination line i needs. -/
def needsLines (d i : Nat) : List Nat :=
  let first := max (64 * i) (tDst d % 64)
  let last := min (64 * (i + 1)) (tDst d % 64 + tLength d) - 1
  let off := tSrc d % 64
  let at' (p : Nat) : Nat := (p - tDst d % 64 + off) / 64
  if at' first = at' last then [at' first] else [at' first, at' last]

/-- The data and mask of destination line i. -/
def destLine (d : Nat) (got : SMap Nat) (i : Nat) : Beat :=
  let first := max (64 * i) (tDst d % 64)
  let n := lineBytes d i
  let p := first - tDst d % 64 + tSrc d % 64
  let two := got.look (p / 64) + got.look (p / 64 + 1) * 2 ^ 512
  let v := byteSlice two (p % 64) n
  mkBeat (v * 256 ^ (first % 64)) false ((2 ^ n - 1) * 2 ^ (first % 64))

/-- A request of a channel leaves its port, or ends at once where it has no destination. -/
def Block.dmaRequest (b : Block) (c : Nat) (j : DmaJob) (tag : Nat) (write : Bool) (g first n : Nat) : DmaJob × Block :=
  let ini := 352 + c
  let node := bitsOf g 63 52
  let a := (bitsOf g 51 0 / 64 + first) * 64
  let (st, stn, port) := b.destOf ini node a (64 * n) write
  let b := b.ledgerOpen ini tag (b2n write) (node * 2 ^ 52 + a) stn port n
  if st ≠ Status.ok then ({ j with stopped := j.stopped ++ [(b.clk.now, st)] }, b.ledgerClose ini tag st 0)
  else
    let j := { j with open_ := j.open_ ++ [DmaReq.mk tag write first n] }
    let b := b.sendReq (reqFlit (b2n write) 0 (n - 1) ini tag stn port node a)
    if write then
      (j, b.sendDat (b.iniPlace ini).1 (b.iniPlace ini).2 (datSideband 0 stn port ini tag n 0 0)
        ((List.range n).map (fun i => destLine j.desc j.got (first + i))))
    else (j, b)

/-- Requests issued while tags and the limits of 32 reads and 32 writes allow, at most `fuel`. -/
def Block.dmaIssue (b : Block) (c : Nat) (j : DmaJob) : Nat → DmaJob × Block
  | 0 => (j, b)
  | fuel + 1 =>
    if !j.stopped.isEmpty then (j, b)
    else
      let d := j.desc
      let nSrc := spanLines (tSrc d) (tLength d)
      let nDst := spanLines (tDst d) (tLength d)
      let reads := (j.open_.filter (fun q => !q.write)).length
      let writes := (j.open_.filter (·.write)).length
      match b.freeTag (352 + c) 0 64 with
      | none => (j, b)
      | some tag =>
        let wLen := pieceLen (tDst d) j.nextWrite nDst
        let ready := (List.range wLen).all (fun i => (needsLines d (j.nextWrite + i)).all (fun l => j.gotLines.contains l))
        if j.nextWrite < nDst ∧ writes < 32 ∧ ready then
          let (j', b) := b.dmaRequest c j tag true (tDst d) j.nextWrite wLen
          b.dmaIssue c { j' with nextWrite := j.nextWrite + wLen } fuel
        else if j.nextRead < nSrc ∧ reads < 32 then
          let n := pieceLen (tSrc d) j.nextRead nSrc
          let (j', b) := b.dmaRequest c j tag false (tSrc d) j.nextRead n
          b.dmaIssue c { j' with nextRead := j.nextRead + n } fuel
        else (j, b)

/-- The channel goes on with its descriptor. -/
def Block.dmaPump (b : Block) (c : Nat) : Block :=
  match (b.dmaAt c).job with
  | none => b
  | some j =>
    let (j, b) := b.dmaIssue c j 64
    b.setDma c { b.dmaAt c with job := some j }

/-- DMA_DESCRIPTOR: the channel takes the descriptor at DMA_CONS (R171). -/
def Block.takeDescriptor (b : Block) (c : Nat) : Block :=
  let x := b.dmaAt c
  let (st, d, b) := b.tapRead (352 + c) (b.reg (Reg.dmaRingBase c) + 64 * x.cons) 64
  let b := b.setReg (Reg.dmaState c) 1
  if st ≠ Status.ok then b.endDescriptor c d st 0
  else match descCheck d with
    | some st => b.endDescriptor c d st 0
    | none => (b.setDma c { x with job := some { index := x.cons, desc := d, ring := b.reg (Reg.dmaRingBase c) } }).dmaPump c

/-- Whether a channel takes a descriptor now. -/
def Block.dmaTakes (b : Block) (c : Nat) : Bool :=
  let x := b.dmaAt c
  b.reg (Reg.dmaEnable c) == 1 && b.reg (Reg.dmaState c) != 2 && x.job.isNone && x.cons != x.prodRd

def execDmaDescriptor (ch t : Nat) (s : State) : Host.Outcome State Fault Refusal :=
  s.answer (wfDma ch) (s.blk.eventIf t (fun b => b.dmaTakes ch) (fun b => b.unlessWiped (fun b => b.takeDescriptor ch)))

/-- Whether a descriptor's work is done: everything committed, or stopped with nothing open. -/
def DmaJob.over (j : DmaJob) : Bool :=
  j.open_.isEmpty && (!j.stopped.isEmpty || decide (j.committed.length ≥ spanLines (tDst j.desc) (tLength j.desc)))

/-- The status of a stopped descriptor: among what came at the first edge, by R29. -/
def DmaJob.status (j : DmaJob) : Nat :=
  let t := (j.stopped.map (·.1)).foldl min ((j.stopped.headD (0, 0)).1)
  (Status.first ((j.stopped.filter (fun e => e.1 == t)).map (·.2))).getD Status.ok

/-- DMA_DESCRIPTOR_END. -/
def Block.descriptorEnd (b : Block) (c : Nat) : Block :=
  match (b.dmaAt c).job with
  | some j => if j.over then b.endDescriptor c j.desc j.status (doneBytes j.desc j.committed) else b
  | none => b

def execDmaDescriptorEnd (ch t : Nat) (s : State) : Host.Outcome State Fault Refusal :=
  s.answer (wfDma ch) (s.blk.event t (fun b => b.unlessWiped (fun b => b.descriptorEnd ch)))

/-! Completions. -/

/-- The lines of a read kept, where it is good. -/
def keepLines (got : SMap Nat) (first : Nat) (beats : List Beat) : SMap Nat :=
  (beats.zip (List.range beats.length)).foldl (fun g e => g.put (first + e.2) e.1.data.toNat) got

/-- A final completion of a channel's request (R172). -/
def Block.dmaAnswer (b : Block) (c tag st beats : Nat) (data : List Beat) : Block :=
  match (b.dmaAt c).job with
  | none => b
  | some j =>
    match j.open_.find? (fun q => q.tag == tag) with
    | none => b
    | some q =>
      let j := { j with open_ := j.open_.erase q }
      let done := (List.range (min beats q.lines)).map (q.first + ·)
      let j := if q.write then { j with committed := j.committed ++ done } else
        { j with got := keepLines j.got q.first data, gotLines := j.gotLines ++ (if st = Status.ok then (List.range q.lines).map (q.first + ·) else []) }
      let b := if q.write then b.count Reg.dmaBytes (sumOf (done.map (lineBytes j.desc))) else b
      let j := if st = Status.ok then j else { j with stopped := j.stopped ++ [(b.clk.now, st)] }
      (b.setDma c { b.dmaAt c with job := some j }).dmaPump c

/-! The host's commands. -/

/-- A channel's descriptor issues nothing further. -/
def Block.stopDma (b : Block) (c : Nat) : Block :=
  match (b.dmaAt c).job with
  | some j => b.setDma c { b.dmaAt c with job := some { j with stopped := j.stopped ++ [(b.clk.now, Status.abortedByHost)] } }
  | none => b.setReg (Reg.dmaState c) (if b.reg (Reg.dmaEnable c) = 0 then 0 else 2)

/-- DMA_CMD (R173). -/
def Block.writeDmaCmd (b : Block) (c v : Nat) : Nat × Block :=
  let st := b.reg (Reg.dmaState c)
  b.guarded [badValue (Reg.dmaCmd c) v, (v == 1 && st != 2, Abort.condition), (v == 2 && st != 1, Abort.condition),
      (v == 3 && st == 1, Abort.condition)]
    (fun b =>
      if v = 1 then b.setReg (Reg.dmaState c) 1
      else if v = 2 then b.stopDma c
      else b.setDma c { b.dmaAt c with cons := 0, prodRd := 0, refused := false, dbCount := 0 })

/-- DMA_RESUME. -/
def execDmaResume (ch : Nat) (s : State) : Host.Outcome State Fault Refusal :=
  s.answer true (s.blk.host (inRecord (wfDma ch) (fun b => b.writeDmaCmd ch 1)))

/-- DMA_ABORT. -/
def execDmaAbort (ch : Nat) (s : State) : Host.Outcome State Fault Refusal :=
  s.answer true (s.blk.host (inRecord (wfDma ch) (fun b => b.writeDmaCmd ch 2)))

/-- DMA_RESET. -/
def execDmaReset (ch : Nat) (s : State) : Host.Outcome State Fault Refusal :=
  s.answer true (s.blk.host (inRecord (wfDma ch) (fun b => b.writeDmaCmd ch 3)))

/-- DMA_ENABLE: 1 only with a ring that lies in one memory die; 0 acts as ABORT on a RUNNING channel. -/
def Block.writeDmaEnable (b : Block) (c v : Nat) : Nat × Block :=
  b.guarded [badValue (Reg.dmaEnable c) v,
      (v == 1 && !withinDie (b.reg (Reg.dmaRingBase c)) (64 * b.dmaSize c), Abort.condition)]
    (fun b =>
      let b := b.setReg (Reg.dmaEnable c) v
      if v = 0 then (if b.reg (Reg.dmaState c) = 1 then b.stopDma c else b.setReg (Reg.dmaState c) 0) else b)

/-- DMA_ENABLE. -/
def execDmaEnable (ch v : Nat) (s : State) : Host.Outcome State Fault Refusal :=
  s.answer true (s.blk.host (inRecord (wfDma ch) (fun b => b.writeDmaEnable ch v)))

end Sys2Proof.Machine
end

