-- ==== Sys2Proof/Machine/Message.lean ====
section
/-! DEFINITION. Messages of the management protocol and how a transport carries them (R388 to R396, R402 to R404). -/

namespace Sys2Proof.Machine

open Sys2Proof

/-! The header (Table 12.1). -/

/-- A header: command, transaction, object, LEN, LAST, TOGGLE and node. -/
def lmpHeader (cmd xid idx sub len : Nat) (last toggle : Bool) (node : Nat) : Nat :=
  cmd + xid * 2 ^ 8 + idx * 2 ^ 16 + sub * 2 ^ 32 + len * 2 ^ 40 + b2n last * 2 ^ 46 + b2n toggle * 2 ^ 47 + node * 2 ^ 48

/-- A message: its header and its body. -/
def lmpBytes (hdr : Nat) (body : List Byte) : List Byte := bytesOf 8 hdr ++ body

/-- Messages placed back to back in one buffer, each starting at a multiple of 8 bytes (R392). -/
def trainBytes : List (List Byte) → List Byte
  | [] => []
  | [m] => m
  | m :: n :: ms => m ++ List.replicate (roundUp m.length 8 - m.length) 0 ++ trainBytes (n :: ms)

/-! CAN frames (R402, R403). -/

/-- The smallest data length of a CAN FD frame that holds `n` bytes. -/
def canLength (n : Nat) : Nat := if n ≤ 8 then n else ([12, 16, 20, 24, 32, 48].find? (fun m => n ≤ m)).getD 64

/-- Whether a port takes and sends frames: enabled, and neither bus-off nor disabled (R404). -/
def Block.canWorks (b : Block) (p : Nat) : Bool := b.reg (Reg.canEnable p) == 1 && decide (b.reg (Reg.busState p) < 2)

/-- A frame received without an error lowers REC by 1; above 127 it becomes a value from 119 to 127, which ISO 11898-1 leaves free. -/
def Block.canReceived (b : Block) (p : Nat) : Block :=
  if b.reg (Reg.rec p) ≤ 127 then (b.setReg (Reg.rec p) (b.reg (Reg.rec p) - 1)).canState p
  else ((b.draw).2.setReg (Reg.rec p) (119 + (b.draw).1 % 9)).canState p

/-- A frame sent by a port: function, target and bytes, padded with zeros. -/
def Block.canSend (b : Block) (p fn target : Nat) (bytes : List Byte) : Block :=
  if b.canWorks p then
    ((b.count (Reg.framesTx p) 1).canSent p).emit .can p
      ((fn * 2 ^ 25 + target * 2 ^ 13 + b.node * 2) ::
        (bytes ++ List.replicate (canLength bytes.length - bytes.length) 0).map (fun (x : Byte) => x.toNat))
  else b

/-! Answers. -/

/-- A channel of the mailbox. -/
def Block.mboxAt (b : Block) (c : Nat) : Mbox := b.lmp.mbox.get (fun _ => {}) c

/-- The block with a channel replaced. -/
def Block.setMbox (b : Block) (c : Nat) (x : Mbox) : Block :=
  { b with lmp := { b.lmp with mbox := b.lmp.mbox.set (fun _ => {}) c x } }

/-- The next message of a channel's request that has not been served (R392, R395): a BLK_DATA for this node is as long as its COUNT says, any
other takes the rest of the request. -/
def Mbox.next (x : Mbox) (node : Nat) : List Byte :=
  let rest := (bytesOf x.reqLen x.request).drop x.taken
  let n := 12 + bytesVal ((rest.drop 8).take 2)
  if rest.headD 0 = 0x08 ∧ bitsOf (bytesVal (rest.take 8)) 59 48 = node ∧ n ≤ rest.length then rest.take n else rest

/-- A message of the request has been served: the next begins at a multiple of 8 bytes. -/
def Block.takeRequest (b : Block) (c : Nat) : Block :=
  let x := b.mboxAt c
  b.setMbox c { x with taken := roundUp (x.taken + (x.next b.node).length) 8 }

/-- The answer of a channel: a further one is part of the same train. -/
def Mbox.answered (x : Mbox) (bytes : List Byte) : Mbox :=
  { x with answer := some (match x.answer with
      | some l => if l.isEmpty then bytes else trainBytes [l, bytes]
      | none => bytes) }

/-- MGMT_PATHS as it reads: all unblown reads as 0b011 (R369). -/
def Fuses.paths (f : Fuses) : Nat := if f.mgmtPaths = 0 then 3 else f.mgmtPaths

/-- Whether a transport works (Table 11.12): before the global start only what MGMT_PATHS enables. -/
def Block.viaWorks (b : Block) : Via → Bool
  | .mailbox ch => b.started || (decide (ch < 32) && b.fuses.paths.testBit 0)
  | .can p _ => b.canWorks p
  | .settings => false

/-- Messages sent as one answer: a train for the response of a mailbox channel, or frames of a port. -/
def Block.lmpSend (b : Block) (via : Via) (msgs : List (List Byte)) : Block :=
  match via with
  | .mailbox ch => b.setMbox ch ((b.mboxAt ch).answered (trainBytes msgs))
  | .can p source => msgs.foldl (fun b m => b.canSend p 4 source m) b
  | .settings => b

/-- A request that the protocol leaves unanswered: a mailbox channel still gets an empty response, which clears BUSY (DESIGN CHOICE,
log 215). -/
def Block.lmpSilent (b : Block) (via : Via) : Block :=
  match via with
  | .mailbox ch => b.setMbox ch ((b.mboxAt ch).answered [])
  | _ => b

/-- An ABORT sent: its code recorded and counted (Tables 12.3, 12.15). -/
def Block.lmpAbort (b : Block) (via : Via) (xid idx sub node code : Nat) : Block :=
  ((b.count Reg.lmpAbortsSent 1).setReg Reg.lastAbortCode code).lmpSend via
    [lmpBytes (lmpHeader 0x8F xid idx sub 0 false false node) (bytesOf 4 code)]

/-- The open transfer of a transport (R403). -/
def Block.xfer (b : Block) (via : Via) : Option Xfer := b.lmp.xfers.find? (fun x => x.via == via)

/-- The transfer of a transport ended. -/
def Block.endXfer (b : Block) (via : Via) : Block :=
  { b with lmp := { b.lmp with xfers := b.lmp.xfers.filter (fun x => x.via != via) } }

/-- The transfer of a transport replaced; the server's last message is the one sent now. -/
def Block.putXfer (b : Block) (x : Xfer) : Block :=
  let b := b.endXfer x.via
  { b with lmp := { b.lmp with xfers := { x with since := b.run } :: b.lmp.xfers } }

/-- The open transfer aborted by the server (R393). -/
def Block.abortXfer (b : Block) (x : Xfer) (code : Nat) : Block :=
  (b.endXfer x.via).lmpAbort x.via x.xid x.idx x.sub b.node code

end Sys2Proof.Machine
end

