-- ==== Sys2Proof/Machine/Mailbox.lean ====
section
/-! DEFINITION. The pages of the base die that accesses reach over the networks: the doorbell pages of ring pairs and DMA
channels (R169, R183), and the channels of the management mailbox (R395, R396). -/

namespace Sys2Proof.Machine

open Sys2Proof

/-! Doorbell pages (Tables 5.11, 6.5). -/

/-- The page of an offset in the range of rings and doorbells: a ring pair, or a DMA channel. -/
inductive DoorPage where
  | ring (n : Nat)
  | dma (c : Nat)
  deriving DecidableEq, Repr

/-- The page that holds an offset of the range, if any (R169). -/
def doorPage (off : Nat) : Option DoorPage :=
  if off < 0x40000 then some (.ring (off / 0x1000))
  else if 0x100000 ≤ off ∧ off < 0x110000 then some (.dma ((off - 0x100000) / 0x1000))
  else none

/-- Whether a page is enabled. -/
def Block.pageEnabled (b : Block) : DoorPage → Bool
  | .ring n => b.reg (Reg.enable n) == 1
  | .dma c => b.reg (Reg.dmaEnable c) == 1

/-- DB_STATUS or CQ_STATUS: the last write refused, and the count. -/
def statusWord (refused : Bool) (count : Nat) : Nat := b2n refused * 2 ^ 31 + count

/-- A served read of a page: status and value. A write-only register is refused with zero data, a reserved offset reads
zero (R183). -/
def Block.pageRead (b : Block) (p : DoorPage) (off : Nat) : Nat × Nat :=
  match p with
  | .ring n =>
    let x := b.ring n
    if off = 0x000 ∨ off = 0x014 then (Status.accessDenied, 0)
    else if off = 0x004 then (Status.ok, x.cons)
    else if off = 0x008 then (Status.ok, x.prod)
    else if off = 0x00C then (Status.ok, statusWord x.dbRefused x.dbCount)
    else if off = 0x010 then (Status.ok, x.cqProd)
    else if off = 0x018 then (Status.ok, statusWord x.cqRefused x.cqCount)
    else (Status.ok, 0)
  | .dma c =>
    let x := b.dmaAt c
    if off = 0x000 then (Status.accessDenied, 0)
    else if off = 0x004 then (Status.ok, x.cons)
    else if off = 0x008 then (Status.ok, x.prodRd)
    else if off = 0x00C then (Status.ok, statusWord x.refused x.dbCount)
    else (Status.ok, 0)

/-- A served write of a page: everything but the producer and consumer indices is read-only (R183). -/
def Block.pageWrite (b : Block) (p : DoorPage) (off v : Nat) : Nat × Block :=
  match p with
  | .ring n =>
    if off = 0x000 then b.sqProd n v
    else if off = 0x014 then b.cqCons n v
    else (Status.accessDenied, b)
  | .dma c => if off = 0x000 then b.dmaProd c v else (Status.accessDenied, b)

/-- The checks of an access to the doorbell block, in order (R169, R183): its page, or the status that ends it. -/
def Block.doorCheck (b : Block) (off n : Nat) : Nat ⊕ DoorPage :=
  match doorPage off with
  | none => .inl Status.accessDenied
  | some p =>
    if n ≠ 4 ∨ off % 4 ≠ 0 then .inl Status.malformed
    else if !b.pageEnabled p then .inl Status.accessDenied
    else .inr p

/-! The management mailbox (Table 12.5). -/

/-- Whether an initiator may write a channel (R395): the PCIe endpoint channels 0 to 31, link octets the others. -/
def mboxWriter (c ini : Nat) : Bool := if c < 32 then ini == 368 else decide (256 ≤ ini ∧ ini < 320)

/-- CH_STATUS. -/
def Mbox.status (x : Mbox) : Nat := b2n x.busy * 2 ^ 31 + b2n x.ready * 2 ^ 30 + b2n x.refused * 2 ^ 29 + x.rspLen

/-- A write of MSG_LEN (R396): the status of the access, and the block. -/
def Block.writeMsgLen (b : Block) (c v : Nat) : Nat × Block :=
  let x := b.mboxAt c
  if x.busy || x.ready || decide (v < 8) || decide (4096 < v) then
    (Status.accessDenied, b.setMbox c { x with refused := true })
  else (Status.ok, b.setMbox c { x with busy := true, refused := false, reqLen := v, taken := 0, answer := none })

/-- A write of RSP_DONE: 1 clears RSP_READY. -/
def Block.writeRspDone (b : Block) (c v : Nat) : Nat × Block :=
  if v = 1 then (Status.ok, b.setMbox c { b.mboxAt c with ready := false }) else (Status.accessDenied, b)

/-- A write of bytes to a channel: the control page's registers, or REQUEST. -/
def Block.mboxWrite (b : Block) (c off n v mask : Nat) (word : Bool) : Nat × Block :=
  if off < 0x1000 then
    if !word then (Status.malformed, b)
    else if off = 0 then b.writeMsgLen c v
    else if off = 8 then b.writeRspDone c v
    else (Status.accessDenied, b)
  else if off + n ≤ 0x2000 then
    let x := b.mboxAt c
    let put (r j : Nat) : Nat := if mask.testBit j then putBytes r (off - 0x1000 + j) 1 (byteSlice v j 1) else r
    (Status.ok, b.setMbox c { x with request := (List.range n).foldl put x.request })
  else (Status.accessDenied, b)

/-- A read of a channel: status and value. -/
def Block.mboxRead (b : Block) (c off n : Nat) (word : Bool) : Nat × Nat :=
  let x := b.mboxAt c
  if off < 0x1000 then
    if !word then (Status.malformed, 0)
    else if off = 0 ∨ off = 8 then (Status.accessDenied, 0)
    else if off = 4 then (Status.ok, x.status)
    else (Status.ok, 0)
  else (Status.ok, byteSlice (x.request + x.response * 256 ^ 0x1000) (off - 0x1000) n)

/-- MSG_LEN. -/
def execMsgLen (ini ch v : Nat) (s : State) : Host.Outcome State Fault Refusal :=
  s.answer (wfInitiator ini && wfMbox ch)
    (s.blk.doorbell (fun b => if mboxWriter ch ini then b.writeMsgLen ch v else (Status.accessDenied, b)))

/-- RSP_DONE. -/
def execRspDone (ini ch v : Nat) (s : State) : Host.Outcome State Fault Refusal :=
  s.answer (wfInitiator ini && wfMbox ch)
    (s.blk.doorbell (fun b => if mboxWriter ch ini then b.writeRspDone ch v else (Status.accessDenied, b)))

/-- The answer is placed in RESPONSE: BUSY clears and RSP_READY sets in one access, and MBOX_VECTOR's message is sent (R396). A response
that has not been taken stays (DESIGN CHOICE, log 215). -/
def Block.placeResponse (b : Block) (c : Nat) : Block :=
  let x := b.mboxAt c
  match x.answer with
  | some bytes =>
    if x.ready then b
    else
      let b := b.setMbox c { x with busy := false, ready := true, rspLen := bytes.length, response := bytesVal bytes, answer := none }
      if c < 32 then b.msix (b.reg Reg.mboxVector) else b
  | none => b

/-- MAILBOX_RESPONSE. -/
def execMailboxResponse (ch t : Nat) (s : State) : Host.Outcome State Fault Refusal :=
  s.answer (wfMbox ch) (if (s.blk.at t).served then (s.blk.at t).placeResponse ch else s.blk.at t)

end Sys2Proof.Machine
end

