-- ==== Sys2Proof/Machine/MemCmds.lean ====
section
/-! DEFINITION. The host's commands over memory and the scrubbing of it: shootdowns, wipes, patrol, column repair and the
retirement of banks (R143, R155 to R164). -/

namespace Sys2Proof.Machine

open Sys2Proof

/-- SHOOTDOWN_CMD: the entry's shootdown goes to every tap, and 32 acknowledgements are awaited (R143, R259). -/
def Block.writeShootdown (b : Block) (v : Nat) : Nat × Block :=
  b.guarded [badValue Reg.shootdownCmd v, (b.reg Reg.shootdownStatus ≥ 128, Abort.busy)]
    (fun b =>
      let a := b.reg Reg.shootdownEntry
      (b.setReg Reg.shootdownStatus 128).snpCommand snpShootdown 368 0 127 15 b.node 0 [a] a 32)

/-- SHOOTDOWN_CMD. -/
def execShootdownCmd (v : Nat) (s : State) : Host.Outcome State Fault Refusal :=
  s.answer true (s.blk.host (fun b => b.writeShootdown v))

/-! Wipes. -/

/-- Migrations that hold a frame of a bank are abandoned before the bank is wiped (R232). -/
def Block.abandonBank (b : Block) (bank : Nat) : Block :=
  let here (p : Nat × Nat) : Bool := p.1 == b.node && bankOfFrame p.2 == bank
  ((List.range 32).filter (fun m => b.reg (Reg.mslotState m) != 0 && (here (b.mslotSource m) || here (b.mslotDest m)))).foldl
    (fun b m => b.abandon m Status.abortedByHost) b

/-- WIPE_CMD with the target in WIPE_TARGET (R157, R232). -/
def Block.writeWipeCmd (b : Block) (v : Nat) : Nat × Block :=
  let x := b.reg Reg.wipeTarget
  let frame := x.testBit 31
  let u := x % 2 ^ 15
  let bank := if frame then bankOfFrame u else u
  b.guarded [badValue Reg.wipeCmd v, (b.reg Reg.wipeStatus ≥ 128, Abort.busy),
      (!frame && decide (u ≥ 128), Abort.condition),
      (b.bankRetired bank || (!frame && b.reg (Reg.bankState bank) == 2) || (frame && b.migratingFrame u), Abort.condition)]
    (fun b =>
      let b := if frame then b else b.abandonBank u
      let b := (b.wipeLines frame u).setReg Reg.wipeStatus 128
      { b with mem := { b.mem with wipe := some (frame, u) } })

/-- WIPE_TARGET, then WIPE_CMD. -/
def Block.wipeCommand (b : Block) (target : Nat) : Nat × Block :=
  match b.writePlain [(Reg.wipeTarget, target)] with
  | (0, b') => b'.writeWipeCmd 1
  | (a, b') => (a, b')

/-- BANK_WIPE. -/
def execBankWipe (bank : Nat) (s : State) : Host.Outcome State Fault Refusal :=
  s.answer true (s.blk.host (fun b => b.wipeCommand bank))

/-- FRAME_WIPE. -/
def execFrameWipe (frame : Nat) (s : State) : Host.Outcome State Fault Refusal :=
  s.answer true (s.blk.host (fun b => b.wipeCommand (2 ^ 31 + frame)))

/-! Patrol (R160, R161). -/

/-- The user line at a position of the pass: the banks in turn, then their lines. -/
def patrolLineAt (p : Nat) : Nat :=
  let bank := p % 128
  let k := p / 128
  (bank / 64) * 2 ^ 24 + (k / 1024) * 2 ^ 16 + (bank % 64) * 2 ^ 10 + k % 1024

/-- PATROL_VISIT: the next line of the pass is voted and, if valid, read and corrected. A retired bank is passed over, and its
CE_PASS keeps the count of its last service (R167). -/
def Block.patrolVisit (b : Block) : Block :=
  let p := b.reg Reg.patrolLine
  let l := patrolLineAt p
  let b := if p = 0 then ((List.range 128).filter (fun k => !b.bankRetired k)).foldl (fun b k => b.setReg (Reg.cePass k) 0) b else b
  let b := if b.bankRetired (p % 128) then b else (b.readLine l).2.2
  if p + 1 = 2 ^ 25 then (b.setReg Reg.patrolLine 0).count Reg.patrolPasses 1 else b.setReg Reg.patrolLine (p + 1)

/-- Whether a repair walk of a bank runs: its repair is armed and not yet in use (R162). -/
def Block.walking (b : Block) (bank : Nat) : Bool :=
  (b.reg (Reg.repair bank)).testBit 14 && !(b.reg (Reg.repair bank)).testBit 15 && !b.bankRetired bank

/-- Whether the patrol may visit its next line: it yields to a wipe and to column repair (R161). -/
def Block.patrolFree (b : Block) : Bool :=
  !b.wiping (patrolLineAt (b.reg Reg.patrolLine)) && !b.walking (b.reg Reg.patrolLine % 128)

/-- PATROL_VISIT. -/
def execPatrolVisit (t : Nat) (s : State) : Host.Outcome State Fault Refusal :=
  s.answer true (s.blk.eventIf t Block.patrolFree Block.patrolVisit)

/-! Column repair (R162). -/

/-- One line of a repair walk: read, corrected and rewritten with the repaired position stored in SPARE. -/
def Block.repairLine (b : Block) (l : Nat) : Block :=
  match b.voteLine l with
  | (true, _, b) =>
    let b := (b.readLine l).2.2
    (List.range 8).foldl (fun b i => b.writeColumn l (8 * l + i) (b.readColumn l (8 * l + i))) b
  | (false, _, b) => b

/-- REPAIR_WALK_END: the walk has rewritten every valid line of the bank, and the repair is in use. -/
def Block.repairWalk (b : Block) (bank : Nat) : Block :=
  let lines := (b.mem.lines.keys).filter (fun l => bankOfLine l == some bank)
  let b := lines.foldl (fun b l => b.repairLine l) b
  b.setReg (Reg.repair bank) (2 ^ 15 + b.reg (Reg.repair bank) % 128)

/-- REPAIR_WALK_END. -/
def execRepairWalkEnd (bank t : Nat) (s : State) : Host.Outcome State Fault Refusal :=
  s.answer (wfBank bank) (s.blk.eventIf t
    (fun b => b.walking bank) (fun b => b.repairWalk bank))

/-! Retirement (R163, R164). -/

/-- RETIRE_BANK. -/
def Block.writeRetireBank (b : Block) (bank : Nat) : Nat × Block :=
  b.guarded [badValue Reg.retireBank bank, (b.bankRetired bank, Abort.condition)]
    (fun b => if b.reg (Reg.bankState bank) = 2 then b else b.setBankState bank 2)

/-- RETIRE_BANK. -/
def execRetireBank (bank t : Nat) (s : State) : Host.Outcome State Fault Refusal :=
  s.answer true ((s.blk.at t).host (fun b => b.writeRetireBank bank))

/-- COUNTER_CLEAR: CE1, CE2, UE and CE_PASS to 0; a PROPOSED bank returns to service. -/
def Block.writeCounterClear (b : Block) (bank v : Nat) : Nat × Block :=
  b.guarded [badValue (Reg.counterClear bank) v]
    (fun b =>
      let b := b.setRegs [(Reg.ce1 bank, 0), (Reg.ce2 bank, 0), (Reg.ue bank, 0), (Reg.cePass bank, 0)]
      if b.reg (Reg.bankState bank) = 1 then b.setBankState bank 0 else b)

/-- COUNTER_CLEAR. -/
def execCounterClear (bank v : Nat) (s : State) : Host.Outcome State Fault Refusal :=
  s.answer true (s.blk.host (inRecord (wfBank bank) (fun b => b.writeCounterClear bank v)))

/-- Whether a DRAINING bank retires: no page is left, by its last complete scan, and the grace period is over. -/
def Block.retireDue (b : Block) (bank : Nat) : Bool :=
  b.reg (Reg.bankState bank) == 2 && b.mig.scanClean.contains bank &&
    (match b.mem.drainSince.look bank with
     | some since => decide (b.run ≥ since + ms (b.reg Reg.retireGraceMs))
     | none => true)

/-- A health fuse blown (R472): its position in the order of Table 15.2. -/
def Block.blowFuse (b : Block) (i : Nat) : Block := { b with fuses := { b.fuses with health := putBit b.fuses.health i true } }

/-- A bank retires: its state, CAPACITY and BANKS_IN_SERVICE, and its health fuse. -/
def Block.retireBank (b : Block) (bank : Nat) : Block :=
  let b := (b.setBankState bank 3).setReg Reg.capacity (b.reg Reg.capacity - 2 ^ 24)
  (b.setReg Reg.banksInService (b.reg Reg.banksInService - 1)).blowFuse (952 + bank)

/-- BANK_RETIRE. -/
def execBankRetire (bank t : Nat) (s : State) : Host.Outcome State Fault Refusal :=
  s.answer (wfBank bank) (s.blk.eventIf t (fun b => b.retireDue bank) (fun b => b.retireBank bank))

end Sys2Proof.Machine
end

