-- ==== Sys2Proof/Machine/Scarabs.lean ====
section
/-! DEFINITION. The end of attempts by abort and retirement, stealing, traps and take-over, kernel updates and the host's
placement commands (R179, R205 to R214). -/

namespace Sys2Proof.Machine

open Sys2Proof

/-! RUN_ABORT (R205). -/

/-- A write of a run index to RUN_ABORT. -/
def Block.writeRunAbort (b : Block) (x : Nat) : Nat × Block :=
  let st := (b.runAt x).state
  b.guarded [badValue Reg.runAbort x, (st == .free || st == .ending, Abort.condition)] (fun b =>
    if (b.runAt x).active? then b.drainTo x Status.abortedByHost 0
    else b.finish x Status.abortedByHost 0)

/-- RUN_ABORT. -/
def execRunAbort (run t : Nat) (s : State) : Host.Outcome State Fault Refusal :=
  s.answer true ((s.blk.at t).host (fun b => b.writeRunAbort run))

/-! Retirement and restart (R209, R210, R447). -/

/-- The runs in flight in any of the listed regions, and those that start there, lose their attempts. -/
def Block.loseAttempts (b : Block) (rs : List Nat) (status : Nat) : Block :=
  ((rs.flatMap (fun r => (b.runOf r).toList ++ (b.disp.claim.look r).toList)).eraseDups).foldl (fun b x => b.loseAttempt x status) b

/-- An attempt ended: the run starts anew from the head of its list, or its completion record carries the status. -/
def Block.endAttempt (b : Block) (x status : Nat) : Block :=
  let run := b.runAt x
  let (st, desc, b) := b.kernelDesc (b.actor run.home) run.kernel
  if st = Status.ok ∧ kRestartable desc ∧ run.restarts < b.reg Reg.restartLimit then
    let b := b.withdraw x
    let run := b.runAt x
    let b := b.setRun x { run with
      restarts := run.restarts + 1, held := [], set := [], slots := [], gens := [], nextSlots := [], phase := 0,
      anchor := 0xFF, started := false, poisoned := false, retiring := none, done := none, yielded := false,
      hostPreempt := false, preemptor := none, fails := 0, staging := false, lastStatus := status }
    (((b.count Reg.restarts 1).trace (b.actor run.home) .restart (some x) { status }).listHead x .ready).refreshBorders
  else b.finish x status 0

/-- Whether the window edge of a die-level reset is still to come (R446, R447). -/
def Block.draining (b : Block) : Bool :=
  match b.clk.dieReset with
  | some d => d.step == .draining
  | none => false

/-- RUN_RETIRED: once every ledger of the set shows final status; an attempt that a fence ends stands until the window edge, and
a run that the host has aborted meanwhile ends (R205). -/
def Block.runRetired (b : Block) (x : Nat) : Block :=
  match (b.runAt x).retiring with
  | some st =>
    let run := b.runAt x
    if st = Status.seamFence && b.draining then b
    else if run.state = .preempted ∨ (run.active? ∧ b.drained x) then
      match run.done with
      | some (e, res) => if e = Status.abortedByHost then b.finish x e res else b.endAttempt x st
      | none => b.endAttempt x st
    else b
  | none => b

/-- RUN_RETIRED. -/
def execRunRetired (run t : Nat) (s : State) : Host.Outcome State Fault Refusal :=
  s.answer (wfRun run) (s.blk.event t (fun b => b.unlessWiped (fun b => b.runRetired run)))

/-! RESERVE (R197). -/

/-- The rows by which a region becomes idle at time `t`. -/
def freeRow (t : Nat) : Instr → Option (State → Host.Outcome State Fault Refusal)
  | .runEnd x t' => atEdge t t' (execRunEnd x t')
  | .preemption x t' => atEdge t t' (execPreemption x t')
  | .startEdge x t' => atEdge t t' (execStartEdge x t')
  | .preemptCancel x t' => atEdge t t' (execPreemptCancel x t')
  | .runRetired x t' => atEdge t t' (execRunRetired x t')
  | .copyEnd r slot t' => atEdge t t' (execCopyEnd r slot t')
  | _ => none

/-- RESERVE. -/
def execReserve (k prio t : Nat) (s : State) : Host.Outcome State Fault Refusal :=
  s.answer (wfScarab k && decide (prio < 8)) (s.blk.eventIf t (fun b => b.scarabRuns k)
    (fun b => b.unlessWiped (fun b => b.reserve ((s.settle (freeRow t)).blk.at t) k prio)))

/-- After a remap: bound runs whose regions no longer form their span end their attempt, and queued runs whose kernel can
no longer be placed end with RETIRED; last sets anchored at a retired region are cleared (R190, R197, R210). -/
def Block.afterRemap (b : Block) : Block :=
  let b := { b with disp := { b.disp with
    lastSet := b.disp.lastSet.filter (fun e => !b.isRetired (e.2 - 1)) } }.dropStale
  let b := (b.disp.runs.map (·.1)).foldl (fun b x =>
    let (st, desc, b) := b.kernelDesc (b.actor (b.runAt x).home) (b.runAt x).kernel
    if st = Status.ok ∧ (b.runAt x).state = .preempted ∧ !b.spanStands x desc then b.endAttempt x Status.retired else b) b
  (b.disp.runs.map (·.1)).foldl (fun b x =>
    let (st, desc, b) := b.kernelDesc (b.actor (b.runAt x).home) (b.runAt x).kernel
    if st = Status.ok ∧ ((b.runAt x).state = .ready ∨ (b.runAt x).state = .delayed) ∧ !b.placeable desc then
      b.finish x Status.retired 0
    else b) b

/-! Stealing (R206 to R208, R211). -/

/-- Whether a listed run may be stolen from scarab j: never when bound; from a scarab whose lists are open, whatever its
age, NO_STEAL and BROOD_LOCK. -/
def Block.eligible (b : Block) (j x : Nat) : Bool :=
  let run := b.runAt x
  let free := !b.scarabRuns j
  run.state == .ready &&
    (free || (!run.noSteal && b.run ≥ run.listedAt + us (b.reg Reg.stealAgeUs) &&
      (match b.kernelDesc j run.kernel with
        | (st, desc, _) => !(st == Status.ok && kBroodLock desc))))

/-- The run a thief takes from scarab j: nearest the tail of the highest-priority list that holds an eligible run. -/
def Block.lootOf (b : Block) (j : Nat) : Option Nat :=
  (List.range 8).findSome? (fun p => (b.readyList j p).reverse.find? (b.eligible j))

/-- Runs in the ready lists of a scarab. -/
def Block.readyCount (b : Block) (k : Nat) : Nat := sumOf ((List.range 8).map (fun p => (b.readyList k p).length))

/-- Whether scarab k is a thief that takes its round now: rounds of one tick are taken in ascending scarab number, one each (R207). The
idle-region condition falls away for lists that are open. -/
def Block.isThief (b : Block) (k : Nat) : Bool :=
  b.scarabRuns k && b.readyCount k == 0 && b.reg Reg.stealRadius != 0 &&
    (b.disp.round.1 != b.clock + 1 || decide (b.disp.round.2 < k))

/-- The victim of a round: of the probed scarabs with an eligible run, the one with the most runs, ties to the first. -/
def Block.roundVictim (b : Block) (k d : Nat) : Option Nat :=
  let idle := (brood k).any b.idleAny
  leastBy (fun j => 2 ^ 20 - b.readyCount j)
    ((probeRound k d).filter (fun j => (b.lootOf j).isSome && (idle || !b.scarabRuns j)))

/-- A run moved from its home scarab to the tail of scarab k's list of the same priority (R207). -/
def Block.moveRun (b : Block) (x k d : Nat) : Block :=
  let j := (b.runAt x).home
  let b := (b.unlist x).modRun x (fun r => { r with home := k, staging := false })
  let b := b.listTail x .ready
  let b := ((b.count Reg.steals 1).count (Reg.stealsIn k) 1).count (Reg.stealsOut j) 1
  (b.trace k .steal (some x) { peer := j, detail := d, count := 1 }).trace (b.actor j) .stolen (some x)
    { peer := k, detail := d, count := 1 }

/-- THIEF_ROUND of scarab k: rounds of increasing distance, up to the first in which it steals. -/
def Block.thiefRounds (b : Block) (k : Nat) : Block :=
  let b := { b with disp := { b.disp with round := (b.clock + 1, k) } }
  match (List.range (b.reg Reg.stealRadius)).findSome? (fun i => (b.roundVictim k (i + 1)).map (fun j => (i + 1, j))) with
  | none => b
  | some (d, j) =>
    match b.lootOf j with
    | none => b
    | some x =>
      if b.fmode fnPlacement = 0 then
        b.moveRun x k d
      else b.propose k x { region := 0xFF, peer := k, detail := 4, count := 1 }

/-- THIEF_ROUND. -/
def execThiefRound (k t : Nat) (s : State) : Host.Outcome State Fault Refusal :=
  s.answer (wfScarab k) (s.blk.eventIf t (fun b => b.clock % tick == 0 && b.isThief k) (fun b => b.thiefRounds k))

/-! Traps, draining and return (R211, R212). -/

/-- A scarab leaves RUNNING; its own work, and that of every scarab whose deputy it was, passes to another (R211). -/
def Block.leaveRunning (b : Block) (k st : Nat) : Block :=
  let served := b.serves k
  let b := b.setReg (Reg.scarabState k) st
  let b := { b with disp := { b.disp with returning := b.disp.returning.put k none } }
  (k :: served.filter (· != k)).foldl (fun b j => match b.servant j with
    | some d => if d = j then b else b.trace d .takeover none { peer := j }
    | none => b) b

/-- SCARAB_TRAP: a microcode fetch at `addr` traps. -/
def Block.scarabTrap (b : Block) (k addr : Nat) : Block :=
  let b := (b.setReg (Reg.trapAddr k) (addr % 2 ^ 32)).trace k .trap none {}
  (b.logEvent 0x0603 0 (320 + k) (addr % 2 ^ 32)).leaveRunning k 3

/-- SCARAB_TRAP: a scarab that is HALTED or TRAPPED already fetches nothing. -/
def execScarabTrap (k addr t : Nat) (s : State) : Host.Outcome State Fault Refusal :=
  s.answer (wfScarab k) (s.blk.eventIf t (fun b => b.reg (Reg.scarabState k) ≤ 1) (fun b => b.scarabTrap k addr))

/-- A write of CONTROL: 1 makes a RUNNING scarab DRAINING, 2 returns a HALTED or TRAPPED one to RUNNING at the next
tick. -/
def Block.writeControl (b : Block) (k v : Nat) : Nat × Block :=
  let st := b.reg (Reg.scarabState k)
  b.guarded [badValue (Reg.control k) v, (if v = 1 then st != 0 else st ≤ 1, Abort.condition)] (fun b =>
    if v = 1 then b.leaveRunning k 1
    else { b with disp := { b.disp with restartDue := b.disp.restartDue.put k (tickAfter b.clock + 1) } })

/-- SCARAB_DRAIN. -/
def execScarabDrain (k : Nat) (s : State) : Host.Outcome State Fault Refusal :=
  s.answer true (s.blk.host (inRecord (wfScarab k) (fun b => b.writeControl k 1)))

/-- Whether a DRAINING scarab has nothing left: its bound and delayed runs are its deputy's. -/
def Block.haltDue (b : Block) (k : Nat) : Bool :=
  b.reg (Reg.scarabState k) == 1 &&
    (List.range 8).all (fun p => (b.readyList k p).all (fun x => (b.runAt x).state == .preempted)) &&
    b.disp.runs.all (fun e => !(e.2.home == k && e.2.state == .starting))

/-- SCARAB_HALTED. -/
def execScarabHalted (k t : Nat) (s : State) : Host.Outcome State Fault Refusal :=
  s.answer (wfScarab k) (s.blk.eventIf t (fun b => b.haltDue k) (fun b => b.setReg (Reg.scarabState k) 2))

/-- SCARAB_RESTART. -/
def execScarabRestart (k t : Nat) (s : State) : Host.Outcome State Fault Refusal :=
  s.answer true ((s.blk.at t).host (inRecord (wfScarab k) (fun b => b.writeControl k 2)))

/-! KERNEL_UPDATE (R179). -/

/-- The slots of a region that hold an image of kernel k outside its active plane. -/
def Block.slotsOfKernel (b : Block) (r k : Nat) : List Nat :=
  (List.range 16).filter (fun s =>
    let d := b.slotDesc (b.phys r) s
    (d.state == .loaded || d.state == .damaged) && d.kernel == k && b.activeSlot r != some s)

/-- Whether the active plane of a region holds an image of kernel k. -/
def Block.activeOfKernel (b : Block) (r k : Nat) : Bool :=
  match b.activeSlot r with
  | some s => (b.slotDesc (b.phys r) s).kernel == k && (b.slotDesc (b.phys r) s).state != .empty
  | none => false

/-- One region under KERNEL_UPDATE. -/
def Block.updateRegion (b : Block) (k r : Nat) : Block :=
  let b := if b.activeOfKernel r k then { b with disp := { b.disp with stale := b.disp.stale.put r true } } else b
  (b.slotsOfKernel r k).foldl (fun b s =>
    b.ctxSubmit { kind := .clear, who := .scarab, region := r, phys := b.phys r, slot := s }) b

/-- A write of KERNEL_UPDATE. -/
def Block.writeKernelUpdate (b : Block) (k : Nat) : Nat × Block :=
  b.guarded [badValue Reg.kernelUpdate k,
      (b.disp.runs.any (fun e => e.2.state != .free && e.2.kernel == k), Abort.condition)] (fun b =>
    let b := { b with disp := { b.disp with lastSet := b.disp.lastSet.put k 0 } }
    let b := (List.range 32).foldl (fun b j =>
      b.setScarab j { b.scarab j with cache := (b.scarab j).cache.filter (fun c => c.kernel != k) }) b
    ((List.range 256).filter (fun r => !b.isRetired r)).foldl (fun b r => b.updateRegion k r) b)

/-- KERNEL_UPDATE. -/
def execKernelUpdate (k : Nat) (s : State) : Host.Outcome State Fault Refusal :=
  s.answer true (s.blk.host (fun b => b.writeKernelUpdate k))

/-! The host's placement commands (R213, R214). -/

/-- A write of PROPOSAL_POP: the head proposal removed. -/
def Block.writeProposalPop (b : Block) (v : Nat) : Nat × Block :=
  b.guarded [badValue Reg.proposalPop v] (fun b =>
    { b with disp := { b.disp with proposals := b.disp.proposals.drop 1 } })

/-- PROPOSAL_POP. -/
def execProposalPop (v : Nat) (s : State) : Host.Outcome State Fault Refusal :=
  s.answer true (s.blk.host (fun b => b.writeProposalPop v))

/-- A command that completes at once: its final status, and its HOST_CMD record. -/
def Block.hcmdDone (b : Block) (x status : Nat) : Block :=
  (b.setReg Reg.hcmdStatus status).trace (b.actor (b.runAt x).home) .hostCmd (some x) { status }

/-- A command that is carried out: HCMD_STATUS shows it in progress. -/
def Block.hcmdOpen (b : Block) (kind x target : Nat) : Block :=
  { b with disp := { b.disp with hcmd := some ⟨kind, x, target, b.run⟩ } }.setReg Reg.hcmdStatus 128

/-- PLACE. -/
def Block.hostPlace (b : Block) (x anchor : Nat) : Block :=
  let run := b.runAt x
  let k := b.actor run.home
  if (run.state ≠ .ready ∧ run.state ≠ .preempted) ∨ anchor ≥ 256 ∨ b.isRetired anchor then
    b.hcmdDone x Status.malformed
  else if run.state = .preempted then
    if anchor ≠ run.anchor then b.hcmdDone x Status.accessDenied
    else if b.boundLost x then (b.finish x Status.poison 0).hcmdDone x Status.poison
    else
      let (st, desc, b) := b.kernelDesc k run.kernel
      if st ≠ Status.ok then (b.finish x st 0).hcmdDone x st
      else if b.resumable x desc then
        ((b.hcmdOpen 1 x anchor).begin k x 6 desc run.set (run.slots.map (fun s => (s, false))) []).trace k
          .hostCmd (some x) { region := anchor }
      else b.hcmdDone x Status.accessDenied
  else
    match b.kernelPlan k x 0 with
    | (st, desc, images, b) =>
      if st ≠ Status.ok then (b.finish x st 0).hcmdDone x st
      else match (b.kernelSet anchor desc).bind (fun set =>
          (b.loadPlan x run.kernel images set).map (fun p => (set, p))) with
        | none => b.hcmdDone x Status.accessDenied
        | some (set, plan) =>
          ((b.hcmdOpen 1 x anchor).begin k x 6 desc set plan images).trace k .hostCmd (some x)
            { region := anchor }

/-- STEAL. -/
def Block.hostSteal (b : Block) (x target : Nat) : Block :=
  if (b.runAt x).state ≠ .ready ∨ target > 31 then b.hcmdDone x Status.malformed
  else
    let b := (b.unlist x).modRun x (fun r => { r with home := target, staging := false })
    (b.listTail x .ready).hcmdDone x Status.ok

/-- PREEMPT: the run's set is drained under R123. -/
def Block.hostPreempt (b : Block) (x : Nat) : Block :=
  let run := b.runAt x
  if run.state ≠ .running then b.hcmdDone x Status.malformed
  else
    let b := (b.hcmdOpen 3 x 0).setRun x { run with state := .preempting, hostPreempt := true, pendingFrom := b.run }
    run.set.foldl (fun b r => b.setSwitchPending r true) b

/-- A write of HCMD_GO: executes the command in the command record. -/
def Block.writeHcmdGo (b : Block) (v : Nat) : Nat × Block :=
  b.guarded [badValue Reg.hcmdGo v, (b.reg Reg.hcmdStatus ≥ 128, Abort.busy), (b.fmode fnPlacement = 0, Abort.mode)]
    (fun b =>
      let x := b.reg Reg.hcmdRun
      match b.reg Reg.hcmdKind with
      | 1 => b.hostPlace x (b.reg Reg.hcmdTarget)
      | 2 => b.hostSteal x (b.reg Reg.hcmdTarget)
      | 3 => b.hostPreempt x
      | _ => b.hcmdDone x Status.malformed)

/-- A host command: the command record written, then HCMD_GO. -/
def Block.hostCmd (b : Block) (kind x target : Nat) : Nat × Block :=
  match b.writePlain [(Reg.hcmdKind, kind), (Reg.hcmdRun, x), (Reg.hcmdTarget, target)] with
  | (0, b') => b'.writeHcmdGo 1
  | (a, b') => (a, b')

/-- PLACE. -/
def execPlace (run anchor t : Nat) (s : State) : Host.Outcome State Fault Refusal :=
  s.answer true ((s.blk.at t).unlessWiped (fun b => b.host (fun b => b.hostCmd 1 run anchor)))

/-- STEAL. -/
def execSteal (run target t : Nat) (s : State) : Host.Outcome State Fault Refusal :=
  s.answer true ((s.blk.at t).host (fun b => b.hostCmd 2 run target))

/-- PREEMPT. -/
def execPreempt (run t : Nat) (s : State) : Host.Outcome State Fault Refusal :=
  s.answer true ((s.blk.at t).unlessWiped (fun b => b.host (fun b => b.hostCmd 3 run 0)))

end Sys2Proof.Machine
end

