-- ==== Sys2Proof/Machine/Relocate.lean ====
section
/-! DEFINITION. Retirement of slots, twin links, ports and risers, the replacement order of Table 4.3, and the relocation of
contexts (R90, R105, R106, R209, R241 to R243, R252). -/

namespace Sys2Proof.Machine

open Sys2Proof

/-! The slot map (R103). -/

/-- Position of a physical slot on its die. -/
def posOf (p : Nat) : Nat := p % 136

/-- The block with the use of a slot changed. -/
def Block.setUse (b : Block) (p : Nat) (u : SlotUse) : Block :=
  { b with rgn := { b.rgn with slotUse := b.rgn.slotUse.set SlotUse.default p u } }

/-- Whether a health fuse is blown. -/
def Block.fuseBit (b : Block) (i : Nat) : Bool := b.fuses.health.testBit i

/-! What ends with a slot (R90, R209). -/

/-- The operations of a physical slot end RETIRED, the targets of those that ran left EMPTY, its pending captures fail and its
pending switches are dropped (R81, R90, R95). -/
def Block.retireOps (b : Block) (r p : Nat) : Block :=
  let d := p / 136
  let here (o : CtxOp) : Bool := o.phys == p
  let under := (b.ctx.running.look d).filter here
  let ops := (b.ctx.prefetch.look p).toList ++ under ++ (b.ctx.engineQueue.look d).filter here ++
    b.ctx.waiting.look p
  let b := { b with ctx := { b.ctx with
    prefetch := b.ctx.prefetch.put p none
    running := b.ctx.running.put d ((b.ctx.running.look d).filter (fun o => !here o))
    engineQueue := b.ctx.engineQueue.put d ((b.ctx.engineQueue.look d).filter (fun o => !here o))
    waiting := b.ctx.waiting.put p []
    writeBack := b.ctx.writeBack.put p none
    captureTaken := b.ctx.captureTaken.put r none } }
  let b := if b.reg (Reg.captureStatus r) = 1 then b.setReg (Reg.captureStatus r) 3 else b
  let b := { b with ctx := { b.ctx with captureDue := b.ctx.captureDue.put r false } }
  let b := under.foldl (fun b o => b.clearSlot r p o.slot) b
  let b := ops.foldl (fun b o => b.ctxDone o Status.retired) b
  (b.ctx.switches.filter (fun q => q.regions.contains r)).foldl (fun b q =>
    (q.regions.foldl (fun b x => b.setSwitchPending x false) b).endSwitch q Status.retired) b

/-- The runs still in flight in a region end there with RETIRED, and one that starts there goes back to its list (R209). -/
def Block.endThere (b : Block) (r : Nat) : Block :=
  let b := match b.disp.claim.look r with
    | some x => b.loseAttempt x Status.retired
    | none => b
  match b.runOf r with
  | some x => b.endAttempt x Status.retired
  | none => b

/-- What the port of a physical slot held of the region that leaves it: its cache lines and its translations. -/
def Block.dropPort (b : Block) (p : Nat) : Block :=
  { b with mem := { b.mem with caches := b.mem.caches.keep (fun k => k / 128 != p), tb := b.mem.tb.put p [] } }

/-- What is left in the bridge of a region that leaves its slot: open entries of its ledger and the stream-in packet in delivery
end with RETIRED (DEDUCED, log 179), and the bridge of its new slot holds nothing. -/
def Block.dropBridge (b : Block) (r : Nat) : Block :=
  let b := (b.ledger.filter (fun e => e.1 / 1024 == r && e.2.state == .opened)).foldl
    (fun b e => b.ledgerClose r (e.1 % 1024) Status.retired e.2.beatsDone) b
  let b := match b.rgn.inPacket.look r with
    | some q => b.complete 0 (b.riserPlace r).1 (b.riserPlace r).2 (dSrc q.sb) (dTag q.sb) Status.retired (q.taken / 2) 0
    | none => b
  { b with rgn := { b.rgn with
    tags := b.rgn.tags.keep (fun k => k / 64 != r), passed := b.rgn.passed.put r [], outPart := b.rgn.outPart.put r []
    outDone := b.rgn.outDone.put r none, inPacket := b.rgn.inPacket.put r none, bf := b.rgn.bf.put r 0
    fb := b.rgn.fb.put r 0, doneHeld := b.rgn.doneHeld.put r none, pendingFlag := b.rgn.pendingFlag.put r false } }

/-- What an object of the records of a region shows of it. -/
def Block.recordValue (b : Block) (r idx sub : Nat) : Nat :=
  if idx / 256 = 0x33 ∧ 0x10 ≤ sub ∧ sub < 0x20 then b.descWord r (sub - 0x10)
  else if idx / 256 = 0x32 ∧ 0x10 ≤ sub then b.ctx.maps.look (slotKey (b.phys r) (sub - 0x10))
  else b.reg (256 * idx + sub)

/-- The values that subindices 1 to `n` of a record of region r now hold are kept for its reads. -/
def Block.keepRecord (b : Block) (r idx n : Nat) : Block :=
  (List.range n).foldl (fun b0 i =>
    { b0 with rgn := { b0.rgn with kept := b0.rgn.kept.put (256 * idx + i + 1) (some (b.recordValue r idx (i + 1))) } }) b

/-! Relocation (R241, R242). -/

/-- The slots of region r that bound runs hold. -/
def Block.boundSlots (b : Block) (r : Nat) : List Nat :=
  (List.range 16).filter (fun s => b.disp.runs.any (fun e => e.2.state == .preempted && e.2.held.contains (r, s)))

/-- A list sorted by falling key; of equal keys the first stands first. -/
def sortDown (key : Nat → Nat) (l : List Nat) : List Nat :=
  l.foldr (fun x acc => acc.takeWhile (fun y => key y > key x) ++ x :: acc.dropWhile (fun y => key y > key x)) []

/-- The slots to be copied out of a physical slot, in the order of R241. -/
def Block.relocationOrder (b : Block) (r old : Nat) : List Nat :=
  let held := b.boundSlots r
  let live := (List.range 16).filter (fun s =>
    (b.slotDesc old s).state == .loaded || (b.slotDesc old s).state == .damaged)
  live.filter held.contains ++ sortDown (fun s => (b.slotDesc old s).lastIn) (live.filter (fun s => !held.contains s))

/-- The generations that bound runs are to find in the slots of region r once they are copied (R202, R210): a slot that
still held the run's context takes the generation of its copy; of any other slot none. -/
def Block.rehold (b : Block) (r old new : Nat) : Block :=
  let gen (s g : Nat) : Nat :=
    let x := b.slotDesc old s
    if x.gen = g ∧ (x.state = .loaded ∨ x.state = .damaged) then ((b.slotDesc new s).gen + 1) % 256 else 256
  { b with disp := { b.disp with runs := b.disp.runs.map (fun e =>
      if e.2.state = .preempted ∧ e.2.set.contains r then
        (e.1, { e.2 with gens := ((e.2.set.zip e.2.slots).zip e.2.gens).map (fun z =>
          if z.1.1 = r then gen z.1.2 z.2 else z.2) })
      else e) } }

/-- Region r's contexts copied from its old slot to the one it now has; a solo spare's other context slots are cleared at
once (R242). -/
def Block.relocate (b : Block) (r old : Nat) : Block :=
  let new := b.phys r
  let order := b.relocationOrder r old
  let b := b.rehold r old new
  let b := if b.slotUse old = .spare then
      ((List.range 16).filter (fun s => !order.contains s)).foldl (fun b s =>
        (b.setStore old s []).clearDesc old s) b
    else b
  order.foldl (fun b s => b.ctxSubmit
    { kind := .copy, who := .relocation, region := r, phys := new, slot := s, fromUnit := old, fromSlot := s }) b

/-! The remap table (R102 to R106). -/

/-- PORT_ROUTE and PORT_PATH of a region, as its slot's port and riser stand. -/
def Block.routeRegion (b : Block) (r : Nat) : Block :=
  let p := b.phys r
  let port := b2n (b.fuseBit (408 + p))
  (b.setReg (Reg.portRoute r) (port + 2 * b2n (b.fuseBit (680 + p)))).setReg (Reg.portPath r) port

/-! Replies of a commit. -/

/-- Reply codes (Table 12.13). -/
abbrev rcAwaited : Nat := 1
abbrev rcStaged : Nat := 2
abbrev rcRefused : Nat := 3
abbrev rcAbsent : Nat := 4
abbrev rcNoReply : Nat := 5
abbrev rcApplied : Nat := 6
abbrev rcDiscarded : Nat := 7

/-- The reply of unit or node u in a table of replies. -/
def replyOf (w u : Nat) : Nat := bitsOf w (4 * u + 3) (4 * u)

/-- A table of replies with that of u replaced. -/
def putReply (w u c : Nat) : Nat := putBits w (4 * u + 3) (4 * u) c

/-- A unit that retires during a commit is dropped from it (R407). -/
def Block.dropReply (b : Block) (u : Nat) : Block :=
  if replyOf (b.reg Reg.unitReplies) u = rcAwaited then b.setReg Reg.unitReplies (putReply (b.reg Reg.unitReplies) u 0) else b

/-- Region r leaves its slot for position q of its die, or goes out of service. Its old slot takes the use given. -/
def Block.moveRegion (b : Block) (r : Nat) (q : Option Nat) (use : SlotUse) : Block :=
  let old := b.phys r
  let b := ((b.retireOps r old).endThere r).dropBridge r
  let b := if q.isNone then
      (((b.setReg (Reg.borderState r) 0).keepRecord r (0x3300 + r) 0x28).keepRecord r (0x3200 + r) 0x1F).keepRecord r (0x6200 + r) 6
        |>.keepRecord r (0xB100 + r) 12
    else b
  let b := ((b.blankPlanes r).dropPort old).setUse old use
  let b := { b with rgn := { b.rgn with closing := b.rgn.closing.put r (0, 0), resetDue := b.rgn.resetDue.put r false } }
  match q with
  | some q => ((b.setReg (Reg.position r) q).setUse (136 * dieOf r + q) .used).routeRegion r
  | none => (b.setReg (Reg.retired r) 1).dropReply r

/-- One slot retired, and its region replaced under Table 4.3: the block, and the regions that moved with their old slots. -/
def Block.retireSlot (b : Block) (p : Nat) : List (Nat × Nat) × Block :=
  let b := b.blowFuse p
  match b.regionAt p with
  | none => ([], b.setUse p .retired)
  | some r =>
    let d := dieOf r
    let o := partner r
    let log (b : Block) (new : Nat) : Block := b.logEvent 0x0104 1 r (d * 2 ^ 16 + posOf p * 2 ^ 8 + new)
    match b.sparePair, b.soloSpare d with
    | some q, _ =>
      let oldO := b.phys o
      let b := log (b.moveRegion r (some q) .retired) q
      if b.isRetired o then ([(r, p)], b) else ([(r, p), (o, oldO)], b.moveRegion o (some q) .spare)
    | none, some q => ([(r, p)], log (b.moveRegion r (some q) .retired) q)
    | none, none => ([], log (b.moveRegion r none .retired) 0xFF)

/-- Logical region on LA of a position's pair, for the log: the region at the position on LA, or on LB. -/
def Block.regionOfPosition (b : Block) (q : Nat) : Nat :=
  match b.regionAt q, b.regionAt (136 + q) with
  | some r, _ => r
  | none, some r => r
  | none, none => 0xFF

/-- A position whose twin link is lost (R106). -/
def Block.loseTwin (b : Block) (q : Nat) : Block :=
  if b.rgn.twinLost.contains q then b
  else ({ b with rgn := { b.rgn with twinLost := b.rgn.twinLost ++ [q] } }.blowFuse (272 + q)).logEvent 0x0105 1
    (b.regionOfPosition q) q

/-- A riser rerouted (R252). -/
def Block.rerouteRiser (b : Block) (p : Nat) : Block :=
  let b := (b.blowFuse (680 + p)).count Reg.riserReroutes 1
  match b.regionAt p with
  | some r => (b.routeRegion r).logEvent 0x0107 1 r (posOf p)
  | none => b.logEvent 0x0107 1 0xFF (posOf p)

/-- A memory port retired (R138): its cache and its translations are given up. -/
def Block.retirePort (b : Block) (p : Nat) : Block :=
  let b := (b.blowFuse (408 + p)).dropPort p
  match b.regionAt p with
  | some r => (b.routeRegion r).logEvent 0x0106 1 r (posOf p)
  | none => b.logEvent 0x0106 1 0xFF (posOf p)

/-- The exhausted groups that asked for a change hold nothing out of use any longer. -/
def Block.changeMade (b : Block) (row : Nat → Bool) (u : Nat) : Block :=
  { b with health := { b.health with exhausted := b.health.exhausted.filter (fun x => !(row x.row && x.unit == u)) } }

/-- A device commit's change takes effect (R105, R106, R252); the regions moved are relocated from that edge (R241, R471).
-/
def Block.applyChange (b : Block) : Remap → Block
  | .slot p =>
    let (moved, b) := b.retireSlot p
    let b := (b.count Reg.remapGen 1).changeMade (fun r => r == 0 || r == 3) p
    (moved.foldl (fun b e => b.relocate e.1 e.2) b).afterRemap.refreshBorders
  | .twin q => (((b.loseTwin q).count Reg.remapGen 1).changeMade (fun r => r == 1) q).afterRemap.refreshBorders
  | .riser p => (b.rerouteRiser p).changeMade (fun r => r == 3) p

end Sys2Proof.Machine
end

