-- ==== Sys2Proof/Machine/Courier.lean ====
section
/-! DEFINITION. The messages of the stewards to other nodes: forwarded requests and epoch messages, which travel as WRITEs and READs to
the node's mailbox (R354, R405, R414). The decision of a commit stands here too, since the end of such an access may abort one
(R410 to R415). -/

namespace Sys2Proof.Machine

open Sys2Proof

/-! Forwards (R405). -/

/-- The forward that carries a transport's transfer to a node. -/
def Block.forwardOf (b : Block) (via : Via) (node : Nat) : Option Forward :=
  b.lmp.forwards.find? (fun f => f.via == via && f.node == node)

/-- The lowest channel, from `lo` to 62, of a node that no forward uses. -/
def Block.freeChannel (b : Block) (node lo : Nat) : Option Nat :=
  ((List.range 63).drop lo).find? (fun c => !b.lmp.forwards.any (fun f => f.node == node && f.ch == c))

/-- The forwards but those of a transport; a message of theirs that is under way goes on with nobody waiting for its response. -/
def Block.endForward (b : Block) (via : Via) : Block :=
  { b with lmp := { b.lmp with
      forwards := b.lmp.forwards.filter (fun f => f.via != via)
      couriers := (b.lmp.couriers.filter (fun c => !(c.via == some via && c.stage == .ready))).map (fun c =>
        if c.via = some via then { c with via := none } else c) } }

/-- A forward ended with an ABORT to its requester (R405). -/
def Block.abortForward (b : Block) (f : Forward) (code : Nat) : Block :=
  (b.endForward f.via).lmpAbort f.via (bitsOf f.hdr 15 8) (bitsOf f.hdr 31 16) (bitsOf f.hdr 39 32) f.node code

/-! The accesses of a message (R354, R396). -/

/-- The next access of a message: local offset, bytes, whether a write, and its value. REQUEST is written in pieces of 1 KiB. -/
def Courier.access (c : Courier) : Nat × Nat × Bool × Nat :=
  let base := mboxBase + 0x4000 * c.ch
  match c.stage with
  | .request =>
    let d := (c.bytes.drop c.sent).take 1024
    (base + 0x1000 + c.sent, d.length, true, bytesVal d)
  | .submit => (base, 4, true, c.bytes.length)
  | .fetch => (base + 0x2000, roundUp c.rspLen 64, false, 0)
  | .finish => (base + 8, 4, true, 1)
  | _ => (base + 4, 4, false, 0)

/-- The block with a message replaced, and without it. -/
def Block.setCourier (b : Block) (c : Courier) : Block :=
  { b with lmp := { b.lmp with couriers := b.lmp.couriers.map (fun x => if x.id = c.id then c else x) } }

def Block.dropCourier (b : Block) (c : Courier) : Block :=
  { b with lmp := { b.lmp with couriers := b.lmp.couriers.filter (fun x => x.id != c.id) } }

/-- Whether a message has an access to send: messages for one channel go one after the other. -/
def Block.courierIdle (b : Block) (c : Courier) : Bool :=
  c.tag.isNone && c.stage != .ready &&
    !b.lmp.couriers.any (fun x => x.node == c.node && x.ch == c.ch && decide (x.id < c.id))

/-- A message's access leaves under a tag of the stewards, from 0 to 511; while none is free it waits (R249). -/
def Block.launch (b : Block) (c : Courier) : Block :=
  let (a, n, write, v) := c.access
  match b.freeTag 368 0 512, accessPieces 368 c.node a n write v 64 with
  | some tag, u :: _ => (b.setCourier { c with tag := some tag }).sendPiece tag u
  | _, _ => b

/-- Every message that has an access to send, and a route, sends it. -/
def Block.launchAll (b : Block) : Block :=
  (b.lmp.couriers.filter b.courierIdle).foldl (fun b c => if (b.routeTo c.node).isSome then b.launch c else b) b

/-- A message for a channel of another node. -/
def Block.postMessage (b : Block) (node ch : Nat) (bytes : List Byte) (via : Option Via) (fresh : Bool) : Block :=
  let c : Courier := { id := b.lmp.courierSeq, node, ch, bytes, via, fresh, stage := if fresh then .probe else .request }
  { b with lmp := { b.lmp with couriers := b.lmp.couriers ++ [c], courierSeq := b.lmp.courierSeq + 1 } }.launchAll

/-! Epoch messages (Table 12.12). -/

/-- The body of an epoch message, from its fields in the table's order. -/
def epochBody (cmd : Nat) (l : List Nat) : List Byte :=
  let field (i n : Nat) : List Byte := bytesOf n (nthD l i 0)
  match cmd with
  | 0x10 => field 0 4 ++ field 1 2 ++ field 2 2
  | 0x90 => field 0 4 ++ field 1 4 ++ field 2 4
  | 0x11 => field 0 4 ++ bytesOf 4 0 ++ field 1 8
  | 0x93 => field 0 4 ++ field 1 4 ++ field 2 8
  | 0x12 | 0x13 => field 0 4
  | _ => []

/-- A message to another node through channel 63: one that no route leads to is not sent. The stewards reach their own node without a
network. -/
def Block.epochMessage (b : Block) (node cmd : Nat) (fields : List Nat) : Block :=
  if node = b.node then b.emit .node node (cmd :: fields)
  else if (b.routeTo node).isNone then b.count Reg.pathLostCompletions 1
  else b.postMessage node 63 (lmpBytes (lmpHeader cmd 0 0 0 0 false false node) (epochBody cmd fields)) none true

/-- The answer to the epoch message in channel 63, if it is there and has none: a message, or an empty response. -/
def Block.epochAnswer (b : Block) (asked : Nat) (reply : Option (Nat × List Nat)) : Block :=
  let x := b.mboxAt 63
  if !x.busy || x.answer.isSome || byteSlice x.request 0 1 != asked then b
  else match reply with
    | some (cmd, fields) =>
      b.lmpSend (.mailbox 63) [lmpBytes (lmpHeader cmd (byteSlice x.request 1 1) 0 0 0 false false b.node) (epochBody cmd fields)]
    | none => b.lmpSilent (.mailbox 63)

/-! Codes. -/

/-- COMMIT_STATE (Table 12.16). -/
abbrev csIdle : Nat := 0
abbrev csPreparing : Nat := 1
abbrev csDecided : Nat := 2
abbrev csApplied : Nat := 3
abbrev csAborted : Nat := 4

/-- Staging groups (Table 12.11). -/
abbrev grpModes : Nat := 0
abbrev grpRoutes : Nat := 1
abbrev grpRemap : Nat := 2
abbrev grpInitiatorMap : Nat := 3

/-- A table of replies of the listed units, all alike. -/
def repliesOf (us : List Nat) (c : Nat) : Nat := us.foldl (fun w u => putReply w u c) 0

/-- The units or nodes below n that have a reply code. -/
def withReply (n w c : Nat) : List Nat := (List.range n).filter (fun u => replyOf w u == c)

/-- A table of replies with every one of a code replaced by another. -/
def mapReplies (n w c c' : Nat) : Nat := (withReply n w c).foldl (fun w u => putReply w u c') w

/-! Swarm time and the commit log. -/

/-- Swarm time in units of 10 ns (R351). -/
def Block.swarmTs (b : Block) : Nat := b.slewTime.swarmAt 0 / 256 % 2 ^ 64

/-- The first multiple of EPOCH_US that is at least `d` units of 10 ns after now. -/
def Block.epochAfter (b : Block) (d : Nat) : Nat := roundUp (b.swarmTs + d) (100 * b.reg Reg.epochUs)

/-- A commit log record (Table 12.14). -/
def logRecord (epoch outcome scope groups decided applyAt undelivered first code : Nat) : Nat :=
  epoch + outcome * 2 ^ 32 + scope * 2 ^ 40 + groups * 2 ^ 48 + decided * 2 ^ 64 + applyAt * 2 ^ 128 +
    undelivered * 2 ^ 192 + first * 2 ^ 208 + code * 2 ^ 224

/-- A record at the head of COMMIT_LOG, which holds 64 (R415). -/
def Block.pushRecord (b : Block) (r : Nat) : Block :=
  b.setReg Reg.commitLog ((b.reg Reg.commitLog * 2 ^ 256 + r) % 2 ^ 16384)

/-- Record i of COMMIT_LOG, newest first. -/
def Block.record (b : Block) (i : Nat) : Nat := bitsOf (b.reg Reg.commitLog) (256 * i + 255) (256 * i)

/-- The record of an epoch that this node coordinated across the swarm. -/
def Block.recordOf (b : Block) (epoch : Nat) : Option Nat :=
  (List.range 64).find? (fun i => bitsOf (b.record i) 31 0 == epoch && bitsOf (b.record i) 39 32 != 0 &&
    bitsOf (b.record i) 47 40 == 1)

/-- Record i with a field replaced. -/
def Block.putRecord (b : Block) (i hi lo v : Nat) : Block :=
  b.setReg Reg.commitLog (putBits (b.reg Reg.commitLog) (256 * i + hi) (256 * i + lo) v)

/-- Participants still STAGED in NODE_REPLIES. -/
def Block.undeliveredCount (b : Block) : Nat := (withReply 4096 (b.reg Reg.nodeReplies) rcStaged).length

/-! The end of a commit. -/

/-- The block with the commit run replaced. -/
def Block.setCommit (b : Block) (r : Option CommitRun) : Block := { b with commit := { b.commit with run := r } }

/-- A participant is idle again. -/
def Block.partIdle (b : Block) : Block :=
  { b.setRegs [(Reg.partState, 0), (Reg.partEpoch, 0), (Reg.partCoord, 0xFFFF), (Reg.partSince, 0)] with
    commit := { b.commit with quiet := false } }

/-- The nodes of COMMIT_NODES. -/
def Block.commitNodes (b : Block) : List Nat := onesOf 4096 (b.reg Reg.commitNodes)

/-- A device commit that aborts is begun again 100 µs later (R409). -/
def Block.retryChange (b : Block) (c : CommitRun) : Block :=
  match c.change with
  | some x => { b with commit := { b.commit with retry := b.commit.retry ++ [(x, b.run + us 100)] } }
  | none => b

/-- A decision to abort (R412): nothing is applied, staged units discard, the lock is lifted. `first` and `code` name the
first refusal; `nodes` says whether nodes or units replied. -/
def Block.decideAbort (b : Block) (c : CommitRun) (nodes : Bool) (first code : Nat) : Block :=
  let w := b.reg Reg.unitReplies
  let w := mapReplies 442 (mapReplies 442 w rcStaged rcDiscarded) rcAwaited rcNoReply
  let b := (b.setReg Reg.unitReplies w).setReg Reg.nodeReplies
    (if c.coord then mapReplies 4096 (b.reg Reg.nodeReplies) rcAwaited rcNoReply else b.reg Reg.nodeReplies)
  let b := b.setRegs [(Reg.commitState, csAborted), (Reg.commitReason, code), (Reg.commitFirstUnit, first)]
  let b := b.logEvent 0x0503 0 368 (c.epoch + code * 2 ^ 32)
  let b := if c.part && !c.coord then b else
    b.pushRecord (logRecord c.epoch 3 (b2n c.coord) c.groups b.swarmTs 0 (if c.coord then b.undeliveredCount else 0) first
      code)
  let b := if c.coord then b.commitNodes.foldl (fun b n => b.epochMessage n 0x12 [c.epoch]) b else b
  let b := { b with commit := { b.commit with abortEdge := some (nodes, b.run), recorded := !(c.part && !c.coord) } }
  (((if c.part then b.partIdle else b).setCommit none).retryChange c).msix (b.reg Reg.commitVector)

/-- A decision to apply (R411, R415): it is recorded before it is sent. -/
def Block.decideApply (b : Block) (c : CommitRun) : Block :=
  let at' := b.epochAfter (if c.coord then 100 * b.reg Reg.swarmLeadUs else 100)
  let b := b.setRegs [(Reg.commitState, csDecided), (Reg.commitApplyAt, at')]
  let b := b.pushRecord (logRecord c.epoch 2 (b2n c.coord) c.groups b.swarmTs at'
    (if c.coord then b.undeliveredCount else 0) 0xFFFF 0)
  let b := if c.coord then b.commitNodes.foldl (fun b n => b.epochMessage n 0x11 [c.epoch, at']) b else b
  b.setCommit (some { c with unitSince := none, nodeSince := none, applyAt := some at' })

/-- The code a reply is recorded with: REFUSED with its abort code; ABSENT counts as CONDITION (R412). -/
def refusalCode (reply code : Nat) : Nat := if reply = rcRefused then code else Abort.condition

/-- A reply that decides an abort, or a lower-numbered one of the same edge. -/
def Block.lowerRefusal (b : Block) (u code : Nat) : Block :=
  if u < b.reg Reg.commitFirstUnit then
    let b := b.setRegs [(Reg.commitFirstUnit, u), (Reg.commitReason, code)]
    if b.commit.recorded then (b.putRecord 0 223 208 u).putRecord 0 255 224 code else b
  else b

/-- A node's reply to PREPARE counts, and may decide the commit (R414). -/
def Block.nodeReplied (b : Block) (node epoch reply code : Nat) : Block :=
  let w := b.reg Reg.nodeReplies
  match b.commit.run with
  | some c =>
    if !c.coord ∨ c.epoch ≠ epoch ∨ c.nodeSince.isNone ∨ replyOf w node ≠ rcAwaited then b
    else
      let b := b.setReg Reg.nodeReplies (putReply w node reply)
      if reply = rcStaged then
        if (withReply 4096 (b.reg Reg.nodeReplies) rcAwaited).isEmpty then b.decideApply c else b
      else b.decideAbort c true node (refusalCode reply code)
  | none =>
    if b.commit.abortEdge = some (true, b.run) ∧ b.commit.nodeEpoch = epoch ∧ replyOf w node = rcNoReply then
      let b := b.setReg Reg.nodeReplies (putReply w node reply)
      if reply = rcStaged then b else b.lowerRefusal node (refusalCode reply code)
    else b

/-! Completions of the stewards' accesses. -/

/-- A message that cannot reach its node: its forward is aborted with PATH_LOST (R405), and a PREPARE counts as the reply ABSENT from this
edge (R414). An APPLY leaves its node STAGED (R415). -/
def Block.courierLost (b : Block) (c : Courier) : Block :=
  let b := b.dropCourier c
  match c.via with
  | some v => match b.forwardOf v c.node with
    | some f => b.abortForward f Abort.pathLost
    | none => b
  | none =>
    if c.ch = 63 ∧ c.bytes.headD 0 = 0x10 then b.nodeReplied c.node (bytesVal ((c.bytes.drop 8).take 4)) rcAbsent 0 else b

/-- A channel that is not free: the first message of a transfer goes to the next one, and with none left its forward is aborted (R405); an
epoch message waits for channel 63 (DESIGN CHOICE, log 214). -/
def Block.courierBusy (b : Block) (c : Courier) : Block :=
  match c.via with
  | none => if c.ch = 63 then b.setCourier { c with stage := .probe, sent := 0 } else b.dropCourier c
  | some v => match b.forwardOf v c.node with
    | none => b.dropCourier c
    | some f => match (if c.fresh then b.freeChannel c.node (c.ch + 1) else none) with
      | none => (b.dropCourier c).abortForward f Abort.fwdNoChannel
      | some ch =>
        let b := b.setCourier { c with ch, stage := .probe, sent := 0 }
        { b with lmp := { b.lmp with forwards := b.lmp.forwards.map (fun x => if x = f then { f with ch } else x) } }

/-- What a message does when its access has completed. One that fails otherwise is given up: the limit of its forward, or of the nodes'
replies, then passes. -/
def Block.courierStep (b : Block) (c : Courier) (st : Nat) (data : List Beat) : Block :=
  let word := byteSlice ((data.head?.map (·.data.toNat)).getD 0) 4 4
  let go (s : CourierStage) : Block := b.setCourier { c with stage := s }
  if st = Status.pathLost then b.courierLost c
  else if st = Status.accessDenied ∧ c.stage = .submit then b.courierBusy c
  else if st ≠ Status.ok then b.dropCourier c
  else match c.stage with
    | .probe => if word.testBit 31 || word.testBit 30 then b.courierBusy c else go .request
    | .request =>
      let n := c.sent + (c.access).2.1
      b.setCourier { c with sent := n, stage := if n < c.bytes.length then .request else .submit }
    | .submit => go .poll
    | .poll =>
      if word.testBit 30 then b.setCourier { c with rspLen := word % 2 ^ 13, stage := if word % 2 ^ 13 = 0 then .finish else .fetch }
      else b
    | .fetch =>
      b.setCourier { c with stage := .finish, response := (data.flatMap (fun x => bytesOf 64 x.data.toNat)).take c.rspLen }
    | .finish => if c.via.isSome then go .ready else b.dropCourier c
    | .ready => b

/-- An access of the stewards has its final status: its message goes on, and so do those that waited for a tag. -/
def Block.courierDone (b : Block) (tag st : Nat) (data : List Beat) : Block :=
  match b.lmp.couriers.find? (fun c => c.tag == some tag) with
  | none => b
  | some c =>
    let c := { c with tag := none }
    let b := (b.setCourier c).courierStep c st data
    let lost := b.lmp.couriers.filter (fun c => b.courierIdle c && (b.routeTo c.node).isNone)
    (lost.foldl Block.courierLost b).launchAll

end Sys2Proof.Machine
end

