-- ==== Sys2Proof/Machine/Arrive.lean ====
section
/-! DEFINITION. The on-die networks as destinations see them: the checks of a station, the destinations that serve
requests, and the initiators that receive completions (R265 to R270). -/

namespace Sys2Proof.Machine

open Sys2Proof

/-! Completions at their initiators (R28, R482, R484). -/

/-- The migration of scarab k that has a copy access open under a tag. -/
def Block.copyOf (b : Block) (k tag : Nat) : Option (Nat × MigOpen) :=
  ((List.range 32).filterMap (fun m => match b.jobAt m with
    | some j => if j.ready.scarab = k then (j.copies.find? (fun o => o.tag == tag)).map (fun o => (m, o)) else none
    | none => none)).head?

/-- A transaction of the PCIe endpoint has its final status (R400): a read returns its data, marked poisoned, or Completer Abort; a
posted write that failed is counted and logged. -/
def Block.endpointDone (b : Block) (tag status : Nat) (data : List Beat) : Block :=
  let e := b.ledgerAt 368 tag
  if e.op = 0 ∧ (status = Status.ok ∨ status = Status.poison) then
    b.emit .pcie tag (0 :: b2n (status == Status.poison) :: data.map (·.data.toNat))
  else if status = Status.ok then b
  else b.refuseAccess 368 e.addr (e.op != 0) status

/-- An open transaction has its final status at its initiator, with the beats committed and the data of a read. -/
def Block.finishOpen (b : Block) (ini tag status beats : Nat) (data : List Beat) : Block :=
  if ini < 256 then
    (if tag < 64 then b.finishTag ini tag status ((data.head?.map (·.data.toNat)).getD 0) beats
     else b.ledgerClose ini tag status beats)
  else
    let b := b.ledgerClose ini tag status beats
    if 320 ≤ ini ∧ ini < 352 then
      match b.copyOf (ini - 320) tag with
      | some (m, o) => b.copyAnswer m o status data
      | none => b
    else if 352 ≤ ini ∧ ini < 368 then b.dmaAnswer (ini - 352) tag status beats data
    else if ini = 368 ∧ tag < 512 then b.courierDone tag status data
    else if ini = 368 then b.endpointDone tag status data
    else b.emit .completion ini (status :: beats :: data.map (·.data.toNat))

/-! Accesses to global addresses (R22, R255, R260). -/

/-! The MSI-X table and the pending bits, at the end of BAR4 (R398, R399). -/

/-- The table of 64 entries of 16 bytes: address, data, and a control word whose bit 0 masks the vector. -/
def Block.msixTable (b : Block) : Nat :=
  (List.range 64).foldl (fun w v => w + (b.lmp.vectors.look v % 2 ^ 96 + b2n (b.lmp.masked.testBit v) * 2 ^ 96) * 2 ^ (128 * v)) 0

/-- A vector masked or unmasked; one that is unmasked sends its pending message. -/
def Block.maskVector (b : Block) (v : Nat) (m : Bool) : Block :=
  let c := { b with lmp := { b.lmp with masked := putBit b.lmp.masked v m, pending := if m then b.lmp.pending else putBit b.lmp.pending v false } }
  if !m && b.lmp.pending.testBit v then c.msix v else c

/-- A write of bytes of the table; the pending-bit array cannot be written. -/
def Block.msixWrite (b : Block) (off n v : Nat) : Block :=
  let w := putBytes b.msixTable off n v
  ((List.range 64).filter (fun i => decide (16 * i < off + n ∧ off < 16 * i + 16))).foldl (fun b i =>
    let e := bitsOf w (128 * i + 127) (128 * i)
    { b with lmp := { b.lmp with vectors := b.lmp.vectors.put i (e % 2 ^ 96) } }.maskVector i (e.testBit 96)) b

/-- An access of the host to BAR4 from 0xFF_0000 on, which the endpoint serves itself. -/
def Block.msixAccess (b : Block) (off n : Nat) (write : Bool) (v : Nat) : Block :=
  if write then b.msixWrite off n v
  else b.emit .pcie 0 [0, 0, byteSlice (b.msixTable + b.lmp.pending * 256 ^ 0x8000) off n]

/-- GLOBAL_ACCESS: the initiator decodes the access. One that R19, R20 or R21 refuses is refused whole; any other is sent towards its
destination in as many transactions as R255 asks for. -/
def Block.globalAccess (b : Block) (ini g n : Nat) (write : Bool) (data : Nat) (fromLink : Bool) : Block :=
  let node := bitsOf g 63 52
  let a := bitsOf g 51 0
  let reserved := reservedOffset a n || decide (2 ^ 40 < a + n)
  let (st, _, _) := b.destOf ini node a n write
  let denied := reserved || st == Status.accessDenied || (fromLink && node == b.node && rangeOf a == some 2)
  if ini = 368 ∧ node = b.node ∧ ringBase + 0xFF0000 ≤ a ∧ a + n ≤ ringBase + 0x1000000 then
    b.msixAccess (a - (ringBase + 0xFF0000)) n write data
  else
    let b := if reserved then b.count Reg.reservedAccesses 1 else b
    if denied then b.refuseAccess ini a write Status.accessDenied
    else
      let us := accessPieces ini node a n write data (payloadLines ini)
      Block.sendUnsent ini us.length { b with net := { b.net with unsent := b.net.unsent ++ us } }

/-- GLOBAL_ACCESS. -/
def execGlobalAccess (ini addr size : Nat) (write : Bool) (data : Nat) (fromLink : Bool) (t : Nat) (s : State) :
    Host.Outcome State Fault Refusal :=
  s.answer (wfInitiator ini && decide (addr < 2 ^ 64 ∧ 0 < size))
    (s.blk.event t (fun b => b.globalAccess ini addr size write data fromLink))

/-! Completions (R28). -/

/-- A final completion reaches its initiator: it finishes the transaction, or is late (R28). An octet passes it to the
link whose request it proxies. Nothing comes through an exhausted riser (R469). -/
def Block.finishTransaction (b : Block) (ini tag status beats arg : Nat) (data : List Beat) : Block :=
  let own (b : Block) : Block :=
    let b := b.land 0 ini tag
    if (b.ledgerAt ini tag).state = .opened then Block.sendUnsent ini 1 (b.finishOpen ini tag status beats data)
    else b.late ini tag status beats
  if 256 ≤ ini ∧ ini < 320 then
    match b.proxyCompletion (ini - 256) tag status beats arg with
    | some b => b
    | none => own b
  else if ini < 256 && b.riserGone ini && (b.ledgerAt ini tag).state == .opened then b
  else own b

/-- Whether an RSP flit carries a reserved OP, or bits that Table 8.9 reserves. -/
def rspMalformed (f : Nat) : Bool :=
  match rOp f with
  | 0 => rArg f / 2 != 0
  | 1 => rArg f != 0
  | 2 => rTag f != 0 || bitsOf (rArg f) 10 0 != 0
  | 3 => bitsOf (rArg f) 9 0 != 0
  | _ => true

/-- An RSP flit at its station: one that is malformed is not delivered, and the transaction it would complete is completed MALFORMED in
its place (R266; DEDUCED, log 195). -/
def Block.rspReceived (b : Block) (f : Nat) (deliver : Nat → Block → Block) : Block :=
  let b := b.arrived 2 f
  if rspMalformed f then
    let b := b.count Reg.malformedRefusals 1
    if rOp f = 3 then b else deliver (rspFlit (if rOp f ≤ 2 then rOp f else 0) Status.malformed (rDst f) (if rOp f = 2 then 0 else rTag f)
      0 (rStn f) (rPort f) (if rOp f = 2 then rMsg f * 2 ^ 11 else 0)) b
  else deliver f b

/-- Whether an RSP flit comes under the row of an OP: it carries it, or one that is reserved. -/
def Block.rspComes (b : Block) (op f : Nat) : Bool := (rOp f == op || decide (3 < rOp f)) && b.delivers 2 f

/-- A completion flit at its initiator's port. -/
def Block.completionFlit (b : Block) (f : Nat) : Block :=
  b.rspReceived f (fun f b =>
    let b := (b.countBytes true 2 (rDst f) 1).land 2 (rDst f) (rspKey f)
    b.finishTransaction (rDst f) (rTag f) (Status.received (rStatus f)) (rBeats f) (rArg f % 2) [])

/-- WCOMP. -/
def execWcomp (flit : BitVec 64) (t : Nat) (s : State) : Host.Outcome State Fault Refusal :=
  s.answer true (s.blk.eventIf t (fun b => b.rspComes 0 flit.toNat) (fun b => b.completionFlit flit.toNat))

/-- RCOMP. -/
def execRcomp (flit : BitVec 64) (t : Nat) (s : State) : Host.Outcome State Fault Refusal :=
  s.answer true (s.blk.eventIf t (fun b => b.rspComes 1 flit.toNat) (fun b => b.completionFlit flit.toNat))

/-- LATE_COMPLETION (R28): a completion for a transaction that is closed. -/
def execLateCompletion (ini tag status beats : Nat) (s : State) : Host.Outcome State Fault Refusal :=
  s.answer (wfInitiator ini && decide (tag < 1024))
    (if s.blk.clocked && (s.blk.ledgerAt ini tag).state != .opened then
      s.blk.late ini tag (Status.received (status % 16)) (beats % 128)
     else s.blk)

/-! Acknowledgements and reports. -/

/-- What the end of an SNP command does for its sender: SHOOTDOWN_STATUS, a frame request refused, a migration's step. -/
def Block.snpDone (b : Block) (ini msg status : Nat) : Block :=
  if ini = 368 then (if msg = 0 then b.setReg Reg.shootdownStatus status else b)
  else if msg = 39 then
    match b.mig.hostWait with
    | some _ => ({ b with mig := { b.mig with hostWait := none } }.setReg Reg.hmigStatus status).releaseHeld
    | none => b
  else if msg = 40 then b.releaseHeld
  else if msg < 32 then
    match b.jobAt msg with
    | some j =>
      if 320 + j.ready.scarab = ini ∧ j.msg = some msg then
        b.setJob msg (some { j with msg := none, failed := if status = Status.ok then j.failed else j.failed ++ [status] })
      else b
    | none => b
  else b

/-- The final status of an SNP command, entered in its sender's ledger. -/
def Block.snpClose (b : Block) (ini msg status : Nat) : Block :=
  let b := { b with net := { b.net with snp := b.net.snp.filter (fun o => !(o.ini == ini && o.msg == msg)) } }
  (b.land 3 ini msg).ledgerClose ini msg status (b2n (status == Status.ok))

/-- A SACK at its initiator's port (R258, R259); one whose command is no longer open is late (R28). -/
def Block.sackTaken (b : Block) (f : Nat) : Block :=
  let ini := rDst f
  let msg := rMsg f
  let st := Status.received (rStatus f)
  let b := (b.countBytes true 2 ini 1).land 2 ini (rspKey f)
  let own (b : Block) : Block :=
    match b.net.snp.find? (fun o => o.ini == ini && o.msg == msg) with
    | none => b.late ini msg st 0
    | some o =>
      let statuses := o.statuses ++ [st]
      if o.left > 1 then
        { b with net := { b.net with snp := b.net.snp.map (fun x =>
            if x == o then { o with left := o.left - 1, statuses := statuses } else x) } }
      else (b.snpClose ini msg (snpStatus statuses)).snpDone ini msg (snpStatus statuses)
  if 256 ≤ ini ∧ ini < 320 then (b.proxySack (ini - 256) msg st).getD (b.late ini msg st 0) else own b

/-- A SACK at its station. -/
def Block.sackFlit (b : Block) (f : Nat) : Block :=
  if rOp f = 2 then b.rspReceived f (fun f b => b.sackTaken f) else b.completionFlit f

/-- SACK. -/
def execSack (flit : BitVec 64) (t : Nat) (s : State) : Host.Outcome State Fault Refusal :=
  s.answer true (s.blk.eventIf t (fun b => b.rspComes 2 flit.toNat) (fun b => b.sackFlit flit.toNat))

/-- A LEDGER flit at the stewards (R343, R484): logged as the fault of an initiator, or as an undelivered result. -/
def Block.ledgerTaken (b : Block) (f : Nat) : Block :=
  let b := ((b.countBytes true 2 368 1).land 2 368 (rspKey f)).count Reg.ledgerReports 1
  let rep := rReporter f
  let facts := rStatus f * 2 ^ 8 + rBeats f
  match b.link.undelivered.find? (fun u => u.reporter == rep && u.tag == rTag f) with
  | some u =>
    let b := { b with link := { b.link with undelivered := b.link.undelivered.erase u } }
    b.logEvent 0x0402 5 u.lk (u.node * 2 ^ 64 + u.src * 2 ^ 48 + u.srcTag * 2 ^ 32 + facts)
  | none => b.logEvent 0x0401 0 rep (rTag f * 2 ^ 16 + facts)

/-- A LEDGER flit at its station. -/
def Block.ledgerFlit (b : Block) (f : Nat) : Block :=
  if rOp f = 3 then b.rspReceived f (fun f b => b.ledgerTaken f) else b.completionFlit f

/-- LEDGER. -/
def execLedger (flit : BitVec 64) (t : Nat) (s : State) : Host.Outcome State Fault Refusal :=
  s.answer true (s.blk.eventIf t (fun b => b.rspComes 3 flit.toNat && (rOp flit.toNat != 3 || rDst flit.toNat == 368))
    (fun b => b.ledgerFlit flit.toNat))

/-! The checks of a station on requests (R265 to R267). -/

/-- The path from a station to a port's die, where it leaves the base die. -/
def PortKind.path : PortKind → List Nat
  | .riser d _ => riserPath d
  | .tap d _ => tapPath d
  | _ => []

/-- Whether a port of a station is fenced: the seam fence is raised over its riser or tap, there or everywhere, or a group of the tap is
exhausted. -/
def Block.portFenced (b : Block) (stn : Nat) (k : PortKind) : Bool :=
  b.fenced k.path || b.net.fenceAt.any (fun e => e.2 == stn && k.path.contains e.1 && k.path.contains (e.1 + 1)) || (match k with
    | .tap d t => b.groupGone 4 (16 * d + t)
    | _ => false)

/-- The beats of a packet that a REQ flit calls for. -/
def qBeats (f : Nat) : Nat := if qSize f = 0 then qLen f + 1 else 1

/-- The status and the counter with which a station refuses a REQ flit, in the order of R265, R266 and R267. -/
def Block.reqRefusal (b : Block) (f : Nat) : Option (Nat × Nat) :=
  match portKind (qStn f) (qPort f) with
  | none => some (Status.malformed, Reg.malformedRefusals)
  | some k =>
    let data := qOp f == 1 || qOp f == 2
    if data && k.capacity != 0 && decide (qLen f + 1 > k.capacity) then some (Status.tooLong, Reg.tooLongRefusals)
    else if reqMalformed f || (data && k.capacity == 0) then some (Status.malformed, Reg.malformedRefusals)
    else if b.portFenced (qStn f) k then some (Status.seamFence, Reg.fenceRefusals)
    else none

/-- Data of a SRC and TAG whose header was refused is discarded, now or when it comes. -/
def Block.discardData (b : Block) (src tag : Nat) : Block :=
  match b.net.early.find? (fun e => dSrc e.1 == src && dTag e.1 == tag) with
  | some e => { b with net := { b.net with early := b.net.early.erase e } }
  | none => { b with net := { b.net with refused := b.net.refused ++ [(src, tag)] } }

/-- A REQ flit refused whole: one completion with no beats. -/
def Block.refuseReq (b : Block) (f st counter : Nat) : Block :=
  let b := (b.count counter 1).complete (if qOp f = 0 then 1 else 0) (qStn f) (qPort f) (qSrc f) (qTag f) st 0 0
  if qOp f = 1 ∨ qOp f = 2 then b.discardData (qSrc f) (qTag f) else b

/-! Destinations. -/

/-- A request answered by the destination that got it with a status and no data. -/
def Block.reqAnswer (b : Block) (f st beats arg : Nat) : Block :=
  b.complete (if qOp f = 0 then 1 else 0) (qStn f) (qPort f) (qSrc f) (qTag f) st beats arg

/-- An RDATA packet from the destination of a request. -/
def Block.reqData (b : Block) (f st : Nat) (beats : List Beat) : Block :=
  let (stn, port) := b.iniPlace (qSrc f)
  b.sendDat (qStn f) (qPort f) (datSideband 0 stn port (qSrc f) (qTag f) beats.length 1 st) beats

/-- One beat that carries `n` bytes at their own place in their line. -/
def partBeat (a n v : Nat) (poison : Bool) : Beat := mkBeat (v % 256 ^ n * 256 ^ (a % 64)) poison 0

/-- Bytes of a line at their own place, every other byte 0 (R255). -/
def partLine (f d : Nat) : Nat :=
  if qSize f = 0 then d else byteSlice d (qAddr f % 64) (qBytes f) * 256 ^ (qAddr f % 64)

/-- The checks of memory on an address (R19, R20, R375): its own node, its own tap, and, before the global start, the
configuration path only. -/
def Block.tapDenies (b : Block) (f : Nat) : Bool :=
  (!b.started && qSrc f != 369) || qNode f != b.node || rangeOfAll (qAddr f) (qBytes f) == none ||
    !(decide (qAddr f < 2 ^ 31) && localPort (qAddr f) == (qStn f, qPort f))

/-- The checks of the library port (R21, R375, R379). -/
def Block.libraryDenies (b : Block) (f : Nat) : Bool :=
  let write := qOp f == 1
  (!b.started && qSrc f != 369) || qNode f != b.node || rangeOfAll (qAddr f) (qBytes f) != some 2 ||
    !libraryAllows (qSrc f) write || (!write && b.libraryHeld (qAddr f) (qBytes f))

/-- Successive lines read, of user memory at their bank or of the library: the first status that ends the read, the beats
and the block. -/
def Block.readBeats (b : Block) (library : Bool) (l : Nat) : Nat → Nat × List Beat × Block
  | 0 => (Status.ok, [], b)
  | n + 1 =>
    let (st, beats, b) := b.readBeats library l n
    if library then
      let (d, p, b) := b.readLine (l + n)
      (st, beats ++ [mkBeat d p 0], b)
    else
      let (st', d, b) := b.bankRead (l + n)
      (if st = Status.ok ∨ st = Status.poison then (if st' = Status.ok then st else st') else st,
       beats ++ [mkBeat d (st' == Status.poison) 0], b)

/-- A read of lines served: the data, or a retired bank's refusal. -/
def Block.serveLines (b : Block) (f : Nat) (library : Bool) : Block :=
  let (st, beats, b) := b.readBeats library (qAddr f / 64) (qBeats f)
  if st = Status.retired then b.reqAnswer f st 0 0
  else
    let beats := beats.map (fun x => mkBeat (partLine f x.data.toNat) x.poison 0)
    b.reqData f (if beats.any (·.poison) then Status.poison else Status.ok) beats

/-- Successive lines written: statuses in order up to the first that ends the write, and the lines performed. A beat with no byte
enabled changes nothing, unless it is poisoned: that marks its line (Table 5.7). -/
def Block.writeBeats (b : Block) (library : Bool) (f : Nat) (l : Nat) : List Beat → Nat × Nat × Block
  | [] => (Status.ok, 0, b)
  | x :: xs =>
    let mask := if qSize f = 0 then x.mask.toNat else x.mask.toNat &&& maskFor (qAddr f) (qBytes f) l
    let (st, ok, b) :=
      if mask = 0 ∧ !x.poison then (Status.ok, true, b)
      else if library then (let (st, b) := b.writeLine l x.data.toNat mask x.poison none; (st, true, b))
      else b.bankWrite l x.data.toNat mask x.poison none
    if !ok then (st, 0, b)
    else
      let (st', n, b) := b.writeBeats library f (l + 1) xs
      (if st' = Status.ok then st else st', n + 1, b)

/-- A CAS served by a tap (R228, R254): the conditional update of 8 bytes in one bank access. -/
def Block.serveCas (b : Block) (f : Nat) (x : Beat) : Block :=
  let l := qAddr f / 64
  let off := qAddr f % 64
  if x.poison then b.reqAnswer f Status.poison 0 0
  else
    let (st, d, b) := b.bankRead l
    if st ≠ Status.ok then b.reqAnswer f st 0 0
    else if byteSlice d off 8 ≠ x.data.toNat % 2 ^ 64 then b.reqAnswer f Status.ok 1 0
    else
      let new := bitsOf x.data.toNat 127 64
      let (st, ok, b) := b.bankWrite l (new * 256 ^ off) (255 * 2 ^ off) false none
      b.reqAnswer f st (b2n ok) (b2n ok)

/-- The beats of a packet as one value and one mask. -/
def gather : List Beat → Nat × Nat
  | [] => (0, 0)
  | x :: xs =>
    let (d, m) := gather xs
    (x.data.toNat + d * 2 ^ 512, x.mask.toNat + m * 2 ^ 64)

/-- The value, mask and whether an aligned 4-byte access, of a request to a page of the base die. -/
def pageBytes (f : Nat) (beats : List Beat) : Nat × Nat :=
  let (d, m) := gather beats
  if qSize f = 0 then (d, m) else (byteSlice d (qAddr f % 64) (qBytes f), m >>> (qAddr f % 64))

/-- An access to the doorbell block (R169, R183). -/
def Block.serveDoor (b : Block) (f : Nat) (beats : List Beat) : Block :=
  let off := qAddr f - ringBase
  if qNode f ≠ b.node ∨ rangeOfAll (qAddr f) (qBytes f) ≠ some 3 then b.reqAnswer f Status.accessDenied 0 0
  else match b.doorCheck off (qBytes f) with
    | .inl st => b.reqAnswer f st 0 0
    | .inr p =>
      if qOp f = 0 then
        let (st, v) := b.pageRead p (off % 0x1000)
        b.reqData f st [partBeat (qAddr f) 4 v false]
      else if beats.any (·.poison) then b.reqAnswer f Status.poison 0 0
      else
        let (st, b) := b.pageWrite p (off % 0x1000) (pageBytes f beats).1
        b.reqAnswer f st (b2n (st == Status.ok)) 0

/-- The beats of a read of `n` bytes of the mailbox. -/
def mboxBeats (f v : Nat) : List Beat :=
  if qSize f = 0 then (List.range (qBeats f)).map (fun i => mkBeat (bitsOf v (512 * i + 511) (512 * i)) false 0)
  else [partBeat (qAddr f) (qBytes f) v false]

/-- An access to the management mailbox (R395, R396). -/
def Block.serveMbox (b : Block) (f : Nat) (beats : List Beat) : Block :=
  let off := qAddr f - mboxBase
  let c := off / 0x4000
  let o := off % 0x4000
  let word := qSize f == 1
  if qNode f ≠ b.node ∨ rangeOfAll (qAddr f) (qBytes f) ≠ some 4 then b.reqAnswer f Status.accessDenied 0 0
  else if o + qBytes f > 0x4000 then b.reqAnswer f Status.malformed 0 0
  else if qOp f = 0 then
    let (st, v) := b.mboxRead c o (qBytes f) word
    if st = Status.ok then b.reqData f st (mboxBeats f v) else b.reqAnswer f st 0 0
  else if !mboxWriter c (qSrc f) || (qSrc f == 368 && decide (qTag f < 512)) then b.reqAnswer f Status.accessDenied 0 0
  else if beats.any (·.poison) then b.reqAnswer f Status.poison 0 0
  else
    let (v, m) := pageBytes f beats
    let (st, b) := b.mboxWrite c o (qBytes f) v m word
    b.reqAnswer f st (if st = Status.ok then qBeats f else 0) 0

/-- Whether a request's lines wait for a wipe in progress (R155). -/
def Block.waitsWipe (b : Block) (f : Nat) : Bool :=
  (List.range (qBeats f)).any (fun i => b.wiping (qAddr f / 64 + i))

/-- A request with its data served by its destination. -/
def Block.serveReq (b : Block) (f : Nat) (beats : List Beat) : Block :=
  let b := if qNode f == b.node && reservedOffset (qAddr f) (qBytes f) then b.count Reg.reservedAccesses 1 else b
  match portKind (qStn f) (qPort f) with
  | some (.tap _ _) =>
    if b.tapDenies f then b.reqAnswer f Status.accessDenied 0 0
    else if b.waitsWipe f then { b with net := { b.net with waiting := b.net.waiting ++ [{ flit := f, beats }] } }
    else if qOp f = 0 then b.serveLines f false
    else if qOp f = 2 then b.serveCas f (beats.headD (mkBeat 0 false 0))
    else
      let (st, n, b) := b.writeBeats false f (qAddr f / 64) beats
      b.reqAnswer f st n 0
  | some .library =>
    if qOp f = 2 then b.reqAnswer f Status.malformed 0 0
    else if b.libraryDenies f then b.reqAnswer f Status.accessDenied 0 0
    else if qOp f = 0 then b.serveLines f true
    else
      let (st, n, b) := b.writeBeats true f (qAddr f / 64) beats
      b.reqAnswer f st n 0
  | some .doorbells => if qOp f = 2 then b.reqAnswer f Status.malformed 0 0 else b.serveDoor f beats
  | some .mailbox => if qOp f = 2 then b.reqAnswer f Status.malformed 0 0 else b.serveMbox f beats
  | _ => b.reqAnswer f Status.accessDenied 0 0

/-- The headers of earlier writes of a request's SRC, whose data has not come, that will write a line it is for (R134). -/
def Block.writesBefore (b : Block) (f : Nat) : List Nat :=
  b.net.headers.filter (fun g => qSrc g == qSrc f && qStn g == qStn f && qPort g == qPort f &&
    decide (qAddr g / 64 < qAddr f / 64 + qBeats f ∧ qAddr f / 64 < qAddr g / 64 + qBeats g))

/-- A read that follows a write waits for it, and for no write that came later; what waits is served in the order it came. -/
def Block.retryWaiting (b : Block) : Block :=
  let ws := b.net.waiting
  ws.foldl (fun b w =>
    if w.after.any b.net.headers.contains then { b with net := { b.net with waiting := b.net.waiting ++ [w] } }
    else b.serveReq w.flit w.beats) { b with net := { b.net with waiting := [] } }

/-! REQ flits. -/

/-- A header with its data: served, or ended where the packet is not the length the header calls for (R257); reads that followed the
write are served then. -/
def Block.pairUp (b : Block) (f : Nat) (beats : List Beat) : Block :=
  (if beats.length = qBeats f then b.serveReq f beats
   else (b.count Reg.malformedRefusals 1).reqAnswer f Status.malformed 0 0).retryWaiting

/-- Headers at a station port whose data has not come. -/
def Block.headersAt (b : Block) (stn port : Nat) : Nat :=
  (b.net.headers.filter (fun f => qStn f == stn && qPort f == port)).length

/-- A REQ flit at its destination. -/
def Block.reqArrives (b : Block) (f : Nat) : Block :=
  let b := b.arrived 0 f
  match b.reqRefusal f with
  | some (st, counter) => b.refuseReq f st counter
  | none =>
    let b := match b.portIni (qStn f) (qPort f) with
      | some i => b.countBytes true 0 i 1
      | none => b
    match portKind (qStn f) (qPort f) with
    | some (.octet o) => b.octetReq o f
    | _ =>
      if qOp f = 0 then
        (if (b.writesBefore f).isEmpty then b.serveReq f []
         else { b with net := { b.net with waiting := b.net.waiting ++ [{ flit := f, beats := [], after := b.writesBefore f }] } })
      else
        let same (g : Nat) : Bool := qSrc g == qSrc f && qTag g == qTag f
        let b := { b with net := { b.net with headers := b.net.headers.filter (fun g => !same g) } }
        match b.net.early.find? (fun e => dSrc e.1 == qSrc f && dTag e.1 == qTag f) with
        | some e => { b with net := { b.net with early := b.net.early.erase e } }.pairUp f e.2
        | none => { b with net := { b.net with headers := b.net.headers ++ [f] } }

/-- Whether a REQ flit comes under a row: it carries the row's OP, or one that is reserved; a tap that holds 64 headers
takes no further one (R270). -/
def Block.reqComes (b : Block) (op f : Nat) : Bool :=
  (qOp f == op || decide (qOp f > 2)) && decide (qStn f < 66) && b.delivers 0 f &&
    (op == 0 || qPort f != 7 || decide (b.headersAt (qStn f) (qPort f) < 64))

/-- READ. -/
def execRead (flit : BitVec 128) (t : Nat) (s : State) : Host.Outcome State Fault Refusal :=
  s.answer true (s.blk.eventIf t (fun b => b.reqComes 0 flit.toNat) (fun b => b.reqArrives flit.toNat))

/-- WRITE. -/
def execWrite (flit : BitVec 128) (t : Nat) (s : State) : Host.Outcome State Fault Refusal :=
  s.answer true (s.blk.eventIf t (fun b => b.reqComes 1 flit.toNat) (fun b => b.reqArrives flit.toNat))

/-- CAS. -/
def execCas (flit : BitVec 128) (t : Nat) (s : State) : Host.Outcome State Fault Refusal :=
  s.answer true (s.blk.eventIf t (fun b => b.reqComes 2 flit.toNat) (fun b => b.reqArrives flit.toNat))

/-! DAT packets. -/

/-- A DAT packet refused with one completion to its SRC (R265 to R267). -/
def Block.refuseDat (b : Block) (sb st counter : Nat) : Block :=
  (b.count counter 1).complete 0 (dStn sb) (dPort sb) (dSrc sb) (dTag sb) st 0 0

/-- Beats waiting at a station port for their header. -/
def Block.earlyAt (b : Block) (stn port : Nat) : Nat :=
  sumOf ((b.net.early.filter (fun e => dStn e.1 == stn && dPort e.1 == port)).map (fun e => e.2.length))

/-- A WDATA packet at its destination: paired with its header, kept for it, or discarded with a refused one. -/
def Block.wdataArrives (b : Block) (sb : Nat) (beats : List Beat) : Block :=
  let b := (b.arrived 1 sb).land 1 (dSrc sb) (datKey sb)
  let key := (dSrc sb, dTag sb)
  if b.net.refused.contains key then { b with net := { b.net with refused := b.net.refused.erase key } }
  else
    let header := b.net.headers.find? (fun f => qSrc f == dSrc sb && qTag f == dTag sb && qStn f == dStn sb && qPort f == dPort sb)
    let drop (b : Block) : Block := match header with
      | some f => { b with net := { b.net with headers := b.net.headers.erase f } }
      | none => b
    match portKind (dStn sb) (dPort sb) with
    | none => (drop b).refuseDat sb Status.malformed Reg.malformedRefusals
    | some k =>
      if datMalformed sb beats || k.capacity == 0 then (drop b).refuseDat sb Status.malformed Reg.malformedRefusals
      else
        let b := match b.portIni (dStn sb) (dPort sb) with
          | some i => b.countBytes true 1 i beats.length
          | none => b
        match k, header with
        | .octet o, _ => b.octetData o sb beats
        | _, some f => (drop b).pairUp f beats
        | _, none => { b with net := { b.net with early := b.net.early ++ [(sb, beats)] } }

/-- Whether a packet comes under the row of a KIND, or has a reserved one. A tap that holds a header with no data takes only the data of
a header it holds; one that holds none takes at most 64 beats early (R270). -/
def Block.datComes (b : Block) (kind sb n : Nat) : Bool :=
  (dKind sb == kind || dKind sb == 3) && decide (dStn sb < 66 ∧ 0 < n) && b.delivers 1 sb &&
    (kind != 0 || dPort sb != 7 || b.net.headers.any (fun f => qSrc f == dSrc sb && qTag f == dTag sb) ||
      (b.headersAt (dStn sb) (dPort sb) == 0 && decide (b.earlyAt (dStn sb) (dPort sb) + n ≤ 64)))

/-- WDATA. -/
def execWdata (sb : BitVec 128) (beats : List Beat) (t : Nat) (s : State) : Host.Outcome State Fault Refusal :=
  s.answer true (s.blk.eventIf t (fun b => b.datComes 0 sb.toNat beats.length) (fun b => b.wdataArrives sb.toNat beats))

/-- The beats that an RDATA packet commits on delivery (R25, R483): all of them, but for the zero POISON beats with which a packet was
ended on its way (R343), and none of one refused (DEDUCED, log 181). -/
def beatsCommitted (st : Nat) (beats : List Beat) : Nat :=
  if st = Status.ok ∨ st = Status.poison then beats.length
  else if st = Status.accessDenied ∨ st = Status.malformed ∨ st = Status.tooLong then 0
  else (beats.reverse.dropWhile (fun x => x.poison && x.data == 0)).length

/-- An RDATA packet at its initiator: its status is the last beat's, and its beats are committed on delivery (R257,
R483). -/
def Block.rdataArrives (b : Block) (sb : Nat) (beats : List Beat) : Block :=
  let ini := dSrc sb
  let b := ((b.arrived 1 sb).countBytes true 1 ini beats.length).land 1 ini (datKey sb)
  if datMalformed sb beats then
    (b.count Reg.malformedRefusals 1).finishTransaction ini (dTag sb) Status.malformed 0 0 []
  else
    let st := Status.received (lastStatus beats)
    let st := if st = Status.ok ∧ beats.any (·.poison) then Status.poison else st
    let done := beatsCommitted st beats
    if 256 ≤ ini ∧ ini < 320 then
      match b.proxyData (ini - 256) sb beats with
      | some b => b.land 0 ini (dTag sb)
      | none => b.finishTransaction ini (dTag sb) st done 0 beats
    else b.finishTransaction ini (dTag sb) st done 0 beats

/-- RDATA. -/
def execRdata (sb : BitVec 128) (beats : List Beat) (t : Nat) (s : State) : Host.Outcome State Fault Refusal :=
  s.answer true (s.blk.eventIf t (fun b => b.datComes 1 sb.toNat beats.length) (fun b => b.rdataArrives sb.toNat beats))

/-- The stream resolver (R260): a packet for a run that is RUNNING or SWITCHING goes on to the region bridge of its anchor,
with its SRC and TAG; any other is denied (R122). -/
def Block.resolveStream (b : Block) (sb : Nat) (beats : List Beat) : Block :=
  let run := b.runAt (dRun sb)
  if b.started ∧ dNode sb = b.node ∧ (run.state = .running ∨ run.state = .switching) then
    let (stn, port) := b.riserPlace run.anchor
    b.sendDat 64 3 (datSideband (bitsOf sb 127 64) stn port (dSrc sb) (dTag sb) beats.length 2 0) beats
  else b.complete 0 64 3 (dSrc sb) (dTag sb) Status.accessDenied 0 0

/-- A STREAM packet at a station: refused, or passed to the port it is for. A packet at a region bridge is taken by its
design under STREAM_IN_PACKET. -/
def Block.streamArrives (b : Block) (sb : Nat) (beats : List Beat) : Block :=
  let here (b : Block) : Block := b.arrived 1 sb
  match portKind (dStn sb) (dPort sb) with
  | none => (here b).refuseDat sb Status.malformed Reg.malformedRefusals
  | some k =>
    if k.capacity ≠ 0 ∧ dLen sb + 1 > k.capacity then (here b).refuseDat sb Status.tooLong Reg.tooLongRefusals
    else if datMalformed sb beats || k.capacity == 0 then (here b).refuseDat sb Status.malformed Reg.malformedRefusals
    else if b.portFenced (dStn sb) k then (here b).refuseDat sb Status.seamFence Reg.fenceRefusals
    else match k with
      | .octet o => (((here b).land 1 (dSrc sb) (datKey sb)).countBytes true 1 (256 + o) beats.length).octetStream o sb beats
      | .resolver => ((here b).land 1 (dSrc sb) (datKey sb)).resolveStream sb beats
      | .riser _ _ => b
      | _ => (here b).complete 0 (dStn sb) (dPort sb) (dSrc sb) (dTag sb) Status.accessDenied 0 0

/-- STREAM. -/
def execStream (sb : BitVec 128) (beats : List Beat) (t : Nat) (s : State) : Host.Outcome State Fault Refusal :=
  s.answer true (s.blk.eventIf t (fun b => b.datComes 2 sb.toNat beats.length) (fun b => b.streamArrives sb.toNat beats))

end Sys2Proof.Machine
end

