-- ==== Sys2Proof/Machine/LaneRows.lean ====
section
/-! DEFINITION. The lane commands that move a link: UP and the ways out of it, electrical idle, and the host's lane
commands (R294, R298 to R304, R311). -/

namespace Sys2Proof.Machine

open Sys2Proof

/-- A lane goes UP (R294, R302): its count of attempts is cleared and its link learns of it. -/
def Block.laneUp (b : Block) (l : Nat) : Block :=
  let b := b.setLane l { b.laneAt l with fails := 0, aligned := false, badWords := 0 }
  (((b.count (Reg.bringups l) 1).enterLane l lUp).modLink (b.linkOf l) (fun x => { x with darkSince := 0 })).lanesMoved (b.linkOf l)

/-- LANE_UP (R294): FEC passed, every enabled lane of the link has its partner's LOCKED, and 16 TRAIN blocks with LOCKED
have been sent. -/
def Block.laneUpDue (b : Block) (l : Nat) : Bool :=
  b.inStage l lFec && (b.laneAt l).locked && blocksFit (b.reg (Reg.rate l)) (b.run - (b.laneAt l).since) 16 &&
    (b.enabledLanes (b.linkOf l)).all (fun k => (b.laneAt k).partnerLocked || b.laneState k == lUp)

def execLaneUp (l t : Nat) (s : State) : Host.Outcome State Fault Refusal :=
  s.answer (wfLane l) (s.blk.linkEventIf (s.blk.linkOf l) t (fun b => b.laneUpDue l) (fun b => b.laneUp l))

/-- The rows by which a stage of bring-up passes at time `t`. -/
def stageRow (t : Nat) : Instr → Option (State → Host.Outcome State Fault Refusal)
  | .detectPass x t' => atEdge t t' (execDetectPass x t')
  | .eqPass x t' => atEdge t t' (execEqPass x t')
  | .cdrPass x t' => atEdge t t' (execCdrPass x t')
  | .alignPass x found t' => atEdge t t' (execAlignPass x found t')
  | .polarityPass x t' => atEdge t t' (execPolarityPass x t')
  | .orderPass lk t' => atEdge t t' (execOrderPass lk t')
  | .deskewPass lk d t' => atEdge t t' (execDeskewPass lk d t')
  | .fecPass x t' => atEdge t t' (execFecPass x t')
  | .laneUp x t' => atEdge t t' (execLaneUp x t')
  | _ => none

/-- Whether lane l passes its stage at the edge of the limit. -/
def State.stageWon (s : State) (l t : Nat) : Bool :=
  let u := (s.settle (stageRow t)).blk
  u.laneState l != s.blk.laneState l || (u.laneAt l).locked != (s.blk.laneAt l).locked

/-- STAGE_FAIL (R295): the limit of a state from DETECT to FEC has come. -/
def execStageFail (l t : Nat) (s : State) : Host.Outcome State Fault Refusal :=
  s.answer (wfLane l) (s.limit (s.stageWon l t) t (s.blk.eventIf t
    (fun b => decide (1 ≤ b.laneState l ∧ b.laneState l ≤ 8) && b.stageAge l (us (b.reg Reg.stageLimitUs)))
    (fun b => b.failStage l)))

/-- A lane that leaves UP for a state of bring-up: `f` moves it, and its link follows. -/
def Block.leaveUp (b : Block) (l : Nat) (f : Block → Block) : Block := (f b).lanesMoved (b.linkOf l)

/-! Codewords (R286, R299). -/

/-- A block slot of a lane's stream (R279 to R281, R286, R299): the alignment slot is compared with the comma; any other block is
descrambled, and used unless it is one of the first two after comma alignment or has an error mark. -/
def Block.streamBlock (l : Nat) (marked : Bool) (b : Block) (blk : Nat) : Block :=
  let x := b.laneAt l
  if !x.framed then b
  else if x.slot ≥ 1024 then
    let missed := if nearBlock blk comma then 0 else x.missed + 1
    let b := b.setLane l { x with slot := 0, missed }
    if b.laneState l = lUp ∧ missed ≥ 3 then b.leaveUp l (fun b => (b.clearRx l).enterLane l lAlign) else b
  else
    let (d, h) := descramble (blk % 2 ^ 128) 128 x.history
    let b := b.setLane l { x with slot := x.slot + 1, history := h, skip := x.skip - 1 }
    if x.skip > 0 || marked then b
    else if blk / 2 ^ 128 = 2 ∧ d = 0x4B * 2 ^ 120 ∧ b.laneState l = lUp then b.leaveUp l (fun b => (b.clearRx l).enterLane l lIdle)
    else b.rxBlock l (blk / 2 ^ 128) d

/-- `n` bits of a lane's block stream after those kept: whole blocks are taken, the rest kept for the next codeword (R283). -/
def Block.streamBits (b : Block) (l v n : Nat) (marked : Bool) : Block :=
  let x := b.laneAt l
  let v := x.part * 2 ^ n + v
  let n := x.partBits + n
  let count := n / 130
  let b := b.setLane l { x with part := v % 2 ^ (n % 130), partBits := n % 130, tainted := marked }
  (List.range count).foldl (fun b i =>
    b.streamBlock l (marked || (i == 0 && x.tainted)) (bitsOf v (n - 130 * i - 1) (n - 130 * (i + 1)))) b

/-- The message of a codeword: its blocks, once the comma has been found in one; before that the comma is looked for. -/
def Block.takeMessage (b : Block) (l msg : Nat) (marked : Bool) : Block :=
  let x := b.laneAt l
  if x.framed then b.streamBits l msg 5140 marked
  else if marked then b
  else match commaPlace msg with
    | none => b
    | some p =>
      let n := 5010 - p
      let b := b.setLane l { x with framed := true, slot := 0, skip := 2, part := 0, partBits := 0, tainted := false, missed := 0 }
      b.streamBits l (msg % 2 ^ n) n false

/-- A codeword received on an aligned lane (R286): counted, corrected or uncorrectable, and its blocks delivered, with error marks where
it is uncorrectable. In UP, the sixteenth uncorrectable codeword in succession takes the lane to ALIGN (R299). Blocks of the link's own,
data and control, come by the rows that carry them (DESIGN CHOICE, log 60). -/
def Block.codeword (b : Block) (l : Nat) (syms : List Nat) : Block :=
  let syms := if b.reg (Reg.polarityInv l) = 1 then invertSymbols (b.reg (Reg.rate l)) syms else syms
  let b := b.count (Reg.fecCodewords l) 1
  let x := b.laneAt l
  match rsDecode syms with
  | .corrected n =>
    let b := (b.count (Reg.fecCorrSymbols l) n).setLane l { x with goodWords := x.goodWords + 1, badWords := 0, marked := false }
    b.takeMessage l (messageBits (if n = 0 then syms else rsCorrect syms)) false
  | .uncorrectable =>
    let b := (b.count (Reg.fecUncorr l) 1).count Reg.fecUncorrAll 1
    let b := b.setLane l { x with goodWords := 0, badWords := x.badWords + 1, marked := true }
    if b.laneState l = lUp ∧ x.badWords + 1 ≥ 16 then b.leaveUp l (fun b => (b.clearRx l).enterLane l lAlign)
    else b.takeMessage l (messageBits syms) true

/-- CODEWORD: 544 symbols of 10 bits, first symbol first. -/
def execCodeword (l : Nat) (syms : List Nat) (t : Nat) (s : State) : Host.Outcome State Fault Refusal :=
  s.answer (wfLane l && syms.length == 544 && syms.all (fun y => decide (y < 1024)))
    (s.blk.linkEventIf (s.blk.linkOf l) t (fun b => b.laneAligned l) (fun b => b.codeword l syms))

/-! Leaving UP (Table 9.8). -/

/-- EIOS (R301): a valid EIOS on an UP lane puts it into IDLE. -/
def execEios (l : Nat) (blk : BitVec 128) (t : Nat) (s : State) : Host.Outcome State Fault Refusal :=
  s.answer (wfLane l) (s.blk.linkEventIf (s.blk.linkOf l) t
    (fun b => b.laneState l == lUp && !(b.laneAt l).marked && blk.toNat == 0x4B * 2 ^ 120)
    (fun b => b.leaveUp l (fun b => b.enterLane l lIdle)))

/-- CDR_LOSS (R288): a lane in CDR or past it, or in TEST, loses lock: counted; in CDR its microsecond begins again, past it the lane goes
to CDR at its rate. -/
def Block.cdrLost (b : Block) (l : Nat) : Block :=
  let b := b.count (Reg.cdrLosses l) 1
  if b.laneState l = lTest then b
  else if b.laneState l = lCdr then b.setLane l { b.laneAt l with steady := b.run }
  else b.leaveUp l (fun b => (b.clearRx l).enterLane l lCdr)

def execCdrLoss (l t : Nat) (s : State) : Host.Outcome State Fault Refusal :=
  s.answer (wfLane l) (s.blk.linkEventIf (s.blk.linkOf l) t
    (fun b => decide (3 ≤ b.laneState l ∧ b.laneState l ≤ 9) || b.laneState l == lTest) (fun b => b.cdrLost l))

/-- Since when every lane of a link has been without signal, with no EIOS before (R342). -/
def Block.noteDark (b : Block) (lk : Nat) : Block :=
  if (b.enabledLanes lk).all (fun l => b.reg (Reg.signal l) == 0) ∧ (b.linkAt lk).darkSince = 0 ∧ b.linkState lk ≠ kIdle then
    b.modLink lk (fun x => { x with darkSince := b.run + 1 })
  else b

/-- SIGNAL_LOSS (R290, R299, R301): signal detect deasserted. In DETECT its microsecond begins again. An UP lane goes to DETECT at RATE_MAX, a lane of the bring-up to
DETECT; in IDLE and TEST only SIGNAL changes. -/
def Block.signalLost (b : Block) (l : Nat) : Block :=
  let st := b.laneState l
  let lk := b.linkOf l
  let b := b.setReg (Reg.signal l) 0
  if st = lUp then (b.noteDark lk).leaveUp l (fun b => b.restartLane l)
  else if 2 ≤ st ∧ st ≤ 8 then (b.noteDark lk).restartLane l
  else if st = lIdle ∨ st = lTest then b
  else if st = lDetect then (b.setLane l { b.laneAt l with steady := b.run }).noteDark lk
  else b.noteDark lk

def execSignalLoss (l t : Nat) (s : State) : Host.Outcome State Fault Refusal :=
  s.answer (wfLane l) (s.blk.linkEventIf (s.blk.linkOf l) t (fun b => b.reg (Reg.signal l) == 1 || b.laneState l == lDetect)
    (fun b => b.signalLost l))

/-- ALIGNMENT_LOSS: three successive alignment slots with no match on an UP lane. -/
def execAlignmentLoss (l t : Nat) (s : State) : Host.Outcome State Fault Refusal :=
  s.answer (wfLane l) (s.blk.linkEventIf (s.blk.linkOf l) t (fun b => b.laneState l == lUp)
    (fun b => b.leaveUp l (fun b => (b.clearRx l).enterLane l lAlign)))

/-! Electrical idle (R302, R340). -/

/-- Whether the comma found on a lane after the burst counts (R302): a match of the polarity known, within 4,096 symbols of signal
detect; `pos` counts the bits from there. -/
def Block.burstMatch (b : Block) (l : Nat) (x : AlignMatch) : Bool :=
  let rate := b.reg (Reg.rate l)
  b.laneState l == lIdle && matchKind rate x == some (b.reg (Reg.polarityInv l) == 1) &&
    decide (x.pos ≤ if rate < 2 then 8192 else 4096)

/-- The IDLE lanes of a link that a training burst takes UP: with each, the delay of its comma's arrival. A lane whose comma lies more than
32 blocks before the latest cannot be deskewed and is left (R293; DESIGN CHOICE, log 211). -/
def Block.burstLanes (b : Block) (lk : Nat) (found : List AlignMatch) (arrivals : List Nat) : List (Nat × Nat) :=
  let hit := ((b.lanesOf lk).zip (found.zip arrivals)).filter (fun e => b.burstMatch e.1 e.2.1)
  let latest := (hit.map (·.2.2)).foldl max 0
  (hit.map (fun e => (e.1, blocksIn (b.reg (Reg.rate e.1)) (latest - e.2.2)))).filter (fun e => decide (e.2 ≤ 32))

/-- TRAINING_BURST: a burst on an IDLE link. The side that detects it leaves idle too; lanes on which the comma comes are deskewed from it
and go UP without TRAIN blocks, and the link is ACTIVE, its container stream started again. -/
def Block.burst (b : Block) (lk : Nat) (found : List AlignMatch) (arrivals : List Nat) : Block :=
  let b := b.leaveIdle lk
  let hit := b.burstLanes lk found arrivals
  let b := hit.foldl (fun b e =>
    ((((b.clearRx e.1).setRegs [(Reg.signal e.1, 1), (Reg.skewBlocks e.1, e.2)]).count (Reg.bringups e.1) 1).setLane e.1
      { (b.clearRx e.1).laneAt e.1 with skip := 2 }).enterLane e.1 lUp) b
  if hit.isEmpty then b else b.exitIdle lk

/-- TRAINING_BURST. -/
def execTrainingBurst (u : Burst) (t : Nat) (s : State) : Host.Outcome State Fault Refusal :=
  s.answer (wfLink u.lk) (s.blk.linkEventIf u.lk t
    (fun b => b.linkState u.lk == kIdle && (b.lanesOf u.lk).any (fun l => b.laneState l == lIdle))
    (fun b => b.burst u.lk u.found u.arrivals))

/-- EXIT_WINDOW_EXPIRY: no comma within 4,096 symbols of signal detect at the exit from idle. -/
def execExitWindowExpiry (l t : Nat) (s : State) : Host.Outcome State Fault Refusal :=
  s.answer (wfLane l) (s.blk.linkEventIf (s.blk.linkOf l) t
    (fun b => b.laneState l == lIdle && (b.linkState (b.linkOf l) != kIdle || decide (0 < (b.linkAt (b.linkOf l)).leaving)))
    (fun b => (b.clearRx l).enterLane l lAlign))

/-! The host's commands (R298, R311). -/

/-- LANE_EN: 1 starts the bring-up of a lane in OFF once the global start has come, 0 puts the lane in OFF at once. -/
def Block.writeLaneEn (b : Block) (l v : Nat) : Nat × Block :=
  b.guarded [badValue (Reg.laneEn l) v]
    (fun b =>
      let b := b.setReg (Reg.laneEn l) v
      if v = 0 then (b.laneOff l).lanesMoved (b.linkOf l)
      else if b.started && b.laneState l == lOff && !(b.laneAt l).waking then (b.wakeLane l false).lanesMoved (b.linkOf l)
      else b)

/-- LANE_EN. -/
def execLaneEn (l v t : Nat) (s : State) : Host.Outcome State Fault Refusal :=
  s.answer true ((s.blk.at t).hostLink (wfLane l) (s.blk.linkOf l) t (fun b => b.writeLaneEn l v))

/-- The checks of a LANE_CMD (R311). -/
def Block.laneCmdChecks (b : Block) (l v : Nat) : List (Bool × Nat) :=
  [badValue (Reg.laneCmd l) v, (b.reg (Reg.laneEn l) == 0, Abort.condition),
   (v == 2 && b.fmode fnTraining == 0, Abort.mode),
   (v == 2 && b.reg (Reg.rate l) == b.reg (Reg.rateMin l), Abort.condition),
   (v == 4 && b.laneState l != lTest, Abort.condition)]

/-- A lane restarted from DETECT at RATE_MAX; one that waits for its wake goes on waiting. -/
def Block.restartCmd (b : Block) (l : Nat) : Block :=
  if (b.laneAt l).waking then b.setLane l { b.laneAt l with keepRate := false, testNext := false }
  else if b.laneState l = lOff then b
  else b.leaveUp l (fun b => b.restartLane l)

/-- TEST on a lane that waits for its wake: it enters TEST once granted (log 86). -/
def Block.testWaiting (b : Block) (l : Nat) : Block :=
  if (b.laneAt l).waking then b.setLane l { b.laneAt l with testNext := true } else b

/-- A write of LANE_CMD. -/
def Block.writeLaneCmd (b : Block) (l v : Nat) : Nat × Block :=
  b.guarded (b.laneCmdChecks l v)
    (fun b =>
      if v = 1 then b.restartCmd l
      else if v = 2 then (b.stepRate (b.linkOf l)).lanesMoved (b.linkOf l)
      else if v = 3 then (if b.laneActive l then b.leaveUp l (fun b => b.enterTest l) else b.testWaiting l)
      else b.restartCmd l)

/-- LANE_RESTART. -/
def execLaneRestart (l t : Nat) (s : State) : Host.Outcome State Fault Refusal :=
  s.answer true ((s.blk.at t).hostLink (wfLane l) (s.blk.linkOf l) t (fun b => b.writeLaneCmd l 1))

/-- STEP. -/
def execStep (l t : Nat) (s : State) : Host.Outcome State Fault Refusal :=
  s.answer true ((s.blk.at t).hostLink (wfLane l) (s.blk.linkOf l) t (fun b => b.writeLaneCmd l 2))

/-- TEST. -/
def execTest (l t : Nat) (s : State) : Host.Outcome State Fault Refusal :=
  s.answer true ((s.blk.at t).hostLink (wfLane l) (s.blk.linkOf l) t (fun b => b.writeLaneCmd l 3))

/-- TEST_STOP. -/
def execTestStop (l t : Nat) (s : State) : Host.Outcome State Fault Refusal :=
  s.answer true ((s.blk.at t).hostLink (wfLane l) (s.blk.linkOf l) t (fun b => b.writeLaneCmd l 4))

end Sys2Proof.Machine
end

