-- ==== Sys2Proof/Machine/LinkRows.lean ====
section
/-! DEFINITION. The containers and control blocks that a link receives, and its timers (R317 to R343). -/

namespace Sys2Proof.Machine

open Sys2Proof

/-! Containers. A row acts on a container of its own kind; a container of a reserved VN or TYPE may come under any row. -/

/-- A container of one of the row's kinds, or of none. -/
def ofKind (c : Nat) (ks : List CKind) : Bool := ks.contains (cKind c) || cKind c == CKind.reserved

/-- A container received under a row. -/
def Block.rxRow (b : Block) (lk : Nat) (c : BitVec 576) (t : Nat) (ks : List CKind) (f : Nat → Block → Block) : Block :=
  b.linkEventIf lk t (fun _ => ofKind c.toNat ks || cCrc c.toNat != containerCrc c.toNat)
    (fun b => b.rxContainer lk c.toNat (f c.toNat))

/-- REQ (R317, R333): the flits of the container, proxied in order. -/
def Block.rxReqContainer (b : Block) (lk c : Nat) : Block :=
  let fs := (List.range (cType c + 1)).map (fun i => bitsOf (cPayload c) (128 * i + 127) (128 * i))
  let data := (fs.filter (fun f => qOp f == 1 || qOp f == 2)).map (fun f => (qSrc f, qTag f))
  (b.modLink lk (fun x => { x with expectW := x.expectW.filter (fun e => !data.contains e) ++ data })).takeReq lk fs

def execReq (lk : Nat) (c : BitVec 576) (t : Nat) (s : State) : Host.Outcome State Fault Refusal :=
  s.answer (wfLink lk) (s.blk.rxRow lk c t [.req] (fun c b => b.rxReqContainer lk c))

/-- HEAD_W (R318): a W packet begins. -/
def Block.rxHeadW (b : Block) (lk c : Nat) : Block :=
  let h := cPayload c % 2 ^ 128
  b.modLink lk (fun x => { x with inW := some { head := h }
                                  expectW := if dKind h = 0 then x.expectW.erase (dSrc h, dTag h) else x.expectW })

def execHeadW (lk : Nat) (c : BitVec 576) (t : Nat) (s : State) : Host.Outcome State Fault Refusal :=
  s.answer (wfLink lk) (s.blk.rxRow lk c t [.headW] (fun c b => b.rxHeadW lk c))

/-- Whether the MASKs of a packet come in MASK containers. -/
def masksApart (p : RxPacket) : Bool := dKind p.head == 0 && bitsOf p.head 127 64 == 0

/-- MASK: the masks of the next eight beats. A container of a packet being forwarded leaves at once. -/
def Block.rxMask (b : Block) (lk c : Nat) : Block :=
  match (b.linkAt lk).inW with
  | none => b
  | some p =>
    let ms := (List.range 8).map (fun i => bitsOf (cPayload c) (64 * i + 63) (64 * i))
    (b.modLink lk (fun x => { x with inW := some { p with masks := p.masks ++ ms } })).returnCredit lk 1 (b2n p.begun)

def execMask (lk : Nat) (c : BitVec 576) (t : Nat) (s : State) : Host.Outcome State Fault Refusal :=
  s.answer (wfLink lk) (s.blk.rxRow lk c t [.mask] (fun c b => b.rxMask lk c))

/-- Containers that a W packet has brought so far. -/
def RxPacket.containers (p : RxPacket) : Nat := 1 + p.masks.length / 8 + p.beats.length

/-- The end of a W packet: one being forwarded is finished, one ended by ABORT_W before its forwarding began is discarded (R336), and
one that has found no proxy tag waits. -/
def Block.endW (b : Block) (lk : Nat) (p : RxPacket) : Block :=
  let b := b.modLink lk (fun x => { x with inW := none })
  if p.begun then (b.finishW lk p).retryProxy (lk / 8)
  else if p.flushed.isSome then (b.discardW lk p).retryProxy (lk / 8)
  else { b with link := { b.link with rxStreams := b.link.rxStreams ++ [(lk, p.head, p.beats)] } }

/-- One beat of a W packet: forwarding begins at CT_THRESHOLD bytes or with the whole packet, and from then on each beat is forwarded as it
arrives (R332); the containers of a packet that is being forwarded leave the buffer. -/
def Block.rxBeatW (b : Block) (lk : Nat) (p : RxPacket) (x : Beat) : Block :=
  let p := { p with beats := p.beats ++ [x] }
  let whole := p.beats.length ≥ dLen p.head + 1
  let begins := !p.begun && p.flushed.isNone && (whole || decide (64 * p.beats.length ≥ b.reg (Reg.ctThreshold (lk / 8))))
  let (p, b) := match if begins then b.beginForward lk p else none with
    | some (q, b) => (q, b.returnCredit lk 1 p.containers)
    | none => (p, b.returnCredit lk 1 (b2n p.begun))
  let (p, b) := if p.begun then b.forwardBeats lk p else (p, b)
  if whole then b.endW lk p else b.modLink lk (fun y => { y with inW := some p })

/-- The mask of the next beat of a packet. -/
def RxPacket.nextMask (p : RxPacket) : Nat := if masksApart p then nthD p.masks p.beats.length 0 else fullMask

/-- A DATA_W container, poisoned or not. -/
def Block.rxDataW (b : Block) (lk c : Nat) (poison : Bool) : Block :=
  match (b.linkAt lk).inW with
  | none => b
  | some p => b.rxBeatW lk p (mkBeat (cPayload c) poison p.nextMask)

/-- DATA_W. -/
def execDataW (lk : Nat) (c : BitVec 576) (t : Nat) (s : State) : Host.Outcome State Fault Refusal :=
  s.answer (wfLink lk) (s.blk.rxRow lk c t [.dataW] (fun c b => b.rxDataW lk c false))

/-- DATA_W_P. -/
def execDataWP (lk : Nat) (c : BitVec 576) (t : Nat) (s : State) : Host.Outcome State Fault Refusal :=
  s.answer (wfLink lk) (s.blk.rxRow lk c t [.dataWP] (fun c b => b.rxDataW lk c true))

/-- ABORT_W (R336 to R338): stands for one beat not sent; the packet completes with FLUSHED. -/
def Block.rxAbortW (b : Block) (lk : Nat) : Block :=
  match (b.linkAt lk).inW with
  | none => b
  | some p =>
    let p := { p with flushed := some (p.flushed.getD (if p.begun then p.beats.length else 0)) }
    b.rxBeatW lk p (mkBeat 0 true fullMask)

def execAbortW (lk : Nat) (c : BitVec 576) (t : Nat) (s : State) : Host.Outcome State Fault Refusal :=
  s.answer (wfLink lk) (s.blk.rxRow lk c t [.abortW] (fun _ b => b.rxAbortW lk))

/-- The record that a response received on a link answers. -/
def Block.egressFor (b : Block) (lk src tag : Nat) (read : Bool) : Option Egress :=
  b.link.egress.find? (fun e => e.lk == lk && e.src == src && e.tag == tag && e.op != opSnp && (e.op == 0) == read)

/-- HEAD_D: an RDATA packet begins. -/
def Block.rxHeadD (b : Block) (lk c : Nat) : Block :=
  b.modLink lk (fun x => { x with inD := some { head := cPayload c % 2 ^ 128 } })

def execHeadD (lk : Nat) (c : BitVec 576) (t : Nat) (s : State) : Host.Outcome State Fault Refusal :=
  s.answer (wfLink lk) (s.blk.rxRow lk c t [.headD] (fun c b => b.rxHeadD lk c))

/-- One beat of an RDATA packet. Delivery begins at CT_THRESHOLD bytes, and from then on each beat but the last is forwarded as it arrives
(R332); the beats delivered are confirmed. -/
def Block.rxDataD (b : Block) (lk c : Nat) (poison : Bool) : Block :=
  match (b.linkAt lk).inD with
  | none => b
  | some p =>
    let p := { p with beats := p.beats ++ [mkBeat (cPayload c) poison fullMask] }
    match b.egressFor lk (dSrc p.head) (dTag p.head) true with
    | some e =>
      let p := { p with begun := p.begun || decide (64 * p.beats.length ≥ b.reg (Reg.ctThreshold (lk / 8))) }
      let (p, b) := if p.begun then b.forwardD lk p (dLen p.head) 0 else (p, b)
      let b := b.modLink lk (fun x => { x with inD := some p })
      { b with link := { b.link with egress := b.link.egress.map (fun y => if y == e then { e with beats := p.sent } else y) } }
    | none => b.modLink lk (fun x => { x with inD := some p })

/-- DATA_D. -/
def execDataD (lk : Nat) (c : BitVec 576) (t : Nat) (s : State) : Host.Outcome State Fault Refusal :=
  s.answer (wfLink lk) (s.blk.rxRow lk c t [.dataD] (fun c b => b.rxDataD lk c false))

/-- DATA_D_P. -/
def execDataDP (lk : Nat) (c : BitVec 576) (t : Nat) (s : State) : Host.Outcome State Fault Refusal :=
  s.answer (wfLink lk) (s.blk.rxRow lk c t [.dataDP] (fun c b => b.rxDataD lk c true))

/-- TAIL_D: the packet's status, and the rest of its beats to the initiator, the last with the status. A packet that answers no open
request is late (R28), but one whose forwarding began goes on to its end. A beat that never came is a poisoned zero beat. -/
def Block.rxTailD (b : Block) (lk c : Nat) : Block :=
  match (b.linkAt lk).inD with
  | none => b
  | some p =>
    let b := b.modLink lk (fun x => { x with inD := none })
    let st := Status.received (cPayload c % 16)
    let src := dSrc p.head
    let tag := dTag p.head
    let rest (b : Block) : Block := (b.forwardD lk { p with beats := padPacket p } (dLen p.head + 1) st).2
    match b.egressFor lk src tag true with
    | none => if 0 < p.sent then rest b else b.late src tag st p.beats.length
    | some e =>
      let b := if st = Status.pathLost then b.holdOff e.node lk else b
      (rest (b.closeEgress e)).retryOctet (lk / 8)

def execTailD (lk : Nat) (c : BitVec 576) (t : Nat) (s : State) : Host.Outcome State Fault Refusal :=
  s.answer (wfLink lk) (s.blk.rxRow lk c t [.tailD] (fun c b => b.rxTailD lk c))

/-- One RSP flit received on a link: it closes its egress record and goes on to the requester (R333, R334, R348). -/
def Block.rxRspFlit (lk : Nat) (b : Block) (f : Nat) : Block :=
  let o := lk / 8
  let st := Status.received (rStatus f)
  if rOp f = 2 then
    match b.link.egress.find? (fun e => e.lk == lk && e.op == opSnp && e.src == rDst f && e.tag == rMsg f) with
    | none => b.late (rDst f) (rMsg f) st 0
    | some e =>
      let b := if st = Status.pathLost then b.holdOff e.node lk else b
      ((b.closeEgress e).sendRsp o 0 (rspFlit 2 st e.src 0 0 o 0 (e.tag * 2 ^ 11))).retryOctet o
  else if rOp f ≤ 1 then
    match b.egressFor lk (rDst f) (rTag f) (rOp f == 1) with
    | none => b.late (rDst f) (rTag f) st (rBeats f)
    | some e =>
      let b := if st = Status.pathLost then b.holdOff e.node lk else b
      ((b.closeEgress e).sendRsp o 0 (rspFlit (rOp f) st e.src e.tag (rBeats f) o 0 (rArg f % 2))).retryOctet o
  else b

/-- RSP: TYPE + 1 flits. -/
def Block.rxRspContainer (b : Block) (lk c : Nat) : Block :=
  ((List.range (cType c + 1)).map (fun i => bitsOf (cPayload c) (64 * i + 63) (64 * i))).foldl (Block.rxRspFlit lk) b

def execRsp (lk : Nat) (c : BitVec 576) (t : Nat) (s : State) : Host.Outcome State Fault Refusal :=
  s.answer (wfLink lk) (s.blk.rxRow lk c t [.rsp] (fun c b => b.rxRspContainer lk c))

/-- NULL: only its credit return, taken with its acceptance. -/
def execNull (lk : Nat) (c : BitVec 576) (t : Nat) (s : State) : Host.Outcome State Fault Refusal :=
  s.answer (wfLink lk) (s.blk.rxRow lk c t [.null] (fun _ b => b))

/-- Payload flits of an SNP container. -/
def snpPayload (c : Nat) (n : Nat) : List Nat :=
  (List.range n).map (fun j => bitsOf (cPayload c) (64 * j + 127) (64 * j + 64))

/-- Payload flits of each SNP operation (Table 8.11). -/
def snpFlits (op : Nat) : Nat :=
  if op = snpTrackerBits then 4
  else if [snpShootdown, snpMigFence, snpMigLift, snpSample, snpTrackerArm, snpRelease, snpFrameGrant].contains op then 1 else 0

/-- SNP_K (R333). -/
def Block.rxSnpK (b : Block) (lk c : Nat) : Block :=
  let h := cPayload c % 2 ^ 64
  b.proxySnp lk h (snpPayload c (snpFlits (sOp h)))

def execSnpK (lk : Nat) (c : BitVec 576) (t : Nat) (s : State) : Host.Outcome State Fault Refusal :=
  s.answer (wfLink lk) (s.blk.rxRow lk c t [.snpK] (fun c b => b.rxSnpK lk c))

/-- SNP_A: an answer goes on to the requester and closes its record; one with no open record is late (R28). -/
def Block.rxSnpA (b : Block) (lk c : Nat) : Block :=
  let h := cPayload c % 2 ^ 64
  match b.link.egress.find? (fun e => e.lk == lk && e.op == opSnp && e.src == sSrc h && e.tag == sMsg h) with
  | none => b.late (sSrc h) (sMsg h) (Status.received (sStatus h)) 0
  | some e =>
    let b := if Status.received (sStatus h) = Status.pathLost then b.holdOff e.node lk else b
    let (stn, port) := b.iniPlace e.src
    ((b.closeEgress e).sendSnpFrom (lk / 8) 0 (snpHeader (sOp h) (sFlits h) e.src stn port e.tag (sNode h) (Status.received (sStatus h)) (sArg h))
      (snpPayload c (snpFlits (sOp h)))).retryOctet (lk / 8)

def execSnpA (lk : Nat) (c : BitVec 576) (t : Nat) (s : State) : Host.Outcome State Fault Refusal :=
  s.answer (wfLink lk) (s.blk.rxRow lk c t [.snpA] (fun c b => b.rxSnpA lk c))

/-- CRC_FAILURE: a container that lies in a block with an error mark (R316). -/
def execCrcFailure (lk t : Nat) (s : State) : Host.Outcome State Fault Refusal :=
  s.answer (wfLink lk) (s.blk.linkEventIf lk t (fun b => b.linkState lk == kActive) (fun b => b.crcFailed lk))

/-! Control blocks. -/

/-- Containers up to a sequence number freed from the replay buffer (R327). -/
def Block.rxAck (b : Block) (lk blk : Nat) : Block :=
  let x := b.linkAt lk
  let n := bitsOf blk 119 108
  if x.replay.any (fun e => e.1 == n) then
    let left := (x.replay.dropWhile (fun e => e.1 != n)).drop 1
    b.setLink lk { x with replay := left, answers := x.answers.filter (fun a => left.any (fun e => e.1 == a.1)), replays := 0, progressAt := b.run }
  else b

/-- ACK. -/
def execAck (lk : Nat) (blk : BitVec 128) (t : Nat) (s : State) : Host.Outcome State Fault Refusal :=
  s.answer (wfLink lk) (s.blk.linkEvent lk t (fun b => b.rxControl lk 0x60 blk.toNat (fun b => b.rxAck lk blk.toNat)))

/-- Eight replays have made no progress: the link restarts its lanes and enters RECOVERY (R327). -/
def Block.giveUp (b : Block) (lk : Nat) : Block :=
  let b := (b.enabledLanes lk).foldl (fun b l => b.restartCmd l) b
  (b.modLink lk (fun x => { x with replays := 0 })).lanesMoved lk

/-- A replay, or the end of the replays. -/
def Block.replay (b : Block) (lk : Nat) (from' : Option Nat) : Block :=
  if (b.linkAt lk).replays ≥ 8 then b.giveUp lk else b.resend lk from'

/-- NAK. -/
def execNak (lk : Nat) (blk : BitVec 128) (t : Nat) (s : State) : Host.Outcome State Fault Refusal :=
  s.answer (wfLink lk) (s.blk.linkEvent lk t (fun b => b.rxControl lk 0x61 blk.toNat
    (fun b => if b.linkState lk = kActive then b.replay lk (some (bitsOf blk.toNat 119 108)) else b)))

/-- A valid INIT (R322). -/
def Block.rxInit (b : Block) (lk i : Nat) : Block :=
  if bitsOf i 116 105 = b.node ∨ bitsOf i 95 94 ≠ widthLog2 (b.linkWidth lk) then
    (if b.linkState lk = kInit then b.count (Reg.initRefusals lk) 1 else b)
  else
    let fresh := i.testBit 119
    let b := if fresh && b.holdsLink lk then b.partnerLost lk 3 else b
    if b.linkState lk = kInit ∧ (b.linkAt lk).fresh = fresh then
      (b.modLink lk (fun x => { x with partnerInit := some i })).settleLink lk
    else b

/-- INIT. -/
def execInit (lk : Nat) (blk : BitVec 128) (t : Nat) (s : State) : Host.Outcome State Fault Refusal :=
  s.answer (wfLink lk) (s.blk.linkEvent lk t (fun b => b.rxControl lk 0x62 blk.toNat (fun b => b.rxInit lk blk.toNat)))

/-- LANES (R338): the partner's RX_UP. -/
def Block.rxLanes (b : Block) (lk blk : Nat) : Block :=
  let b := b.modLink lk (fun x => { x with partnerUp := bitsOf blk 119 112 })
  if b.linkState lk = kActive then b.changeSet lk else b

/-- LANES. -/
def execLanes (lk : Nat) (blk : BitVec 128) (t : Nat) (s : State) : Host.Outcome State Fault Refusal :=
  s.answer (wfLink lk) (s.blk.linkEvent lk t (fun b => b.rxControl lk 0x63 blk.toNat (fun b => b.rxLanes lk blk.toNat)))

/-- A request discarded in the receive buffer completes FLUSHED with no beats (R336). -/
def Block.flushedReq (lk : Nat) (b : Block) (f : Nat) : Block :=
  b.respond lk (rspFlit (if qOp f = 0 then 1 else 0) Status.flushed (qSrc f) (qTag f) 0 (lk / 8) 0 0) none

/-- FLUSH received (R336): what the class still has in the receive buffer is discarded and completed, a packet being
forwarded is ended with poison, and FLUSH_ACK goes back. -/
def Block.rxFlush (b : Block) (lk vn : Nat) : Block :=
  let mine (h : Nat × List Nat) : Bool := h.1 == lk
  let b :=
    if vn = 0 then
      let fs := (b.link.rxHeld.filter mine).flatMap (·.2)
      let b := { b with link := { b.link with rxHeld := b.link.rxHeld.filter (fun h => !mine h) } }
      fs.foldl (Block.flushedReq lk) b
    else if vn = 1 then
      let ss := b.link.rxStreams.filter (fun h => h.1 == lk)
      let b := { b with link := { b.link with rxStreams := b.link.rxStreams.filter (fun h => h.1 != lk) } }
      let b := ss.foldl (fun b h => b.discardW lk { head := h.2.1, beats := h.2.2 }) b
      match (b.linkAt lk).inW with
      | none => b
      | some p =>
        let b := b.modLink lk (fun x => { x with inW := none })
        if p.begun then b.forwardW lk { p with beats := padPacket p, flushed := some (p.flushed.getD p.beats.length) } else b.discardW lk p
    else
      let ks := b.link.heldSnp.filter (fun h => h.1 == 64 + lk)
      let b := { b with link := { b.link with heldSnp := b.link.heldSnp.filter (fun h => h.1 != 64 + lk) } }
      ks.foldl (fun b h => b.respond lk (rspFlit 2 Status.flushed (sSrc h.2.1) 0 0 (lk / 8) 0 (sMsg h.2.1 * 2 ^ 11)) none) b
  let b := b.modLink lk (fun x => if vn = 0 then { x with oweQ := 0 } else if vn = 1 then { x with oweW := 0 } else { x with oweK := 0 })
  (b.sendControl lk 0x65 (vn * 2 ^ 102)).retryProxy (lk / 8)

/-- FLUSH: VN 2 is none of those that are flushed. -/
def execFlush (lk : Nat) (blk : BitVec 128) (t : Nat) (s : State) : Host.Outcome State Fault Refusal :=
  s.answer (wfLink lk) (s.blk.linkEvent lk t (fun b => b.rxControl lk 0x64 blk.toNat
    (fun b => if bitsOf blk.toNat 119 118 = 2 ∨ b.linkState lk ≠ kActive then b else b.rxFlush lk (bitsOf blk.toNat 119 118))))

/-- FLUSH_ACK (R336): the transmitter's credits for the class are the full allocation, and the FLUSH bit reads 0. -/
def Block.rxFlushAck (b : Block) (lk vn : Nat) : Block :=
  let x := b.linkAt lk
  if x.flushSent.testBit vn then
    let x := { x with flushSent := putBit x.flushSent vn false }
    let x := if vn = 0 then { x with creditQ := x.allocQ } else if vn = 1 then { x with creditW := x.allocW }
      else { x with creditK := x.allocK }
    (b.setLink lk x).setReg (Reg.flush lk) (putBit (b.reg (Reg.flush lk)) vn false)
  else b

/-- FLUSH_ACK. -/
def execFlushAck (lk : Nat) (blk : BitVec 128) (t : Nat) (s : State) : Host.Outcome State Fault Refusal :=
  s.answer (wfLink lk) (s.blk.linkEvent lk t (fun b => b.rxControl lk 0x65 blk.toNat
    (fun b => b.rxFlushAck lk (bitsOf blk.toNat 119 118))))

/-- A request discarded at the transmitter completes to its initiator with FLUSHED and zero beats (R335). -/
def Block.flushEgress (b : Block) (lk src tag : Nat) (snp : Bool) : Block :=
  match b.link.egress.find? (fun e => e.lk == lk && e.src == src && e.tag == tag && (e.op == opSnp) == snp) with
  | some e => (b.closeEgress e).octetAnswer (lk / 8) e Status.flushed 0
  | none => b

/-- KEEPALIVE (R341, R342). -/
def execKeepalive (lk : Nat) (blk : BitVec 128) (t : Nat) (s : State) : Host.Outcome State Fault Refusal :=
  s.answer (wfLink lk) (s.blk.linkEvent lk t (fun b => b.rxControl lk 0x33 blk.toNat
    (fun b => b.modLink lk (fun x => { x with lastRx := b.run }))))

/-! Electrical idle (R340). -/

/-- Whether a side may go idle: quiet for LINK_IDLE_US, everything acknowledged, no record and no proxy of the link. -/
def Block.mayIdle (b : Block) (lk : Nat) : Bool :=
  let x := b.linkAt lk
  b.linkState lk == kActive && b.reg (Reg.linkIdleUs lk) != 0 && decide (b.run ≥ x.quietSince + us (b.reg (Reg.linkIdleUs lk))) &&
    x.replay.isEmpty && x.queue.isEmpty && !b.link.egress.any (fun e => e.lk == lk) && !b.link.proxies.any (fun p => p.lk == lk && !p.lost)

/-- EIOS on every lane in the same slot, the rest of its codeword, and electrical idle (R301). -/
def Block.goIdle (b : Block) (lk : Nat) : Block :=
  let b := (b.sendRow lk).transmit lk Tx.eios
  let b := (b.enabledLanes lk).foldl (fun b l => (b.stopStream l).emit .lane l [0]) b
  (b.modLink lk (fun x => { x with idleAsked := false, leaving := 0, tx := {} })).enterLink lk kIdle

/-- IDLE_REQ. -/
def execIdleReq (lk : Nat) (blk : BitVec 128) (t : Nat) (s : State) : Host.Outcome State Fault Refusal :=
  s.answer (wfLink lk) (s.blk.linkEvent lk t (fun b => b.rxControl lk 0x68 blk.toNat
    (fun b => if b.mayIdle lk then (b.sendControl lk 0x69 0).goIdle lk else b)))

/-- IDLE_ACK. -/
def execIdleAck (lk : Nat) (blk : BitVec 128) (t : Nat) (s : State) : Host.Outcome State Fault Refusal :=
  s.answer (wfLink lk) (s.blk.linkEvent lk t (fun b => b.rxControl lk 0x69 blk.toNat
    (fun b => if (b.linkAt lk).idleAsked && b.linkState lk == kActive then b.goIdle lk else b)))

/-- Whether IDLE_REQ is due: the conditions hold, and none has been sent since they began to, or LINK_IDLE_US ago without an answer
(DESIGN CHOICE, log 211). -/
def Block.idleReqDue (b : Block) (lk : Nat) : Bool :=
  b.mayIdle lk && (!(b.linkAt lk).idleAsked || decide (b.run ≥ (b.linkAt lk).askedAt + us (b.reg (Reg.linkIdleUs lk))))

/-- LINK_IDLE_TIMER. -/
def execLinkIdleTimer (lk t : Nat) (s : State) : Host.Outcome State Fault Refusal :=
  s.answer (wfLink lk) (s.blk.linkEventIf lk t (fun b => b.idleReqDue lk)
    (fun b => (b.sendControl lk 0x68 0).modLink lk (fun x => { x with idleAsked := true, askedAt := b.run })))

/-- IDLE_KEEPALIVE_EXIT: an IDLE link leaves idle at least every 1 ms. -/
def execIdleKeepaliveExit (lk t : Nat) (s : State) : Host.Outcome State Fault Refusal :=
  s.answer (wfLink lk) (s.blk.linkEventIf lk t
    (fun b => b.linkState lk == kIdle && decide (b.run ≥ (b.linkAt lk).since + ms 1)) (fun b => b.leaveIdle lk))

/-- Whether a link that leaves IDLE becomes ACTIVE at the edge of the limit. -/
def State.exitWon (s : State) (lk t : Nat) : Bool :=
  (s.settle (fun d => match d with
    | .trainingBurst u t' => atEdge t t' (execTrainingBurst u t')
    | .laneUp l t' => atEdge t t' (execLaneUp l t')
    | .init l blk t' => atEdge t t' (execInit l blk t')
    | _ => none)).blk.linkState lk == kActive

/-- IDLE_EXIT_TIMEOUT: a link that leaves IDLE is not ACTIVE within 30 µs. -/
def execIdleExitTimeout (lk t : Nat) (s : State) : Host.Outcome State Fault Refusal :=
  s.answer (wfLink lk) (s.limit (s.exitWon lk t) t (s.blk.linkEventIf lk t
    (fun b => b.linkState lk == kIdle && decide (0 < (b.linkAt lk).leaving ∧ b.run + 1 ≥ (b.linkAt lk).leaving + us 30))
    (fun b => b.partnerLost lk 5)))

/-! Timers (R325, R327, R341, R342). -/

/-- ACK_TIMER. -/
def execAckTimer (lk t : Nat) (s : State) : Host.Outcome State Fault Refusal :=
  s.answer (wfLink lk) (s.blk.linkEventIf lk t
    (fun b => decide (0 < (b.linkAt lk).accepted ∧ b.run ≥ (b.linkAt lk).acceptedAt + 14400) && b.linkState lk == kActive)
    (fun b => b.sendAck lk))

/-- The rows by which a link receives a container or a KEEPALIVE at time `t` (R342). -/
def heardRow (t : Nat) : Instr → Option (State → Host.Outcome State Fault Refusal)
  | .req l c t' => atEdge t t' (execReq l c t')
  | .headW l c t' => atEdge t t' (execHeadW l c t')
  | .mask l c t' => atEdge t t' (execMask l c t')
  | .dataW l c t' => atEdge t t' (execDataW l c t')
  | .dataWP l c t' => atEdge t t' (execDataWP l c t')
  | .abortW l c t' => atEdge t t' (execAbortW l c t')
  | .headD l c t' => atEdge t t' (execHeadD l c t')
  | .dataD l c t' => atEdge t t' (execDataD l c t')
  | .dataDP l c t' => atEdge t t' (execDataDP l c t')
  | .tailD l c t' => atEdge t t' (execTailD l c t')
  | .rsp l c t' => atEdge t t' (execRsp l c t')
  | .null l c t' => atEdge t t' (execNull l c t')
  | .snpK l c t' => atEdge t t' (execSnpK l c t')
  | .snpA l c t' => atEdge t t' (execSnpA l c t')
  | .keepalive l blk t' => atEdge t t' (execKeepalive l blk t')
  | _ => none

/-- Whether the container a link waits for comes at the edge at which NAK would be repeated (R325). -/
def State.orderWon (s : State) (lk t : Nat) : Bool :=
  (s.blk.linkAt lk).discarding && !((s.settle (heardRow t)).blk.linkAt lk).discarding

/-- Whether a link hears its partner at the edge of the limit (R342). -/
def State.heardWon (s : State) (lk t : Nat) : Bool :=
  decide ((s.blk.linkAt lk).lastRx < ((s.settle (heardRow t)).blk.linkAt lk).lastRx)

/-- Whether an ACK frees a container of a link at the edge of the limit (R327). -/
def State.ackWon (s : State) (lk t : Nat) : Bool :=
  let u := (s.settle (fun d => match d with
    | .ack l blk t' => atEdge t t' (execAck l blk t')
    | _ => none)).blk
  decide ((u.linkAt lk).replay.length < (s.blk.linkAt lk).replay.length)

/-- Whether a lane of a dark link detects a signal at the edge of the limit (R342). -/
def State.lightWon (s : State) (lk t : Nat) : Bool :=
  let u := (s.settle (fun d => match d with
    | .detectPass l t' => atEdge t t' (execDetectPass l t')
    | _ => none)).blk
  (s.blk.enabledLanes lk).all (fun l => s.blk.reg (Reg.signal l) == 0) &&
    (u.enabledLanes lk).any (fun l => u.reg (Reg.signal l) == 1)

/-- NAK_REPEAT. -/
def execNakRepeat (lk t : Nat) (s : State) : Host.Outcome State Fault Refusal :=
  s.answer (wfLink lk) (s.limit (s.orderWon lk t) t (s.blk.linkEventIf lk t
    (fun b => (b.linkAt lk).discarding && b.linkState lk == kActive && decide (b.run ≥ (b.linkAt lk).nakAt + us 2))
    (fun b => b.sendNak lk)))

/-- REPLAY_TIMEOUT. -/
def execReplayTimeout (lk t : Nat) (s : State) : Host.Outcome State Fault Refusal :=
  s.answer (wfLink lk) (s.limit (s.ackWon lk t) t (s.blk.linkEventIf lk t
    (fun b => !(b.linkAt lk).replay.isEmpty && b.linkState lk == kActive && decide (b.run ≥ (b.linkAt lk).progressAt + us 4))
    (fun b => b.replay lk none)))

/-- KEEPALIVE_TIMER. -/
def execKeepaliveTimer (lk t : Nat) (s : State) : Host.Outcome State Fault Refusal :=
  s.answer (wfLink lk) (s.blk.linkEventIf lk t
    (fun b => b.linkState lk == kActive && decide (b.run ≥ (b.linkAt lk).lastTx + us 10)) (fun b => b.sendKeepalive lk))

/-- KEEPALIVE_TIMEOUT: in electrical idle no keep-alive is expected (R301). -/
def execKeepaliveTimeout (lk t : Nat) (s : State) : Host.Outcome State Fault Refusal :=
  s.answer (wfLink lk) (s.limit (s.heardWon lk t) t (s.blk.linkEventIf lk t
    (fun b => b.holdsLink lk && b.linkState lk != kIdle && decide (b.run ≥ (b.linkAt lk).lastRx + us 30))
    (fun b => b.partnerLost lk 2)))

/-- SIGNAL_LOSS_TIMEOUT. -/
def execSignalLossTimeout (lk t : Nat) (s : State) : Host.Outcome State Fault Refusal :=
  s.answer (wfLink lk) (s.limit (s.lightWon lk t) t (s.blk.linkEventIf lk t
    (fun b => b.holdsLink lk && b.linkState lk != kIdle && decide (0 < (b.linkAt lk).darkSince ∧
      b.run + 1 ≥ (b.linkAt lk).darkSince + us 4) && (b.enabledLanes lk).all (fun l => b.reg (Reg.signal l) == 0))
    (fun b => b.partnerLost lk 1)))

/-! A flush begins (R335). -/

/-- The flush of one virtual network begins at the transmitter (R335, items 1 and 2). -/
def Block.startFlush (b : Block) (lk vn : Nat) : Block :=
  let q := (b.linkAt lk).queue
  let heads := if vn = 0 then q.filter (fun i => i.cls == 0) else if vn = 1 then q.filter (fun i => i.vt == vtHeadW)
    else q.filter (fun i => i.cls == 3)
  let gone (i : TxItem) : Bool :=
    (i.cls == 3 && vn == 3) || ((i.cls == 0 || i.cls == 1) && vn != 3 && heads.any (fun h => h.src == i.src && h.tag == i.tag))
  let abort (i : TxItem) : List TxItem :=
    if i.cls = 1 ∧ vn = 1 then (if i.vt = vtMask then [] else [{ i with vt := vtAbortW, payload := 0 }]) else [i]
  let b := b.modLink lk (fun x => { x with queue := (x.queue.filter (fun i => !gone i)).flatMap abort })
  let b := b.setReg (Reg.flush lk) (putBit (b.reg (Reg.flush lk)) vn true)
  let b := heads.foldl (fun b h => b.flushEgress lk h.src h.tag (vn == 3)) b
  b.retryOctet (lk / 8)

/-- FLUSH_START: a write of FLUSH; a bit that is already set goes on as it was. Where the link loses its partner at that edge, nothing
is discarded: what the loss ends completes with PATH_LOST, which comes before FLUSHED (R29). -/
def Block.writeFlush (b : Block) (lost : Bool) (lk v : Nat) : Nat × Block :=
  b.guarded [(!b.startsLink lk, Abort.condition), badValue (Reg.flush lk) v]
    (fun b => [0, 1, 3].foldl (fun b vn =>
      if v.testBit vn && !(b.reg (Reg.flush lk)).testBit vn && !lost then b.startFlush lk vn else b) b)

/-- The rows by which a link loses its partner at time `t` (R342). -/
def lossRow (lk t : Nat) : Instr → Option (State → Host.Outcome State Fault Refusal)
  | .init l blk t' => if l = lk then atEdge t t' (execInit l blk t') else none
  | .idleExitTimeout l t' => if l = lk then atEdge t t' (execIdleExitTimeout l t') else none
  | .keepaliveTimeout l t' => if l = lk then atEdge t t' (execKeepaliveTimeout l t') else none
  | .signalLossTimeout l t' => if l = lk then atEdge t t' (execSignalLossTimeout l t') else none
  | _ => none

/-- Whether a link loses its partner at time `t`. -/
def State.losesPartner (s : State) (lk t : Nat) : Bool :=
  (s.settle (lossRow lk t)).blk.reg (Reg.partnerLosses lk) != s.blk.reg (Reg.partnerLosses lk)

/-- FLUSH_START. -/
def execFlushStart (lk v t : Nat) (s : State) : Host.Outcome State Fault Refusal :=
  s.answer true ((s.blk.at t).hostLink (wfLink lk) lk t (fun b => b.writeFlush (s.losesPartner lk t) lk v))

/-! Routes (R347 to R349). -/

/-- HOLDOFF_EXPIRY. -/
def execHoldoffExpiry (node lk t : Nat) (s : State) : Host.Outcome State Fault Refusal :=
  s.answer (wfNode node && wfLink lk) (s.blk.eventIf t
    (fun b => let h := b.link.holdoff.look (512 * node + lk); decide (0 < h ∧ h ≤ b.run))
    (fun b => { b with link := { b.link with holdoff := b.link.holdoff.put (512 * node + lk) 0 } }.routesChanged))

/-- Containers queued at an octet. -/
def Block.octetQueued (b : Block) (o : Nat) : Nat := sumOf ((List.range 8).map (fun i => (b.linkAt (8 * o + i)).queue.length))

/-- Whether an octet holds a record or a queued packet for a node. -/
def Block.octetBusy (b : Block) (o n : Nat) : Bool :=
  b.link.egress.any (fun e => e.lk / 8 == o && e.node == n) || (b.heldReqs o).contains n || (b.heldStreams o).contains n ||
    (b.heldSnps o).contains n

/-- ADAPT_SWITCH (R347): CUR moves to the usable choice whose octet has the fewest containers queued. -/
def Block.adaptSwitch (b : Block) (n : Nat) : Block :=
  let e := b.link.routes.look n
  let octet (c : Nat) : Nat := ((routeChoice e c).getD 0) / 8
  if b.reg Reg.adaptMode = 1 ∧ !b.octetBusy (octet (routeCur e)) n then
    match leastBy (fun c => b.octetQueued (octet c)) (b.usableChoices n) with
    | some c => if b.octetQueued (octet c) < b.octetQueued (octet (routeCur e)) then b.setCur n c else b
    | none => b
  else b

/-- ADAPT_SWITCH. -/
def execAdaptSwitch (node t : Nat) (s : State) : Host.Outcome State Fault Refusal :=
  s.answer (wfNode node) (s.blk.event t (fun b => b.adaptSwitch node))

/-- Whether a node has been unreachable for NODE_LOST_US and is not lost yet. -/
def Block.nodeLostDue (b : Block) (n : Nat) : Bool :=
  let u := b.link.unreach.look n
  decide (0 < u ∧ b.run + 1 ≥ u + us (b.reg Reg.nodeLostUs)) && !b.link.lost.contains n

/-- The loss of a node (R349): its trackers are released, their frames wiped and returned to the pool (R237), migrations
that name it abandoned, and the loss logged. -/
def Block.nodeLost (b : Block) (n : Nat) : Block :=
  let b := { b with link := { b.link with lost := n :: b.link.lost } }
  let armed := b.mig.trackers.filterMap (fun e => match e.2 with
    | some q => if q.node = n ∧ n ≠ b.node then some (e.1, q.frame) else none
    | none => none)
  let b := armed.foldl (fun b e => (b.freeTracker e.1).returnFrame e.2) b
  let names (m : Nat) : Bool := b.reg (Reg.mslotState m) != 0 && ((b.mslotSource m).1 == n || (b.mslotDest m).1 == n)
  let b := ((List.range 32).filter names).foldl (fun b m => b.abandon m Status.pathLost) b
  b.logEvent 0x0502 6 n 0

/-- NODE_LOST. -/
def execNodeLost (node t : Nat) (s : State) : Host.Outcome State Fault Refusal :=
  s.answer (wfNode node) (s.blk.eventIf t (fun b => b.nodeLostDue node) (fun b => b.nodeLost node))

/-- NODE_ID: written while every link is DISABLED or DOWN (R345, R356). -/
def Block.writeNodeId (b : Block) (v : Nat) : Nat × Block :=
  b.guarded [((List.range 512).any (fun lk => b.startsLink lk && decide (b.linkState lk ≥ 2)), Abort.notIdle),
      badValue Reg.nodeId v]
    (fun b => b.setReg Reg.nodeId v)

/-- NODE_ID. -/
def execNodeId (v : Nat) (s : State) : Host.Outcome State Fault Refusal :=
  s.answer true (s.blk.host (fun b => b.writeNodeId v))

/-- TIME_REQ: answered with T2, the swarm time at its arrival, and TURN, the time to the departure of the answer, which is
not more than 10 µs. -/
def Block.rxTimeReq (b : Block) (lk blk frac turn : Nat) : Block :=
  b.sendControl lk 0x67 (bitsOf blk 119 112 * 2 ^ 96 + b.slewTime.swarmAt frac % 2 ^ 72 * 2 ^ 24 + min turn 256000)

def execTimeReq (lk : Nat) (blk : BitVec 128) (t frac turn : Nat) (s : State) : Host.Outcome State Fault Refusal :=
  s.answer (wfLink lk) (s.blk.linkEventIf lk t (fun b => b.linkState lk == kActive)
    (fun b => b.rxControl lk 0x66 blk.toNat (fun b => b.rxTimeReq lk blk.toNat frac turn)))

/-- TIME_RSP (R352): delay and offset; the first exchange, and an error above 1 µs, is stepped, any other slewed. -/
def Block.rxTimeRsp (b : Block) (blk frac : Nat) : Block :=
  let x := b.link.time
  match x.sent with
  | none => b
  | some (t1, sentAt) =>
    if bitsOf blk 119 112 ≠ x.id ∨ b.run > sentAt + us 100 then b
    else
      let b := b.slewTime
      let t4 : Int := (b.ts * 256 + frac % 256 : Nat)
      let turn : Int := (bitsOf blk 39 16 : Nat)
      let d := ((t4 - (t1 : Nat)) - turn) / 2
      let want := (bitsOf blk 111 40 : Nat) + turn + d - t4
      let err := signedOf 72 (unsignedOf 72 (want - signedOf 64 (b.reg Reg.swarmOffset)))
      let step := !x.acquired || decide (err > 25600 ∨ err < -25600)
      let b := b.setRegs [(Reg.pathDelay, unsignedOf 32 (max 0 d)), (Reg.timeState, 2)]
      let b := if step then (b.setReg Reg.swarmOffset (unsignedOf 64 want)).count Reg.timeSteps 1 else b
      { b with link := { b.link with time := { x with
          sent := none, acquired := true, slew := if step then 0 else err, slewedAt := b.run } } }

/-- Whether a link index is the time parent. -/
def Block.isParent (b : Block) (lk : Nat) : Bool := b.reg Reg.timeParent == lk

def execTimeRsp (lk : Nat) (blk : BitVec 128) (t frac : Nat) (s : State) : Host.Outcome State Fault Refusal :=
  s.answer (wfLink lk) (s.blk.linkEventIf lk t (fun b => b.isParent lk && b.linkState lk == kActive)
    (fun b => b.rxControl lk 0x67 blk.toNat (fun b => b.rxTimeRsp blk.toNat frac)))

/-- A time interval of a child (R352, R353): TIME_REQ with a new ID, or holdover while the parent link is not ACTIVE. -/
def Block.timeInterval (b : Block) (frac : Nat) : Block :=
  let lk := b.reg Reg.timeParent
  let b := b.slewTime
  if lk ≥ 512 then b.setReg Reg.timeState 0
  else if b.linkState lk ≠ kActive then
    { b.setReg Reg.timeState 3 with link := { b.link with time := { b.link.time with sent := none, acquired := false, slew := 0, lastAsk := b.run } } }
  else
    let x := b.link.time
    let id := (x.id + 1) % 256
    let b := if x.acquired then b else b.setReg Reg.timeState 1
    { (b.sendControl lk 0x66 (id * 2 ^ 96)).flushLine lk with
        link := { b.link with time := { x with id := id, sent := some (b.ts * 256 + frac % 256, b.run), lastAsk := b.run } } }

/-- TIME_INTERVAL: TIME_INTERVAL_US since the last. -/
def execTimeInterval (t frac : Nat) (s : State) : Host.Outcome State Fault Refusal :=
  s.answer true (s.blk.eventIf t (fun b => decide (b.run ≥ b.link.time.lastAsk + us (b.reg Reg.timeIntervalUs)))
    (fun b => b.timeInterval frac))

/-- Whether the TIME_RSP awaited comes at the edge of the limit. -/
def State.timeWon (s : State) (t : Nat) : Bool :=
  s.blk.link.time.sent.isSome && (s.settle (fun d => match d with
    | .timeRsp lk blk t' frac => atEdge t t' (execTimeRsp lk blk t' frac)
    | _ => none)).blk.link.time.sent.isNone

/-- TIME_RSP_TIMEOUT (R353): 100 µs after its TIME_REQ a TIME_RSP no longer counts. -/
def execTimeRspTimeout (t : Nat) (s : State) : Host.Outcome State Fault Refusal :=
  s.answer true (s.limit (s.timeWon t) t (s.blk.eventIf t
    (fun b => match b.link.time.sent with | some (_, at') => decide (b.run ≥ at' + us 100) | none => false)
    (fun b => { b with link := { b.link with time := { b.link.time with sent := none } } })))

end Sys2Proof.Machine
end

