-- ==== Sys2Proof/Machine/Snoop.lean ====
section
/-! DEFINITION. SNP packets at the ports they are for (R259), the ends of wipes and of frames added to the pool, and the
stations' own events (R266, R271, R272). -/

namespace Sys2Proof.Machine

open Sys2Proof

/-- The SACK of a command from a station port. -/
def Block.sendSack (b : Block) (h stn port status : Nat) : Block :=
  b.sendRsp stn port (rspFlit 2 status (sSrc h) 0 0 stn port (sMsg h * 2 ^ 11))

/-- A command refused by a station, counted. -/
def Block.refuseSnp (b : Block) (h stn port st counter : Nat) : Block :=
  (b.count counter 1).sendSack h stn port st

/-- The operations that Table 8.11 reserves. -/
def snpReserved (op : Nat) : Bool := !([1, 2, 3, 4, 5, 8, 9, 10, 11, 12, 32, 33, 34].contains op)

/-- The stations that a command reaches. -/
def snpStations (h : Nat) : List Nat := if sStn h = 127 then List.range 66 else if sStn h < 66 then [sStn h] else []

/-- A command refused MALFORMED by every station that it reaches (R266). -/
def Block.snpMalformed (b : Block) (h : Nat) : Block :=
  (snpStations h).foldl (fun b s => b.refuseSnp h s (sPort h) Status.malformed Reg.malformedRefusals) b

/-- A command of a row's operation, or of a reserved one, as it comes in its turn (R266, R269). -/
def Block.snpEvent (b : Block) (op : Nat) (h : BitVec 64) (f : Nat → Block → Block) : Block :=
  if b.clocked && (sOp h.toNat == op || snpReserved (sOp h.toNat)) && b.net.noc.inTurn 3 h.toNat then
    let b := b.arrived 3 h.toNat
    if snpReserved (sOp h.toNat) then b.snpMalformed h.toNat else f h.toNat b
  else b

/-! Commands to the taps (R143, R230). -/

/-- The taps a command addresses, 16·die + tap: all of them, or the one at its station. -/
def tapsOf (h : Nat) : List Nat := if sStn h = 127 then List.range 32 else (tapAt (sStn h)).toList

/-- Whether a command names a tap's port, or every port of the kind, and no reserved ARG, at a station that has one (R248, R266). -/
def tapCommand (h : Nat) : Bool := (sPort h == 7 || sPort h == 15) && sArg h == 0 && !(tapsOf h).isEmpty

/-- A command acted on by the taps it addresses; a fenced one's station answers SEAM_FENCE (R267), and one for no tap is refused
(R266). -/
def Block.atTaps (b : Block) (h : Nat) (f : Block → Nat → Block) : Block :=
  if !tapCommand h then b.snpMalformed h
  else (tapsOf h).foldl (fun b q =>
    let stn := tapStation (q / 16) (q % 16)
    if b.portFenced stn (.tap (q / 16) (q % 16)) then b.refuseSnp h stn 7 Status.seamFence Reg.fenceRefusals else f b q) b

/-- A shootdown behind one tap: entries dropped, and the acknowledgement owed. -/
def Block.shootTap (h entry : Nat) (b : Block) (q : Nat) : Block :=
  let b := b.dropEntry entry q
  { b with net := { b.net with acks := b.net.acks ++ [TapAck.mk h entry q] } }

/-- The local offset of an entry named by its global address, on this node. -/
def Block.entryOffset (b : Block) (a : Nat) : Option Nat := if bitsOf a 63 52 = b.node then some (bitsOf a 51 0) else none

/-- A shootdown at the taps (R143). -/
def Block.shootdown (b : Block) (h entry : Nat) : Block :=
  (b.atTaps h (Block.shootTap h ((b.entryOffset entry).getD (2 ^ 52)))).settleAcks

/-- SHOOTDOWN. -/
def execShootdown (hdr : BitVec 64) (entry : Nat) (s : State) : Host.Outcome State Fault Refusal :=
  s.answer true (s.blk.snpEvent snpShootdown hdr (fun h b => b.shootdown h entry))

/-- A migration fence (R230): as a shootdown, and refills of the entry wait until it is lifted. -/
def Block.migFence (b : Block) (h entry : Nat) : Block :=
  let b := match (if tapCommand h then b.entryOffset entry else none) with
    | none => b
    | some a =>
      let raise (e : Nat × Option MigJob) : Nat × Option MigJob := match e.2 with
        | some j => if j.ready.entry = a ∧ 320 + j.ready.scarab = sSrc h then (e.1, some { j with fenced := true }) else e
        | none => e
      { b with mig := { b.mig with fenced := a :: b.mig.fenced.filter (· != a), jobs := b.mig.jobs.map raise } }
  b.shootdown h entry

/-- MIG_FENCE. -/
def execMigFence (hdr : BitVec 64) (entry : Nat) (s : State) : Host.Outcome State Fault Refusal :=
  s.answer true (s.blk.snpEvent snpMigFence hdr (fun h b => b.migFence h entry))

/-- The lift of a migration fence. -/
def Block.migLift (b : Block) (h entry : Nat) : Block :=
  let b := match (if tapCommand h then b.entryOffset entry else none) with
    | some a => b.liftFence a
    | none => b
  b.atTaps h (fun b q => b.sendSack h (tapStation (q / 16) (q % 16)) 7 Status.ok)

/-- MIG_LIFT. -/
def execMigLift (hdr : BitVec 64) (entry : Nat) (s : State) : Host.Outcome State Fault Refusal :=
  s.answer true (s.blk.snpEvent snpMigLift hdr (fun h b => b.migLift h entry))

/-- The ports of a station that a SEAM_FENCE addresses: every riser's, or the one named. -/
def fencePorts (h : Nat) : List Nat := if sPort h = 15 then [1, 2, 3, 4, 5, 6] else [sPort h]

/-- Whether a port of a station is a riser's. -/
def riserPort (stn port : Nat) : Bool := match portKind stn port with | some (.riser _ _) => true | _ => false

/-- The fence of a seam raised or lowered at the stations a command reaches: at all of them, or at one. -/
def Block.setFence (b : Block) (h seam : Nat) (up : Bool) : Block :=
  if sStn h = 127 then
    let rest := b.net.fences.filter (· != seam)
    { b with net := { b.net with fences := if up then seam :: rest else rest
                                 fenceAt := b.net.fenceAt.filter (fun e => e.1 != seam) } }
  else
    let rest := b.net.fenceAt.filter (fun e => e != (seam, sStn h))
    { b with net := { b.net with fenceAt := if up then (seam, sStn h) :: rest else rest } }

/-- The seam fence raised or lowered at the stations reached and at the bridges of the ports named, each bridge counting the flit and
acknowledging it (Table 8.11, R259); a station whose named port is no bridge's refuses the command (R266). A lowered fence lets the
bridges deliver what they held (R448). -/
def Block.seamFence (b : Block) (h : Nat) : Block :=
  let seam := bitsOf (sArg h) 10 8
  if seam > 5 ∨ bitsOf (sArg h) 7 1 ≠ 0 then b.snpMalformed h
  else
    let up := (sArg h).testBit 0
    let b := if sPort h = 15 then b else
      ((snpStations h).filter (fun s => !riserPort s (sPort h))).foldl (fun b s =>
        b.refuseSnp h s (sPort h) Status.malformed Reg.malformedRefusals) b
    if sPort h ≠ 15 ∧ !(snpStations h).any (fun s => riserPort s (sPort h)) then b
    else
      let b := b.setFence h seam up
      let b := if up then b else b.deliverHeld
      ((List.range 256).filter (fun r => !b.isRetired r && (snpStations h).contains (b.riserPlace r).1 &&
          (fencePorts h).contains (b.riserPlace r).2)).foldl (fun b r =>
        (b.countBytes true 3 r 1).sendSack h (b.riserPlace r).1 (b.riserPlace r).2 Status.ok) b

/-- SEAM_FENCE. -/
def execSeamFence (hdr : BitVec 64) (s : State) : Host.Outcome State Fault Refusal :=
  s.answer true (s.blk.snpEvent snpSeamFence hdr (fun h b => b.seamFence h))

/-! Commands to one port. -/

/-- A command to one port: port 15 names the station's port of the kind addressed (R248). -/
def toPort (h kindPort : Nat) : Nat := if sPort h = 15 then putBits h 38 35 kindPort else h

/-- A command to one port: refused by its station, sent on by an octet, or served by the port. -/
def Block.snpArrives (b : Block) (h : Nat) (payload : List Nat) (serve : PortKind → Option (Block → Block)) : Block :=
  let stn := sStn h
  let port := sPort h
  match portKind stn port with
  | none => b.refuseSnp h stn port Status.malformed Reg.malformedRefusals
  | some k =>
    if b.portFenced stn k then b.refuseSnp h stn port Status.seamFence Reg.fenceRefusals
    else
      let b := match b.portIni stn port with
        | some i => b.countBytes true 3 i (1 + payload.length)
        | none => b
      match k with
      | .octet o => b.octetSnp o h payload
      | k => match serve k with
        | some f => f b
        | none => b.refuseSnp h stn port Status.malformed Reg.malformedRefusals

/-- TRACKER_ARM at the tap that serves the bank of the frame: armed at once, or once a tracker of the die is free. A command with
reserved bits is refused (R266). -/
def Block.trackerArm (b : Block) (h frame : Nat) : Block :=
  let h := toPort h 7
  let f := frame % 32768
  b.snpArrives h [frame] (fun k => match k with
    | .tap _ _ => if sArg h = 0 ∧ frame < 32768 ∧ localPort (65536 * f) = (sStn h, sPort h) then some (fun b => b.armTracker h f) else none
    | _ => none)

/-- TRACKER_ARM. -/
def execTrackerArm (hdr : BitVec 64) (frame : Nat) (s : State) : Host.Outcome State Fault Refusal :=
  s.answer (decide (frame < 2 ^ 64)) (s.blk.snpEvent snpTrackerArm hdr (fun h b => b.trackerArm h frame))

/-- The four payload flits of a dirty bitmap. -/
def bitmapFlits (w : Nat) : List Nat := (List.range 4).map (fun i => bitsOf w (64 * i + 63) (64 * i))

/-- A take by a migration of this node in its step FINAL: writes to S after it are stray (R236). -/
def Block.noteFinal (b : Block) (h : Nat) : Block :=
  match b.jobAt (sMsg h) with
  | some j => if 320 + j.ready.scarab = sSrc h ∧ b.reg (Reg.mslotState (sMsg h)) = 6 then
      b.setJob (sMsg h) (some { j with finalTaken := true }) else b
  | none => b

/-- TRACKER_TAKE at its tap: the bitmap is read and cleared in one access, and answered. -/
def Block.trackerTake (b : Block) (h : Nat) : Block :=
  let h := toPort h 7
  b.snpArrives h [] (fun k => match k with
    | .tap d _ => if 16 ≤ sArg h then none else some (fun b =>
        let q := 16 * d + sArg h % 16
        let (stn, port) := b.iniPlace (sSrc h)
        let answer (b : Block) (st w : Nat) : Block :=
          b.sendSnpFrom (sStn h) (sPort h) (snpHeader snpTrackerBits 4 (sSrc h) stn port (sMsg h) (sNode h) st (sArg h)) (bitmapFlits w)
        match b.mig.trackers.look q with
        | some t => answer ({ b with mig := { b.mig with trackers := b.mig.trackers.put q (some { t with bits := 0 }) } }.noteFinal h)
            Status.ok t.bits
        | none => answer b Status.malformed 0)
    | _ => none)

/-- TRACKER_TAKE. -/
def execTrackerTake (hdr : BitVec 64) (s : State) : Host.Outcome State Fault Refusal :=
  s.answer true (s.blk.snpEvent snpTrackerTake hdr (fun h b => b.trackerTake h))

/-- TRACKER_DISARM at its tap: the tracker is free. -/
def Block.trackerDisarm (b : Block) (h : Nat) : Block :=
  let h := toPort h 7
  b.snpArrives h [] (fun k => match k with
    | .tap d _ => if sArg h < 16 then
        some (fun b => (b.freeTracker (16 * d + sArg h % 16)).sendSack h (sStn h) (sPort h) Status.ok) else none
    | _ => none)

/-- TRACKER_DISARM. -/
def execTrackerDisarm (hdr : BitVec 64) (s : State) : Host.Outcome State Fault Refusal :=
  s.answer true (s.blk.snpEvent snpTrackerDisarm hdr (fun h b => b.trackerDisarm h))

/-- FRAME_REQ at the pool keeper, scarab 0: the lowest pool frame of the die, or none (R227, R237). -/
def Block.frameReq (b : Block) (h : Nat) : Block :=
  let h := toPort h 8
  b.snpArrives h [] (fun k => match k with
    | .scarab 0 => if sArg h > 1 then none else some (fun b =>
        let (stn, port) := b.iniPlace (sSrc h)
        let answer (b : Block) (st f : Nat) : Block :=
          b.sendSnpFrom (sStn h) (sPort h) (snpHeader snpFrameGrant 1 (sSrc h) stn port (sMsg h) (sNode h) st (sArg h)) [f]
        match b.poolFrameOn (sArg h) with
        | some f => answer (b.poolDrop f) Status.ok f
        | none => answer b Status.accessDenied 0)
    | _ => none)

/-- FRAME_REQ. -/
def execFrameReq (hdr : BitVec 64) (s : State) : Host.Outcome State Fault Refusal :=
  s.answer true (s.blk.snpEvent snpFrameReq hdr (fun h b => b.frameReq h))

/-- RELEASE at the pool keeper: the frame is wiped and returned to the pool (R228, R237). -/
def Block.release (b : Block) (h frame : Nat) : Block :=
  let h := toPort h 8
  b.snpArrives h [frame] (fun k => match k with
    | .scarab 0 => if sArg h ≠ 0 ∨ 32768 ≤ frame then none else some (fun b => (b.returnFrame (frame % 32768)).sendSack h (sStn h) (sPort h) Status.ok)
    | _ => none)

/-- RELEASE. -/
def execRelease (hdr : BitVec 64) (frame : Nat) (s : State) : Host.Outcome State Fault Refusal :=
  s.answer (decide (frame < 2 ^ 64)) (s.blk.snpEvent snpRelease hdr (fun h b => b.release h frame))

/-! Answers at their requester. -/

/-- An answer of class A: sent on by an octet, or the end of its sender's command, with what the content does. -/
def Block.answerArrives (b : Block) (h : Nat) (payload : List Nat) (f : Block → Block) : Block :=
  let ini := sSrc h
  let st := Status.received (sStatus h)
  let b := (b.arrived 3 h).countBytes true 3 ini (1 + payload.length)
  if 256 ≤ ini ∧ ini < 320 then (b.proxyAnswer (ini - 256) h payload).getD (b.late ini (sMsg h) st 0)
  else if !b.net.snp.any (fun o => o.ini == ini && o.msg == sMsg h) then b.late ini (sMsg h) st 0
  else
    let b := b.snpClose ini (sMsg h) st
    if st = Status.ok then f b else b.snpDone ini (sMsg h) st

/-- An event of an answer that carries the row's operation. -/
def Block.answerEvent (b : Block) (op : Nat) (h : BitVec 64) (t : Nat) (f : Nat → Block → Block) : Block :=
  b.eventIf t (fun b => sOp h.toNat == op && b.delivers 3 h.toNat) (f h.toNat)

/-- The job of the slot whose message an answer carries. -/
def Block.answeredJob (b : Block) (h : Nat) : Option (Nat × MigJob) :=
  match b.jobAt (sMsg h) with
  | some j => if 320 + j.ready.scarab = sSrc h ∧ j.msg = some (sMsg h) then some (sMsg h, j) else none
  | none => none

/-- TRACKER_ARMED: the migration has its tracker (Table 7.2). -/
def Block.trackerArmed (b : Block) (h : Nat) : Block :=
  b.answerArrives h [] (fun b => match b.answeredJob h with
    | some (m, j) => b.setJob m (some { j with msg := none, tracker := some (sArg h % 16) })
    | none => b)

/-- TRACKER_ARMED. -/
def execTrackerArmed (hdr : BitVec 64) (t : Nat) (s : State) : Host.Outcome State Fault Refusal :=
  s.answer true (s.blk.answerEvent snpTrackerArmed hdr t (fun h b => b.trackerArmed h))

/-- TRACKER_BITS: the chunks to be copied are known (Table 7.2); those of a take that asked for the count wait for the step it decides. -/
def Block.trackerBitsCame (b : Block) (h w : Nat) : Block :=
  b.answerArrives h (bitmapFlits w) (fun b => match b.answeredJob h with
    | some (m, j) =>
      let b := b.setReg (Reg.mslotDirty m) (popCount 256 w)
      let w' := if j.asking then w else w ||| j.carry
      let b := b.setJob m (some { j with msg := none, chunks := w', taken := true })
      if j.asking || j.ending.isSome then b else b.beginCopy m (chunkBlocks w')
    | none => b)

/-- TRACKER_BITS. -/
def execTrackerBits (hdr : BitVec 64) (bits : BitVec 256) (t : Nat) (s : State) : Host.Outcome State Fault Refusal :=
  s.answer true (s.blk.answerEvent snpTrackerBits hdr t (fun h b => b.trackerBitsCame h bits.toNat))

/-- FRAME_GRANT: the host's migration has its destination frame (R239). Where the host named another frame, the granted one is held
and a further one asked for; what was held is released once the named one has come, or none is left. -/
def Block.frameGrant (b : Block) (h frame : Nat) : Block :=
  let f := frame % 32768
  b.answerArrives h [frame] (fun b => match b.mig.hostWait with
    | none => b
    | some r =>
      if r.frame.getD f = f then
        { b with mig := { b.mig with hostWait := none, ready := b.mig.ready ++ [{ r with frame := some f }] } }.releaseHeld
      else
        let b := { b with mig := { b.mig with hostHeld := b.mig.hostHeld ++ [(r.scarab, r.node, f)] } }
        match b.routeTo r.node with
        | some lk => b.askFrame r (lk / 8)
        | none => ({ b with mig := { b.mig with hostWait := none } }.setReg Reg.hmigStatus Status.pathLost).releaseHeld)

/-- FRAME_GRANT. -/
def execFrameGrant (hdr : BitVec 64) (frame : Nat) (t : Nat) (s : State) : Host.Outcome State Fault Refusal :=
  s.answer (decide (frame < 2 ^ 64)) (s.blk.answerEvent snpFrameGrant hdr t (fun h b => b.frameGrant h frame))

/-! Wipes that end. -/

/-- What waited for a wipe goes on. -/
def Block.afterWipe (b : Block) : Block :=
  let ws := b.mem.postponed
  let b := ws.foldl (fun b w => if b.wiping (w.2.1 / 64) then { b with mem := { b.mem with postponed := b.mem.postponed ++ [w] } }
    else (b.tapWrite (320 + w.1) w.2.1 16 w.2.2).2) { b with mem := { b.mem with postponed := [] } }
  let b := b.retryHeld.retryWaiting
  if b.mig.epochOwed then b.epochWork else b

/-- WIPE_COMPLETE (R155 to R157). -/
def Block.wipeComplete (b : Block) : Block :=
  ({ b with mem := { b.mem with wipe := none } }.setReg Reg.wipeStatus Status.ok).afterWipe

/-- POOL_ADD_END (R225): the pool bit is set once the wipe is done, unless the bank has left service meanwhile. -/
def Block.poolAddEnd (b : Block) : Block :=
  match b.mig.adding with
  | none => b
  | some f =>
    let b := { b with mig := { b.mig with adding := none } }
    let ok := b.reg (Reg.bankState (bankOfFrame f)) == 0
    let b := if ok then b.poolAdd f else b
    (b.setReg Reg.poolStatus (if ok then Status.ok else Status.accessDenied)).afterWipe

/-! Stations. -/

/-- A flit or beat at a station whose routing fields are uncorrectable is discarded with its packet, counted and logged (R266). -/
def Block.hdrDiscard (b : Block) (station net : Nat) : Block :=
  ({ b with net := { b.net with noc := b.noc.discard station net } }.count Reg.hdrDiscards 1).logEvent 0x0404 0 (370 + station) net

/-- HDR_DISCARD. -/
def execHdrDiscard (station net t : Nat) (s : State) : Host.Outcome State Fault Refusal :=
  s.answer (wfStation station && wfNet net) (s.blk.event t (fun b => b.hdrDiscard station net))

/-- Whether a station gates: nothing held, and nothing carried for STATION_GATE_NS (R271, R429). -/
def Block.gateDue (b : Block) (s : Nat) : Bool :=
  let n := b.reg Reg.stationGateNs
  n != 0 && b.noc.bufs.all (fun e => keyStation e.1 != s) && !b.noc.gated.contains s && decide (b.run - 12 * (b.noc.last.look s - 1) ≥ ns n)

/-- STATION_GATE. -/
def execStationGate (station t : Nat) (s : State) : Host.Outcome State Fault Refusal :=
  s.answer (wfStation station)
    (s.blk.eventIf t (fun b => b.gateDue station) (fun b => b.modNoc (fun n => { n with gated := station :: n.gated })))

/-- Whether a register is a count of an initiator (Table 8.18). -/
def isIniCount (k : Nat) : Bool := decide (0xB100 ≤ k / 256 ∧ k / 256 < 0xB300 ∧ 1 ≤ k % 256)

/-- A write of STATS_CLEAR (R272): every count of every initiator reads 0. -/
def Block.writeStatsClear (b : Block) (v : Nat) : Nat × Block :=
  b.guarded [badValue Reg.statsClear v] (fun b => { b with regs := SMap.keep (fun k => !isIniCount k) b.regs })

/-- STATS_CLEAR. -/
def execStatsClear (v : Nat) (s : State) : Host.Outcome State Fault Refusal :=
  s.answer true (s.blk.host (fun b => b.writeStatsClear v))

end Sys2Proof.Machine
end

