-- ==== Sys2Proof/Machine/Crypto.lean ====
section
/-! DEFINITION. The cryptography of configuration (R362, R364, R366): SHA-512 and HMAC, HKDF, AES-256 with its key
unwrapping and Galois/counter mode, the check of an RSASSA-PSS signature, and the frame CRC. -/

namespace Sys2Proof.Machine

open Sys2Proof

/-! Octet strings. -/

/-- The number of an octet string, most significant first (RFC 8017). -/
def bigVal (l : List Byte) : Nat := l.foldl (fun a x => 256 * a + x.toNat) 0

/-- The `n` octets of a number, most significant first. -/
def bigOf (n x : Nat) : List Byte := (bytesOf n x).reverse

/-- The exclusive or of two octet strings of one length. -/
def xorBytes (a b : List Byte) : List Byte := List.zipWith (fun x y => x ^^^ y) a b

/-- The `n` least significant octets of a number as an octet string of the same order as in memory (R6). -/
def zeros (n : Nat) : List Byte := List.replicate n 0

/-! SHA-512 (FIPS 180-4). -/

/-- The primes from 2 up, the first `n`, among the first numbers of `fuel`. -/
def primesTo (fuel : Nat) : List Nat :=
  (List.range fuel).filter (fun n => 2 ≤ n && (List.range n).all (fun d => d < 2 || n % d != 0))

/-- The greatest number below 2^`n` whose `k`-th power is at most `x`, found bit by bit. -/
def rootBits (k x : Nat) : Nat → Nat → Nat
  | 0, r => r
  | n + 1, r => rootBits k x n (if (r + 2 ^ n) ^ k ≤ x then r + 2 ^ n else r)

/-- The first 64 bits of the fraction of the square or cube root of a prime. -/
def rootFraction (k p : Nat) : Nat := rootBits k (p * 2 ^ (64 * k)) 72 0 % 2 ^ 64

/-- The initial hash value: the square roots of the first eight primes. -/
def shaStart : List Nat := (primesTo 20).map (rootFraction 2)

/-- The eighty constants: the cube roots of the first eighty primes. -/
def shaConstants : List Nat := (primesTo 410).map (rootFraction 3)

/-- A 64-bit word rotated right. -/
def rotr (x n : Nat) : Nat := x >>> n ||| (x <<< (64 - n)) % 2 ^ 64

/-- A 64-bit word complemented. -/
def not64 (x : Nat) : Nat := (2 ^ 64 - 1) ^^^ x

/-- The message schedule, newest word first, extended by `n` words. -/
def shaSchedule : Nat → List Nat → List Nat
  | 0, w => w
  | n + 1, w =>
    let a := nthD w 1 0
    let b := nthD w 14 0
    let s1 := rotr a 19 ^^^ rotr a 61 ^^^ a >>> 6
    let s0 := rotr b 1 ^^^ rotr b 8 ^^^ b >>> 7
    shaSchedule n (((s1 + nthD w 6 0 + s0 + nthD w 15 0) % 2 ^ 64) :: w)

/-- One round over the eight working words. -/
def shaRound (v : List Nat) (kw : Nat × Nat) : List Nat :=
  match v with
  | [a, b, c, d, e, f, g, h] =>
    let t1 := h + (rotr e 14 ^^^ rotr e 18 ^^^ rotr e 41) + ((e &&& f) ^^^ (not64 e &&& g)) + kw.1 + kw.2
    let t2 := (rotr a 28 ^^^ rotr a 34 ^^^ rotr a 39) + ((a &&& b) ^^^ (a &&& c) ^^^ (b &&& c))
    [(t1 + t2) % 2 ^ 64, a, b, c, (d + t1) % 2 ^ 64, e, f, g]
  | _ => v

/-- One block of 128 octets. -/
def shaBlock (ks h : List Nat) (block : List Byte) : List Nat :=
  let w := (shaSchedule 64 (((rowsOf 8 16 block).map bigVal).reverse)).reverse
  List.zipWith (fun x y => (x + y) % 2 ^ 64) h ((ks.zip w).foldl shaRound h)

/-- Whole blocks taken off the front of an octet string; the words, and the octets that fill no block. -/
def shaBlocks (ks : List Nat) : Nat → List Nat → List Byte → List Nat × List Byte
  | 0, h, l => (h, l)
  | n + 1, h, l => if l.length < 128 then (h, l) else shaBlocks ks n (shaBlock ks h (l.take 128)) (l.drop 128)

/-- The words after an octet string, its octets that fill no block, and the length so far, from those before it. -/
def shaFeed (h : List Nat) (rest : List Byte) (len : Nat) (l : List Byte) : List Nat × List Byte × Nat :=
  let all := rest ++ l
  let (h', rest') := shaBlocks shaConstants (all.length / 128) h all
  (h', rest', len + l.length)

/-- The digest of what was fed: 64 octets. -/
def shaEnd (h : List Nat) (rest : List Byte) (len : Nat) : List Byte :=
  let pad := (239 - rest.length) % 128
  (shaFeed h rest 0 (0x80 :: zeros pad ++ bigOf 16 (8 * len))).1.flatMap (bigOf 8)

/-- SHA-512 of an octet string. -/
def sha512 (l : List Byte) : List Byte :=
  let (h, rest, len) := shaFeed shaStart [] 0 l
  shaEnd h rest len

/-- HMAC with SHA-512 (RFC 2104). -/
def hmac512 (key msg : List Byte) : List Byte :=
  let k := if 128 < key.length then sha512 key else key
  let k := k ++ zeros (128 - k.length)
  sha512 (k.map (fun x => x ^^^ 0x5C) ++ sha512 (k.map (fun x => x ^^^ 0x36) ++ msg))

/-- HKDF with SHA-512 for at most 64 octets of output (RFC 5869). -/
def hkdf512 (salt ikm info : List Byte) (n : Nat) : List Byte := (hmac512 (hmac512 salt ikm) (info ++ [1])).take n

/-! AES-256 (FIPS 197). -/

/-- Multiplication in the field of AES, over the bits of `y` from bit `n` down. -/
def aesFieldMul (x y : Nat) : Nat → Nat → Nat
  | 0, acc => acc
  | n + 1, acc =>
    let acc := 2 * acc
    let acc := if 256 ≤ acc then acc ^^^ 0x11B else acc
    aesFieldMul x y n (if y.testBit n then acc ^^^ x else acc)

/-- The product of two bytes in the field of AES. -/
def aesMul (x y : Nat) : Nat := aesFieldMul x y 8 0

/-- The inverse in the field of AES, 0 for 0: the 254th power. -/
def aesInverse (x : Nat) : Nat :=
  let p2 := aesMul x x
  let p3 := aesMul p2 x
  let p12 := aesMul (aesMul p3 p3) (aesMul p3 p3)
  let p15 := aesMul p12 p3
  let p30 := aesMul p15 p15
  let p60 := aesMul p30 p30
  let p120 := aesMul p60 p60
  let p127 := aesMul p120 (aesMul (aesMul p3 p3) x)
  aesMul p127 p127

/-- The substitution of AES. -/
def sbox (x : Nat) : Nat :=
  let i := aesInverse x
  let rot (n : Nat) : Nat := (i <<< n ||| i >>> (8 - n)) % 256
  i ^^^ rot 1 ^^^ rot 2 ^^^ rot 3 ^^^ rot 4 ^^^ 0x63

/-- The substitution undone. -/
def sboxInv (y : Nat) : Nat :=
  let rot (n : Nat) : Nat := (y <<< n ||| y >>> (8 - n)) % 256
  aesInverse (rot 1 ^^^ rot 3 ^^^ rot 6 ^^^ 0x05)

/-- The key schedule of AES-256 as four-byte words, newest first, extended by `n` words; `i` is the index of the next. -/
def aesExpand : Nat → Nat → List (List Nat) → List (List Nat)
  | 0, _, w => w
  | n + 1, i, w =>
    let t := nthD w 0 []
    let t := if i % 8 = 0 then
        match (t.drop 1 ++ t.take 1).map sbox with
        | x :: xs => (x ^^^ 2 ^ (i / 8 - 1)) :: xs
        | [] => []
      else if i % 8 = 4 then t.map sbox else t
    aesExpand n (i + 1) (List.zipWith (fun x y => x ^^^ y) (nthD w 7 []) t :: w)

/-- The fifteen round keys of a key of 32 octets, each sixteen bytes. -/
def aesKeys (key : List Byte) : List (List Nat) :=
  let words := rowsOf 4 8 (key.map (·.toNat))
  (rowsOf 4 15 (aesExpand 52 8 words.reverse).reverse).map List.flatten

/-- A round key added. -/
def aesAdd (s k : List Nat) : List Nat := List.zipWith (fun x y => x ^^^ y) s k

/-- The bytes of a state taken from the listed places. -/
def aesPermute (s : List Nat) (l : List Nat) : List Nat := l.map (fun i => nthD s i 0)

/-- The rows shifted left, and back. -/
def aesShift : List Nat := [0, 5, 10, 15, 4, 9, 14, 3, 8, 13, 2, 7, 12, 1, 6, 11]
def aesUnshift : List Nat := [0, 13, 10, 7, 4, 1, 14, 11, 8, 5, 2, 15, 12, 9, 6, 3]

/-- The columns multiplied by the circulant of four coefficients. -/
def aesMix (co s : List Nat) : List Nat :=
  (rowsOf 4 4 s).flatMap (fun col => (List.range 4).map (fun r =>
    (List.range 4).foldl (fun a i => a ^^^ aesMul (nthD co ((i + 4 - r) % 4) 0) (nthD col i 0)) 0))

/-- AES-256 on one block of sixteen bytes, under the round keys. -/
def aesBlock (ks : List (List Nat)) (s : List Nat) : List Nat :=
  let sub (s : List Nat) : List Nat := aesPermute (s.map sbox) aesShift
  let s := (ks.drop 1).take 13 |>.foldl (fun s k => aesAdd (aesMix [2, 3, 1, 1] (sub s)) k) (aesAdd s (nthD ks 0 []))
  aesAdd (sub s) (nthD ks 14 [])

/-- AES-256 undone on one block. -/
def aesUnblock (ks : List (List Nat)) (s : List Nat) : List Nat :=
  let unsub (s : List Nat) : List Nat := (aesPermute s aesUnshift).map sboxInv
  let s := ((ks.drop 1).take 13).reverse.foldl (fun s k => aesMix [14, 11, 13, 9] (aesAdd (unsub s) k))
    (aesAdd s (nthD ks 14 []))
  aesAdd (unsub s) (nthD ks 0 [])

/-- The block function on octets. -/
def aesOctets (ks : List (List Nat)) (l : List Byte) : List Byte :=
  (aesBlock ks (l.map (·.toNat))).map (fun x => BitVec.ofNat 8 x)

/-- One step of the key unwrapping: the running check value and the list of words, for step number `t`, word `i`. -/
def unwrapStep (ks : List (List Nat)) (acc : List Nat × List (List Nat)) (t i : Nat) : List Nat × List (List Nat) :=
  let a := (bigOf 8 ((bigVal (acc.1.map (fun x => BitVec.ofNat 8 x))) ^^^ t)).map (·.toNat)
  let b := aesUnblock ks (a ++ nthD acc.2 i [])
  (b.take 8, putNth acc.2 i (b.drop 8))

/-- The unwrapping of a 40-octet value under a key of 32 octets (RFC 3394); none where its check fails. -/
def aesUnwrap (key wrapped : List Byte) : Option (List Byte) :=
  let ks := aesKeys key
  let rows := rowsOf 8 5 (wrapped.map (·.toNat))
  let steps := [5, 4, 3, 2, 1, 0].flatMap (fun j => [3, 2, 1, 0].map (fun i => (4 * j + i + 1, i)))
  let r := steps.foldl (fun acc e => unwrapStep ks acc e.1 e.2) (nthD rows 0 [], rows.drop 1)
  if r.1 = List.replicate 8 0xA6 then some (r.2.flatten.map (fun x => BitVec.ofNat 8 x)) else none

/-! Galois/counter mode. -/

/-- One step of the product of the hash field: the running product and the multiple of `h`, for the bit `n` of `x`. -/
def ghashBits (x : Nat) : Nat → Nat → Nat → Nat
  | 0, z, _ => z
  | n + 1, z, v =>
    ghashBits x n (if x.testBit n then z ^^^ v else z) (if v.testBit 0 then v >>> 1 ^^^ 0xE1 <<< 120 else v >>> 1)

/-- The product of two blocks of the hash, each the number of its octets, most significant first. -/
def ghashMul (x h : Nat) : Nat := ghashBits x 128 0 h

/-- The hash continued over octets, in blocks of sixteen. -/
def ghashOver (h y : Nat) (l : List Byte) : Nat :=
  (rowsOf 16 (l.length / 16 + 1) l).foldl (fun y x => ghashMul (y ^^^ bigVal x) h) y

/-- The hash key of a cipher key. -/
def gcmHashKey (ks : List (List Nat)) : Nat := bigVal (aesOctets ks (zeros 16))

/-- Octets decrypted in counter mode under a 96-bit IV, from block number `n` of the text. -/
def gcmText (ks : List (List Nat)) (iv : List Byte) (n : Nat) (l : List Byte) : List Byte :=
  let rows := rowsOf 16 (l.length / 16 + 1) l
  (rows.zip (List.range rows.length)).flatMap (fun e => xorBytes e.1 (aesOctets ks (iv ++ bigOf 4 (n + e.2 + 2))))

/-- The tag, from the hash over the text. -/
def gcmTag (ks : List (List Nat)) (iv : List Byte) (y aadBytes textBytes : Nat) : List Byte :=
  let y := ghashMul (y ^^^ (8 * aadBytes * 2 ^ 64 + 8 * textBytes)) (gcmHashKey ks)
  xorBytes (bigOf 16 y) (aesOctets ks (iv ++ bigOf 4 1))

/-! RSASSA-PSS (RFC 8017). -/

/-- `b` to the power of the number `e`, over its bits from bit `n` down, modulo `m`. -/
def powMod (b e m : Nat) : Nat → Nat → Nat
  | 0, acc => acc
  | n + 1, acc =>
    let acc := acc * acc % m
    powMod b e m n (if e.testBit n then acc * b % m else acc)

/-- The mask generation function with SHA-512. -/
def mgf1 (seed : List Byte) (n : Nat) : List Byte :=
  ((List.range (n / 64 + 1)).flatMap (fun c => sha512 (seed ++ bigOf 4 c))).take n

/-- Whether `sig` is the signature of `msg` under a modulus of 4,096 bits and an exponent, with a salt of 64 octets
(R362). -/
def pssHolds (modulus : List Byte) (e : Nat) (msg sig : List Byte) : Bool :=
  let n := bigVal modulus
  let s := bigVal sig
  let em := bigOf 512 (powMod s e n 32 1)
  let masked := em.take 447
  let h := (em.drop 447).take 64
  let db := xorBytes masked (mgf1 h 447)
  let db := match db with | x :: xs => (x &&& 0x7F) :: xs | [] => []
  let want := sha512 (zeros 8 ++ sha512 msg ++ db.drop 383)
  n.testBit 4095 && decide (s < n) && em.drop 511 == [0xBC] && !((nthD em 0 0).toNat.testBit 7) &&
    db.take 382 == zeros 382 && (db.drop 382).take 1 == [1] && h == want

/-! The frame CRC (R364). -/

/-- The shift of one bit of the reflected CRC, `n` times. -/
def crcShift : Nat → Nat → Nat
  | 0, c => c
  | n + 1, c => crcShift n (if c.testBit 0 then c >>> 1 ^^^ 0x82F63B78 else c >>> 1)

/-- CRC-32C in its reflected form. -/
def crc32c (l : List Byte) : Nat := l.foldl (fun c x => crcShift 8 (c ^^^ x.toNat)) 0xFFFFFFFF ^^^ 0xFFFFFFFF

end Sys2Proof.Machine
end

