-- ==== Sys2Proof/Machine/Commit.lean ====
section
/-! DEFINITION. Epoch commits: prepare, replies, decision and apply edge, the commits the device starts, commits across a
swarm, and what an in-doubt participant does (R406 to R417). -/

namespace Sys2Proof.Machine

open Sys2Proof

/-! Units (R407, Tables 12.9 to 12.11). -/

/-- Units involved in a mode change of function f. -/
def modeUnits (f : Nat) : List Nat :=
  let span (a c : Nat) : List Nat := (List.range 442).filter (fun u => a ≤ u ∧ u ≤ c)
  if f = fnPlacement ∨ f = fnMigration then span 320 351
  else if f = fnConfigScrub then [438, 439]
  else if f = fnMemScrub then [440]
  else if f = fnThermal then [436]
  else if f = fnTraining then span 256 319
  else if f = fnBond then [441]
  else [437]

/-- The functions whose staged mode differs from the mode in force. -/
def Block.modesChanged (b : Block) : List Nat :=
  [1, 2, 3, 4, 5, 6, 7, 8].filter (fun f => b.reg (Reg.modeStaged (f - 1)) != b.fmode f)

/-- Whether a unit is in service. -/
def Block.unitServes (b : Block) (u : Nat) : Bool := u ≥ 256 || !b.isRetired u

/-- The units involved in a commit of a set of groups. -/
def Block.unitsOf (b : Block) (groups : Nat) : List Nat :=
  (List.range 442).filter (fun u => b.unitServes u &&
    ((groups.testBit grpModes && b.modesChanged.any (fun f => (modeUnits f).contains u)) ||
     (groups.testBit grpRoutes && u ≤ 369) ||
     (groups.testBit grpRemap && (u < 256 || (320 ≤ u && u ≤ 351) || (370 ≤ u && u ≤ 435))) ||
     (groups.testBit grpInitiatorMap && 370 ≤ u && u ≤ 435)))

/-- Whether a unit cannot stage: its die is being reset or is behind a raised seam fence (Table 12.13). -/
def Block.unitAbsent (b : Block) (u : Nat) : Bool :=
  if u < 256 then b.fenced (riserPath (dieOf u))
  else if u = 438 then b.fenced (cfgPath 0)
  else if u = 439 then b.fenced (cfgPath 1)
  else false

/-! Participants (R414). -/

/-- A participant's node reply to its coordinator. -/
def Block.nodeReply (b : Block) (reply code : Nat) (coord epoch : Nat) : Block :=
  b.epochMessage coord 0x90 [epoch, reply, code]

/-- Every unit of a participant has staged: it holds its change, locked, for the outcome (R416). -/
def Block.partStaged (b : Block) (c : CommitRun) : Block :=
  let coord := b.reg Reg.partCoord
  let b := (b.setRegs [(Reg.partState, 1), (Reg.partSince, b.ts)]).nodeReply rcStaged 0 coord c.epoch
  { b with commit := { b.commit with run := some { c with unitSince := none }, askedAt := b.run, quiet := false, back := [] } }

/-- A participant's units refused or were absent: it answers so and releases its change. -/
def Block.partRefused (b : Block) (c : CommitRun) (reply first code : Nat) : Block :=
  let coord := b.reg Reg.partCoord
  if c.coord then
    -- the coordinator's own units: its run goes on, awaiting the nodes
    let w := mapReplies 442 (mapReplies 442 (b.reg Reg.unitReplies) rcStaged rcDiscarded) rcAwaited rcNoReply
    ((((b.setReg Reg.unitReplies w).nodeReply reply code coord c.epoch).partIdle).setCommit
      (some { c with part := false, unitSince := none }))
  else (b.decideAbort c false first code).nodeReply reply code coord c.epoch

/-! Replies of units (R410). -/

/-- Whether every unit involved has replied STAGED. -/
def Block.unitsStaged (b : Block) : Bool := (withReply 442 (b.reg Reg.unitReplies) rcAwaited).isEmpty

/-- Whether a unit takes part through its shadow (R413): a region whose clock its power state stops, a scarab HALTED or TRAPPED. Staged
values are checked against their ranges as they are written, so a shadow replies STAGED. -/
def Block.shadowed (b : Block) (u : Nat) : Bool :=
  if u < 256 then b.reg (Reg.powerState u) != 0
  else decide (320 ≤ u ∧ u < 352) && decide (2 ≤ b.reg (Reg.scarabState (u - 320)))

/-- The edge at which the last STAGED reply is visible, or the window edge with every unit STAGED. -/
def Block.allStaged (b : Block) (c : CommitRun) : Block := if c.part then b.partStaged c else b.decideApply c

/-- UNIT_REPLY: the reply of a unit whose reply is awaited. A unit that cannot stage answers ABSENT, and a shadow STAGED. -/
def Block.unitReply (b : Block) (u reply code : Nat) : Block :=
  let reply := if b.unitAbsent u then rcAbsent else if reply = rcAbsent then 0 else if b.shadowed u then rcStaged else reply
  if reply ≠ rcStaged ∧ reply ≠ rcRefused ∧ reply ≠ rcAbsent then b
  else
    let w := b.reg Reg.unitReplies
    match b.commit.run with
    | some c =>
      if c.unitSince.isNone ∨ replyOf w u ≠ rcAwaited then b
      else
        let b := b.setReg Reg.unitReplies (putReply w u reply)
        if reply = rcStaged then
          if b.unitsStaged then b.allStaged c else b
        else if c.part then b.partRefused c reply u (refusalCode reply code)
        else b.decideAbort c false u (refusalCode reply code)
    | none =>
      if b.commit.abortEdge = some (false, b.run) ∧ replyOf w u = rcNoReply then
        let b := b.setReg Reg.unitReplies (putReply w u (if reply = rcStaged then rcDiscarded else reply))
        if reply = rcStaged then b else b.lowerRefusal u (refusalCode reply code)
      else b

/-- UNIT_REPLY. -/
def execUnitReply (u code abort t : Nat) (s : State) : Host.Outcome State Fault Refusal :=
  s.answer (wfUnit u) (s.blk.event t (fun b => b.unitReply u code abort))

/-! Beginning a commit. -/

/-- Prepare is sent to every unit involved. -/
def Block.prepareUnits (b : Block) (c : CommitRun) : Block :=
  let b := b.setReg Reg.unitReplies (repliesOf (b.unitsOf c.groups) rcAwaited)
  { b with commit := { b.commit with run := some { c with unitSince := some b.run }, abortEdge := none } }

/-- A commit begins: its result objects are those of a commit that prepares. -/
def Block.beginCommit (b : Block) : Block :=
  b.setRegs [(Reg.commitState, csPreparing), (Reg.commitReason, 0), (Reg.commitFirstUnit, 0xFFFF), (Reg.commitApplyAt, 0),
    (Reg.unitReplies, 0)]

/-- Nodes that a PREPARE cannot reach count as ABSENT at once (R414). -/
def Block.unroutable (b : Block) : List Nat := b.commitNodes.filter (fun n => n != b.node && (b.routeTo n).isNone)

/-- PREPARE sent to the participants of a swarm commit. -/
def Block.prepareNodes (b : Block) (c : CommitRun) : Block :=
  let ns := b.commitNodes
  let w := b.unroutable.foldl (fun w n => putReply w n rcAbsent) (repliesOf ns rcAwaited)
  let b := b.setReg Reg.nodeReplies w
  let b := ns.foldl (fun b n => if replyOf w n = rcAwaited then b.epochMessage n 0x10 [c.epoch, c.groups, b.node] else b) b
  let c := { c with nodeSince := some b.run }
  let b := { b with commit := { b.commit with run := some c, nodeEpoch := c.epoch, abortEdge := none } }
  match b.unroutable with
  | [] => b
  | n :: _ => b.decideAbort c true n Abort.condition

/-- A write of COMMIT_GO (R409, R410). -/
def Block.writeCommitGo (b : Block) (v : Nat) : Nat × Block :=
  b.guarded [badValue Reg.commitGo v, (b.commit.run.isSome, Abort.commitBusy),
      (decide (b.reg Reg.commitEpoch ≤ b.reg Reg.lastEpoch), Abort.epochOld)] (fun b =>
    let c : CommitRun := { epoch := b.reg Reg.commitEpoch, groups := b.reg Reg.commitGroups,
                           coord := b.reg Reg.commitScope == 1 }
    let b := b.beginCommit
    if c.coord then b.prepareNodes c else b.prepareUnits c)

/-- COMMIT_GO. -/
def execCommitGo (v t : Nat) (s : State) : Host.Outcome State Fault Refusal :=
  s.answer true ((s.blk.at t).host (fun b => b.writeCommitGo v))

/-- The group of a device commit's change. -/
def Remap.groups : Remap → Nat
  | .riser _ => 8
  | _ => 4

/-- A commit of the device's own begins: local scope, the next epoch number (R408). -/
def Block.beginDevice (b : Block) (x : Remap) : Block :=
  b.beginCommit.prepareUnits { epoch := b.reg Reg.lastEpoch + 1, groups := x.groups, change := some x }

/-- DEVICE_COMMIT: the first change that waits, once no commit runs (R409). -/
def Block.deviceCommit (b : Block) : Block :=
  match b.commit.waiting with
  | x :: rest => { b with commit := { b.commit with waiting := rest } }.beginDevice x
  | [] => b

/-- DEVICE_COMMIT. -/
def execDeviceCommit (t : Nat) (s : State) : Host.Outcome State Fault Refusal :=
  s.answer true (s.blk.eventIf t (fun b => b.commit.run.isNone) Block.deviceCommit)

/-- COMMIT_RETRY: 100 µs after it aborted, and once no commit runs. -/
def Block.commitRetry (b : Block) : Block :=
  match b.commit.retry with
  | (x, due) :: rest =>
    if due ≤ b.run then { b with commit := { b.commit with retry := rest } }.beginDevice x else b
  | [] => b

/-- COMMIT_RETRY. -/
def execCommitRetry (t : Nat) (s : State) : Host.Outcome State Fault Refusal :=
  s.answer true (s.blk.eventIf t (fun b => b.commit.run.isNone) Block.commitRetry)

/-! The window edge (R410, step 4(c), R414). -/

/-- The units' window of 100 µs has passed; `heard` is the block once the replies visible at the edge are in (R26). -/
def Block.unitWindow (b : Block) (c : CommitRun) (heard : Block) : Block :=
  if b.unitsStaged then b.allStaged c
  else match (withReply 442 (heard.reg Reg.unitReplies) rcAwaited).head? with
    | none => b
    | some first =>
      if c.part then b.partRefused c rcAbsent first Abort.condition
      else b.decideAbort c false first Abort.condition

/-- The nodes' window of SWARM_WINDOW_US has passed. -/
def Block.nodeWindow (b : Block) (c : CommitRun) (heard : Block) : Block :=
  if (withReply 4096 (b.reg Reg.nodeReplies) rcAwaited).isEmpty then b.decideApply c
  else match (withReply 4096 (heard.reg Reg.nodeReplies) rcAwaited).head? with
    | none => b
    | some first => b.decideAbort c true first Abort.condition

/-- Whether a window that began at a run time has passed. -/
def Block.windowOver (b : Block) (since : Option Nat) (d : Nat) : Bool :=
  match since with
  | some x => decide (x + us d ≤ b.run)
  | none => false

/-- COMMIT_WINDOW: of the units, else of the nodes; `heard` is the block once the replies visible at the edge are in. -/
def Block.commitWindow (b heard : Block) : Block :=
  match b.commit.run with
  | none => b
  | some c =>
    if b.windowOver c.unitSince 100 then b.unitWindow c heard
    else if b.windowOver c.nodeSince (b.reg Reg.swarmWindowUs) then b.nodeWindow c heard
    else b

/-! The apply edge (R411, R413). -/

/-- The staged modes take effect. In host-assisted mode the scarabs start no migration of their own (R238). -/
def Block.applyModes (b : Block) : Block :=
  let b := b.modesChanged.foldl (fun b f => b.setReg (Reg.mode (f - 1)) (b.reg (Reg.modeStaged (f - 1)))) b
  if b.fmode fnMigration = 0 then b
  else { b with mig := { b.mig with ready := b.mig.ready.filter (fun r => r.reason == MigReason.host) } }

/-- The staged route table takes effect: CUR of every changed entry is its first usable choice (R346). -/
def Block.applyRoutes (b : Block) : Block :=
  let nodes := (b.link.routes.map (·.1) ++ b.link.staged.map (·.1)).eraseDups
  let b := nodes.foldl (fun b n =>
    let old := b.link.routes.look n
    let new := putBits (b.link.staged.look n) 41 40 0
    if putBits old 41 40 0 = new then b
    else
      let b := { b with link := { b.link with routes := b.link.routes.put n (putBits new 41 40 (routeCur old)) } }
      b.setCur n ((b.usableChoices n).headD 0)) b
  b.routesChanged

/-- What a commit's groups change. -/
def Block.applyGroups (b : Block) (c : CommitRun) : Block :=
  let b := if c.groups.testBit grpModes then b.applyModes else b
  let b := if c.groups.testBit grpRoutes then b.applyRoutes else b
  match c.change with
  | some x => b.applyChange x
  | none => b

/-- The apply edge: every unit applies, LAST_EPOCH advances, the lock is lifted, the message of COMMIT_VECTOR is sent. A
coordinator that takes no part changes nothing but its epoch. -/
def Block.epochApply (b : Block) (c : CommitRun) : Block :=
  let coord := b.reg Reg.partCoord
  let b := if c.coord && !c.part then b else b.applyGroups c
  let b := b.setRegs [(Reg.unitReplies, mapReplies 442 (b.reg Reg.unitReplies) rcStaged rcApplied),
    (Reg.lastEpoch, c.epoch), (Reg.commitState, csApplied)]
  let b := if c.owes then b.epochMessage coord 0x91 [c.epoch] else b
  ((if c.part then b.partIdle else b).setCommit none).msix (b.reg Reg.commitVector)

/-- EPOCH_APPLY: the first cricket tick at which swarm time is at or after the time decided. -/
def Block.applyDue (b : Block) : Option CommitRun :=
  match b.commit.run with
  | some c => match c.applyAt with
    | some a => if b.clock % tick = 0 ∧ a ≤ b.swarmTs then some c else none
    | none => none
  | none => none

/-- EPOCH_APPLY. -/
def execEpochApply (t : Nat) (s : State) : Host.Outcome State Fault Refusal :=
  s.answer true (s.blk.event t (fun b => match b.applyDue with
    | some c => b.epochApply c
    | none => b))

/-! Commits across a swarm (R414 to R417). -/

/-- PREPARE reaches a participant: it stages locally, or answers REFUSED when another commit runs, when its epoch is not less,
or when it is in doubt. -/
def Block.prepare (b : Block) (epoch groups coord : Nat) : Block :=
  let b := b.epochAnswer 0x10 none
  let own : Bool := match b.commit.run with
    | some c => c.coord && c.epoch == epoch && !c.part && coord == b.node && c.applyAt.isNone
    | none => true
  let code := Abort.first [(!own, Abort.commitBusy), (decide (epoch ≤ b.reg Reg.lastEpoch), Abort.epochOld)]
  if code ≠ Abort.none then b.nodeReply rcRefused code coord epoch
  else
    let c : CommitRun := match b.commit.run with
      | some c => { c with part := true, groups := groups }
      | none => { epoch := epoch, groups := groups, part := true }
    let b := if c.coord then b else b.beginCommit
    (b.setRegs [(Reg.partEpoch, epoch), (Reg.partCoord, coord)]).prepareUnits c

/-- PREPARE. -/
def execPrepare (epoch groups coord t : Nat) (s : State) : Host.Outcome State Fault Refusal :=
  s.answer (wfNode coord) (s.blk.event t (fun b => b.prepare epoch groups coord))

/-- PREPARED reaches the coordinator, which answers it and may decide (R414). -/
def Block.prepared (b : Block) (node epoch reply code : Nat) : Block :=
  let b := b.epochAnswer 0x90 (some (0x94, []))
  if reply ≠ rcStaged ∧ reply ≠ rcRefused ∧ reply ≠ rcAbsent then b else b.nodeReplied node epoch reply code

/-- PREPARED. -/
def execPrepared (node epoch reply code t : Nat) (s : State) : Host.Outcome State Fault Refusal :=
  s.answer (wfNode node) (s.blk.event t (fun b => b.prepared node epoch reply code))

/-- The rows by which a reply to a prepare comes at time `t`. -/
def replyRow (t : Nat) : Instr → Option (State → Host.Outcome State Fault Refusal)
  | .unitReply u code abort t' => atEdge t t' (execUnitReply u code abort t')
  | .prepared node epoch reply code t' => atEdge t t' (execPrepared node epoch reply code t')
  | _ => none

/-- Whether the replies visible at the window edge decide the commit, or end its units' part (R410, step 4). -/
def State.repliesWon (s : State) (t : Nat) : Bool :=
  match s.blk.commit.run, (s.settle (replyRow t)).blk.commit.run with
  | some c, some d => c.unitSince != d.unitSince || c.nodeSince != d.nodeSince
  | some _, none => true
  | none, _ => false

/-- COMMIT_WINDOW. -/
def execCommitWindow (t : Nat) (s : State) : Host.Outcome State Fault Refusal :=
  s.answer true (s.limit (s.repliesWon t) t (s.blk.event t (fun b => b.commitWindow (s.settle (replyRow t)).blk)))

/-- Whether this node holds a staged change, or is in doubt, under an epoch. -/
def Block.holdsEpoch (b : Block) (epoch : Nat) : Option CommitRun :=
  match b.commit.run with
  | some c => if c.part ∧ c.epoch = epoch ∧ b.reg Reg.partState ≠ 0 then some c else none
  | none => none

/-- A held change is to apply at a swarm time. -/
def Block.applyHeld (b : Block) (c : CommitRun) (at' : Nat) (owes : Bool) : Block :=
  (b.setRegs [(Reg.commitState, csDecided), (Reg.commitApplyAt, at')]).setCommit
    (some { c with applyAt := some at', owes := owes })

/-- APPLY reaches a participant: it applies at that swarm time, or at its next cricket tick once that has passed (R415). -/
def Block.applyMessage (b : Block) (epoch applyAt : Nat) : Block :=
  match b.holdsEpoch epoch with
  | none => b.epochAnswer 0x11 (some (0x91, []))
  | some c => (b.epochAnswer 0x11 (some (0x91, []))).applyHeld c applyAt false

/-- APPLY. -/
def execApply (epoch applyAt t : Nat) (s : State) : Host.Outcome State Fault Refusal :=
  s.answer true (s.blk.event t (fun b => b.applyMessage epoch applyAt))

/-- A held change is discarded (R412, R416). -/
def Block.discardHeld (b : Block) (c : CommitRun) : Block :=
  let w := mapReplies 442 (b.reg Reg.unitReplies) rcStaged rcDiscarded
  let b := (b.setRegs [(Reg.unitReplies, w), (Reg.commitState, csAborted)]).partIdle
  if c.coord ∧ c.nodeSince.isSome then b.setCommit (some { c with part := false })
  else (b.setCommit none).msix (b.reg Reg.commitVector)

/-- ABORT_EPOCH reaches a participant: a change staged or being staged is discarded. -/
def Block.abortEpoch (b : Block) (epoch : Nat) : Block :=
  let b := b.epochAnswer 0x12 (some (0x92, []))
  match b.commit.run with
  | some c => if c.part ∧ c.epoch = epoch ∧ c.applyAt.isNone then b.discardHeld c else b
  | none => b

/-- ABORT_EPOCH. -/
def execAbortEpoch (epoch t : Nat) (s : State) : Host.Outcome State Fault Refusal :=
  s.answer true (s.blk.event t (fun b => b.abortEpoch epoch))

/-- QUERY reaches a coordinator: it answers from COMMIT_LOG (R417); a commit still preparing is undecided. -/
def Block.query (b : Block) (node epoch : Nat) : Block :=
  let answer (outcome applyAt : Nat) : Block :=
    if node = b.node then b.epochMessage node 0x93 [epoch, outcome, applyAt]
    else b.epochAnswer 0x13 (some (0x93, [epoch, outcome, applyAt]))
  match b.recordOf epoch with
  | some i => answer (bitsOf (b.record i) 39 32) (bitsOf (b.record i) 191 128)
  | none => match b.commit.run with
    | some c => if c.coord ∧ c.epoch = epoch then answer 1 0 else answer 0 0
    | none => answer 0 0

/-- QUERY. -/
def execQuery (node epoch : Nat) (s : State) : Host.Outcome State Fault Refusal :=
  s.answer (wfNode node) (if s.blk.served then s.blk.query node epoch else s.blk)

/-- The outcome reaches a participant in doubt (R416). -/
def Block.queryOk (b : Block) (epoch outcome : Nat) : Block :=
  match b.holdsEpoch epoch with
  | none => b
  | some c =>
    if c.applyAt.isSome then b
    else match outcome with
      | 2 => b.applyHeld c (b.epochAfter 100) true
      | 3 => (b.epochMessage (b.reg Reg.partCoord) 0x92 [epoch]).discardHeld c
      | 0 =>
        if b.commit.quiet then b
        else { b with commit := { b.commit with quiet := true } }.logEvent 0x0504 6 (b.reg Reg.partCoord) epoch
      | _ => b

/-- QUERY_OK: APPLY_AT of the answer is the coordinator's; an applied change applies at the first multiple of EPOCH_US at
least 1 µs after the answer. -/
def execQueryOk (epoch outcome _applyAt t : Nat) (s : State) : Host.Outcome State Fault Refusal :=
  s.answer true (s.blk.event t (fun b => b.queryOk epoch outcome))

/-- Whether a participant is to ask its coordinator: APPLY_WAIT_US have passed since its reply or its last QUERY, or the
coordinator has become reachable again (R416). -/
def Block.askDue (b : Block) : Bool :=
  match b.commit.run with
  | some c => c.part && c.applyAt.isNone && b.reg Reg.partState != 0 && !b.commit.quiet &&
      (decide (b.commit.askedAt + us (b.reg Reg.applyWaitUs) ≤ b.run) ||
        (b.reg Reg.partState == 2 && b.commit.back.contains (b.reg Reg.partCoord)))
  | none => false

/-- A participant in doubt sends QUERY. -/
def Block.askCoordinator (b : Block) : Block :=
  { (b.setReg Reg.partState 2).epochMessage (b.reg Reg.partCoord) 0x13 [b.reg Reg.partEpoch] with
    commit := { b.commit with askedAt := b.run, back := [] } }

/-- Whether a participant learns of its epoch's outcome at the edge of the limit (R416). -/
def State.outcomeWon (s : State) (t : Nat) : Bool :=
  let u := (s.settle (fun d => match d with
    | .apply e at' t' => atEdge t t' (execApply e at' t')
    | .abortEpoch e t' => atEdge t t' (execAbortEpoch e t')
    | .queryOk e o h t' => atEdge t t' (execQueryOk e o h t')
    | _ => none)).blk
  s.blk.commit.run.isSome && (match u.commit.run with
    | some c => c.applyAt.isSome
    | none => true)

/-- APPLY_WAIT. -/
def execApplyWait (t : Nat) (s : State) : Host.Outcome State Fault Refusal :=
  s.answer true (s.limit (s.outcomeWon t) t (s.blk.eventIf t Block.askDue Block.askCoordinator))

/-- A write of COMMIT_RESOLVE by the host (R416): 1 applies at the next epoch edge, 2 discards. -/
def Block.writeResolve (b : Block) (v : Nat) : Nat × Block :=
  b.guarded [badValue Reg.commitResolve v, (b.reg Reg.partState != 2, Abort.condition)] (fun b =>
    match b.commit.run with
    | none => b
    | some c =>
      let b := b.count Reg.resolves 1
      if v = 1 then b.applyHeld c (b.epochAfter 0) false else b.discardHeld c)

/-- RESOLVE_APPLY. -/
def execResolveApply (t : Nat) (s : State) : Host.Outcome State Fault Refusal :=
  s.answer true ((s.blk.at t).host (fun b => b.writeResolve 1))

/-- RESOLVE_DISCARD. -/
def execResolveDiscard (t : Nat) (s : State) : Host.Outcome State Fault Refusal :=
  s.answer true ((s.blk.at t).host (fun b => b.writeResolve 2))

/-- EPOCH_ACKNOWLEDGEMENT: a participant's answer to APPLY or ABORT_EPOCH (R415). -/
def Block.epochAck (b : Block) (node epoch : Nat) (applied : Bool) : Block :=
  let b := b.epochAnswer (if applied then 0x91 else 0x92) none
  if b.commit.nodeEpoch ≠ epoch ∨ replyOf (b.reg Reg.nodeReplies) node ≠ rcStaged then b
  else
    let b := b.setReg Reg.nodeReplies
      (putReply (b.reg Reg.nodeReplies) node (if applied then rcApplied else rcDiscarded))
    match b.recordOf epoch with
    | some i => b.putRecord i 207 192 b.undeliveredCount
    | none => b

/-- EPOCH_ACKNOWLEDGEMENT. -/
def execEpochAcknowledgement (node epoch : Nat) (applied : Bool) (t : Nat) (s : State) :
    Host.Outcome State Fault Refusal :=
  s.answer (wfNode node) (s.blk.event t (fun b => b.epochAck node epoch applied))

end Sys2Proof.Machine
end

