-- ==== Sys2Proof/Machine/Health.lean ====
section
/-! DEFINITION. Stack health: the weevils' visits, steering and exhaustion of bond groups, what follows it at the window edge,
the ladybirds, the ledgers' limit, the log's commands and the hand-over of the stewards (R13 to R16, R465 to R488). -/

namespace Sys2Proof.Machine

open Sys2Proof

/-! Bond groups (R14, Tables 1.3 and 1.4). -/

/-- The kinds of group that a seam carries, in the order of Table 1.4: row of Table 15.1, side, number of groups. -/
def seamKinds (seam : Nat) : List (Nat × Nat × Nat) :=
  let ctx := 4456448
  let twin := 557056
  let port := 3264
  let riser := 2448
  let tap := 512
  let cfg := 64
  nthD [
    [(3, 0, riser), (3, 1, riser), (4, 0, tap), (4, 1, tap), (5, 0, cfg), (5, 1, cfg)],
    [(2, 0, port), (3, 0, riser), (3, 1, riser), (4, 1, tap), (5, 0, cfg), (5, 1, cfg)],
    [(0, 0, ctx), (2, 0, port), (3, 0, riser), (3, 1, riser), (4, 1, tap), (5, 1, cfg)],
    [(1, 0, twin), (3, 1, riser), (4, 1, tap), (5, 1, cfg)],
    [(0, 1, ctx), (2, 1, port), (4, 1, tap), (5, 1, cfg)],
    [(2, 1, port), (4, 1, tap)]] seam []

/-- Groups per unit of a kind (Table 1.3); a configuration path serves eight load engines. -/
def groupsPerUnit (row : Nat) : Nat := nthD [32768, 4096, 24, 18, 32, 8] row 1

/-- Units of a kind on one side: the unit that a row numbers is side times this, plus the index. -/
def unitsPerSide (row : Nat) : Nat := nthD [136, 136, 136, 136, 16, 8] row 1

/-- The kind and unit of group g among the listed kinds. -/
def groupIn : List (Nat × Nat × Nat) → Nat → Option (Nat × Nat)
  | [], _ => none
  | (row, side, n) :: l, g =>
    if g < n then some (row, side * unitsPerSide row + g / groupsPerUnit row) else groupIn l (g - n)

/-- Row of Table 15.1 and unit of a bond group: physical slot, position, tap 16·die + t, or engine 8·die + e. -/
def groupUnit (seam group : Nat) : Option (Nat × Nat) := groupIn (seamKinds seam) group

/-- The key of a group's steering word. -/
def steerKey (seam group : Nat) : Nat := 8 * group + seam

/-- The steering word of a latch, as the copies of the seam's lower side vote it; the upper side holds the same word (R15). -/
def SteerLatch.word (x : SteerLatch) : Nat := voted x.lower

/-- The latches of both sides of a seam with one word: both change at one edge (R15). -/
def SteerLatch.of (w : Nat) : SteerLatch := { lower := (w, w, w), upper := (w, w, w) }

/-- A group's steering word (Table 1.5). -/
def Block.steering (b : Block) (seam group : Nat) : Nat := (b.health.steer.look (steerKey seam group)).word

/-- The regions that stand in a physical slot or a position. -/
def Block.regionsOn (b : Block) (row unit : Nat) : List Nat :=
  if row = 1 then (b.regionAt unit).toList ++ (b.regionAt (136 + unit)).toList
  else if row = 3 then (List.range 256).filter (fun r => !b.isRetired r &&
    (if (b.reg (Reg.portRoute r)).testBit 1 then riserMate (b.phys r) else b.phys r) == unit)
  else if row = 0 ∨ row = 2 then (b.regionAt unit).toList
  else []

/-! The changes that follow exhaustion (Table 15.1, R471). -/

/-- A device commit is called for. -/
def Block.callCommit (b : Block) (x : Remap) : Block :=
  if b.health.startSweep then b.applyChange x
  else { b with commit := { b.commit with waiting := b.commit.waiting ++ [x] } }

/-- Whether a riser is exhausted, or given up for one that was. -/
def Block.riserLost (b : Block) (q : Nat) : Bool := b.fuseBit (680 + q) || b.groupGone 3 q

/-- The lasting change of an exhausted riser: the bridge is rerouted through the neighbouring riser, or, when that is
exhausted too, both slots that used it are retired (R252). -/
def Block.riserChange (b : Block) (p : Nat) : Block :=
  let q := riserMate p
  if b.riserLost q then
    let b := (b.loseAttempts (b.regionAt q).toList Status.retired).callCommit (.slot p)
    if b.slotUse q = .used then b.callCommit (.slot q) else b
  else b.callCommit (.riser p)

/-- The lasting change of an exhausted tap: its traffic shares the neighbouring tap, or, when that is exhausted too, the
banks of both retire at once. -/
def Block.tapChange (b : Block) (u : Nat) : Block :=
  let d := u / 16
  let t := u % 16
  let mate := 16 * d + (t ^^^ 1)
  let lost := b.fuseBit (1080 + mate)
  let b := ((b.blowFuse (1080 + u)).logEvent 0x0108 0 (370 + tapStation d t) (d * 256 + t)).changeMade (· == 4) u
  if lost then
    ((List.range 64).filter (fun i => i % 16 == t || i % 16 == (t ^^^ 1))).foldl (fun b i =>
      if b.bankRetired (64 * d + i) then b else b.retireBank (64 * d + i)) b
  else b

/-- The operation on the retired engine ends RETIRED (R90). -/
def Block.engineChange (b : Block) (u : Nat) : Block :=
  ((b.blowFuse (1112 + u)).logEvent 0x0109 0 369 (u / 8 * 256 + u % 8)).changeMade (· == 5) u

/-- What an exhausted group lastingly changes, once that has been called for and its window edge has passed. -/
def Block.lastingChange (b : Block) (x : Exhausted) : Block :=
  match x.row with
  | 0 => b.callCommit (.slot x.unit)
  | 1 => b.callCommit (.twin x.unit)
  | 2 => (b.retirePort x.unit).changeMade (· == 2) x.unit
  | 3 => b.riserChange x.unit
  | 4 => b.tapChange x.unit
  | _ => b.engineChange x.unit

/-! Exhaustion (R469, R470). -/

/-- Whether the lasting change of a unit has been made already: a further group of it changes nothing more. -/
def Block.unitGone (b : Block) (row unit : Nat) : Bool :=
  b.groupGone row unit ||
  (match row with
    | 0 => b.slotUse unit == .retired || b.doomed unit
    | 1 => b.rgn.twinLost.contains unit
    | 2 => b.fuseBit (408 + unit)
    | 3 => b.fuseBit (680 + unit) || b.slotUse unit == .retired || b.doomed unit
    | 4 => b.fuseBit (1080 + unit)
    | _ => b.fuseBit (1112 + unit))

/-- The runs that exhaustion ends (R470): those of the slot, of the partner that will move with it, of a twinned span over the
pair, of the port, of the riser. -/
def Block.endingRegions (b : Block) (row unit : Nat) : List Nat :=
  let rs := b.regionsOn row unit
  match row with
  | 0 => rs ++ (rs.filter b.movesPartner).map partner
  | 1 => rs.filter (fun r => match b.runOf r, b.runOf (partner r) with
      | some x, some y => x == y
      | _, _ => false)
  | 2 | 3 => rs
  | _ => []

/-- An operation that runs on engine e of a die ends RETIRED: the e-th of those running. -/
def Block.stopEngine (b : Block) (u : Nat) : Block :=
  match (b.ctx.running.look (u / 8))[u % 8]? with
  | some op => (b.clearSlot op.region op.phys op.slot).endEngine op Status.retired
  | none => b

/-- Table 15.1 at the edge E0 of exhaustion. -/
def Block.atE0 (b : Block) (x : Exhausted) : Block :=
  let ends := b.endingRegions x.row x.unit
  let b := { b with health := { b.health with exhausted := b.health.exhausted ++ [x] } }
  let b := if x.row = 0 then { b with rgn := { b.rgn with heldOut := b.rgn.heldOut ++ [x.unit] } }
    else if x.row = 3 ∧ b.riserLost (riserMate x.unit) then
      { b with rgn := { b.rgn with shut := b.rgn.shut ++ [x.unit] ++
          (if b.slotUse (riserMate x.unit) = .used then [riserMate x.unit] else []) } }
    else b
  let b := if x.row = 5 then b.stopEngine x.unit else b
  let b := (b.loseAttempts ends Status.retired).refreshBorders
  if x.acted && (b.health.startSweep || decide (x.row ≥ 4)) then b.lastingChange x else b

/-- A group becomes exhausted (R468, R469). -/
def Block.exhaust (b : Block) (seam group : Nat) : Block :=
  match groupUnit seam group with
  | none => b
  | some (row, unit) =>
    if b.health.dead.contains (seam, group) then b
    else
      let r := ((b.regionsOn row unit).head?).getD 0xFF
      let b := { b with health := { b.health with dead := (seam, group) :: b.health.dead } }
      let b := (b.count Reg.healthGroupsExhausted 1).logEvent 0x0102 7 seam (group * 2 ^ 64 + row * 2 ^ 56 + r)
      if b.unitGone row unit then b
      else b.atE0 { seam, group, row, unit, e0 := b.run, acted := b.fmode fnBond == 0 }

/-! Visits (R465 to R468). -/

/-- Whether a group can be held for a visit now (R466). -/
def Block.groupIdle (b : Block) (seam group : Nat) : Bool :=
  match groupUnit seam group with
  | some (0, p) => (b.ctx.prefetch.look p).isNone && (b.ctx.writeBack.look p).isNone &&
      (match b.regionAt p with
        | some r => (b.ctx.captureTaken.look r).isNone && !b.ctx.captureDue.look r
        | none => true)
  | some (1, q) => (b.regionsOn 1 q).all (fun r => (b.runOf r).isNone || decide (b.reg (Reg.powerState r) ≥ 1))
  | some _ => true
  | none => false

/-- Whether a position fails a group: a signal position already carried by a spare, or a spare in use. -/
def spareFails (w p : Nat) : Bool :=
  if p = 32 then w.testBit 7
  else if p = 33 then w.testBit 15
  else (w.testBit 7 && bitsOf w 4 0 == p) || (w.testBit 15 && bitsOf w 12 8 == p)

/-- A failed position steered onto a spare that passed the latest visit, S0 first; else the group is exhausted (R468). -/
def Block.steerPosition (b : Block) (seam group latest p : Nat) : Block :=
  let w := b.steering seam group
  let put (b : Block) (w' s : Nat) : Block :=
    ({ b with health := { b.health with steer := b.health.steer.put (steerKey seam group) (.of w') } }.count Reg.sparesSteered 1).logEvent
      0x0101 7 seam (group * 2 ^ 64 + p * 2 ^ 56 + s * 2 ^ 48)
  if b.health.dead.contains (seam, group) then b
  else if spareFails w p then b.exhaust seam group
  else if p ≥ 32 then b
  else if !w.testBit 7 && !latest.testBit 32 then put b (putBit (putBits w 4 0 p) 7 true) 0
  else if !w.testBit 15 && !latest.testBit 33 then put b (putBit (putBits w 12 8 p) 15 true) 1
  else b.exhaust seam group

/-- The visits a weevil makes to a group: one, or three when a position fails the first; a position that fails two is failed,
one that fails a single visit is a transient. -/
def Block.visitGroup (b : Block) (seam group : Nat) (visits : List Nat) : Nat × Block :=
  let v (i : Nat) : Nat := nthD visits i 0 % 2 ^ 34
  let made := if v 0 = 0 then 1 else 3
  let fails (p : Nat) : Nat := ((List.range made).filter (fun i => (v i).testBit p)).length
  let latest := v (made - 1)
  let b := b.count Reg.visits made
  let b := ((List.range 34).filter (fun p => fails p == 1 && made == 3)).foldl (fun b p =>
    (b.count Reg.transients 1).logEvent 0x0103 7 seam (group * 2 ^ 64 + p * 2 ^ 56)) b
  (latest, ((List.range 34).filter (fun p => fails p ≥ 2)).foldl (fun b p => b.steerPosition seam group latest p) b)

/-- The sweep of a seam goes on behind the group visited; any other visit came ahead of the sweep (R466, R467). -/
def Block.advanceSweep (b : Block) (seam group : Nat) : Block :=
  if b.health.startSweep then b
  else if group = b.health.weevil.look seam then
    if group + 1 = seamGroups seam then
      { b with health := { b.health with weevil := b.health.weevil.put seam 0 } }.count Reg.sweepsDone 1
    else { b with health := { b.health with weevil := b.health.weevil.put seam (group + 1) } }
  else b.count Reg.triggeredVisits 1

/-- A visit asked for by the host has been made (R489). -/
def Block.endTest (b : Block) (latest : Nat) : Block :=
  { b.setRegs [(Reg.bondStatus, Status.ok), (Reg.bondResult, latest)] with health := { b.health with bondTest := none } }

/-- WEEVIL_VISIT: of the sweep, ahead of it, or the one a TEST waits for. -/
def Block.weevilVisit (b : Block) (seam group : Nat) (visits : List Nat) : Block :=
  let (latest, b) := b.visitGroup seam group visits
  if b.health.bondTest = some (seam, group) then b.endTest latest else b.advanceSweep seam group

/-- WEEVIL_VISIT. -/
def execWeevilVisit (seam group : Nat) (visits : List Nat) (t : Nat) (s : State) : Host.Outcome State Fault Refusal :=
  s.answer (wfSeam seam && decide (group < seamGroups seam))
    (s.blk.eventIf t (fun b => b.groupIdle seam group) (fun b => b.weevilVisit seam group visits))

/-- A write of BOND_CMD = TEST (R489): the visit is made in the group's next idle slot, at once if it is idle. -/
def Block.writeBondTest (b : Block) (visits : List Nat) : Nat × Block :=
  let seam := b.reg Reg.bondSeam
  let group := b.reg Reg.bondGroup
  b.guarded [(b.health.bondTest.isSome, Abort.busy), (decide (group ≥ seamGroups seam), Abort.condition)] (fun b =>
    if b.groupIdle seam group then
      let (latest, b) := b.visitGroup seam group visits
      b.endTest latest
    else { b.setReg Reg.bondStatus 128 with health := { b.health with bondTest := some (seam, group) } })

/-- BOND_TEST. -/
def execBondTest (visits : List Nat) (t : Nat) (s : State) : Host.Outcome State Fault Refusal :=
  s.answer true ((s.blk.at t).host (fun b => b.writeBondTest visits))

/-! The window edge and the host's part (R469 to R471). -/

/-- The transactions of the affected bridge, port or riser that are still open. -/
def Block.openAtW (b : Block) (row r : Nat) : List Nat :=
  let held (q : Nat) : Bool := b.net.held.any (fun h => h.region == r && h.tag == q)
  ((List.range 128).filter (fun q => (b.ledgerAt r q).state == .opened)).filter (fun q =>
    match row with
    | 0 => true
    | 2 => held q
    | _ => !held q)

/-- They complete with RETIRED, the first of R29, and the beats committed, but for those whose completion is visible at this edge
(R26, R470). -/
def Block.closeAtW (b : Block) (done : Nat → Nat → Bool) (row r : Nat) : Block :=
  ((b.openAtW row r).filter (fun q => !done r q)).foldl (fun b q =>
    let b := { b with net := { b.net with held := b.net.held.filter (fun h => !(h.region == r && h.tag == q)) } }
    (b.land 0 r q).finishOpen r q Status.retired (b.ledgerAt r q).beatsDone []) b

/-- The window edge of one exhausted group. -/
def Block.takeWindow (done : Nat → Nat → Bool) (b : Block) (x : Exhausted) : Block :=
  let b := { b with health := { b.health with exhausted := b.health.exhausted.map (fun y =>
    if y == x then { x with ended := true } else y) } }
  let b := if x.row = 1 then b else (b.regionsOn x.row x.unit).foldl (fun b r => b.closeAtW done x.row r) b
  if x.acted then b.lastingChange x else b

/-- EXHAUSTION_WINDOW_END: at a cricket tick at least DRAIN_WINDOW_US after E0. -/
def Block.windowEnd (b : Block) (done : Nat → Nat → Bool) : Block :=
  (b.health.exhausted.filter (fun x => !x.ended && decide (x.row < 4) &&
    decide (x.e0 + us (b.reg Reg.drainWindowUs) ≤ b.run))).foldl (Block.takeWindow done) b

/-- The rows by which a completion reaches its requester at time `t` (R27). -/
def completionRow (t : Nat) : Instr → Option (State → Host.Outcome State Fault Refusal)
  | .wcomp f t' => atEdge t t' (execWcomp f t')
  | .rcomp f t' => atEdge t t' (execRcomp f t')
  | .rdata sb beats t' => atEdge t t' (execRdata sb beats t')
  | .sack f t' => atEdge t t' (execSack f t')
  | .trackerArmed h t' => atEdge t t' (execTrackerArmed h t')
  | .trackerBits h bits t' => atEdge t t' (execTrackerBits h bits t')
  | .frameGrant h fr t' => atEdge t t' (execFrameGrant h fr t')
  | _ => none

/-- Whether an open entry has its completion visible at time `t` (R26, R27). -/
def State.completionSeen (s : State) (t : Nat) : Nat → Nat → Bool :=
  let u := (s.settle (completionRow t)).blk
  fun ini tag => (s.blk.ledgerAt ini tag).state == .opened &&
    ((u.ledgerAt ini tag).state != .opened ||
      (u.ledgerAt ini tag).openAt != (s.blk.ledgerAt ini tag).openAt)

/-- EXHAUSTION_WINDOW_END. -/
def execExhaustionWindowEnd (t : Nat) (s : State) : Host.Outcome State Fault Refusal :=
  s.answer true (s.blk.eventIf t (fun b => b.clock % tick == 0)
    (fun b => b.windowEnd (s.completionSeen t)))

/-- A group that awaits the host. -/
def Block.awaitsHost (b : Block) (seam group : Nat) : Option Exhausted :=
  b.health.exhausted.find? (fun x => x.seam == seam && x.group == group && !x.acted)

/-- The lasting change of a pending group is called for; before the window edge it waits for that (R471). -/
def Block.actOn (b : Block) (x : Exhausted) : Block :=
  let b := { b with health := { b.health with exhausted := b.health.exhausted.map (fun y =>
    if y == x then { x with acted := true } else y) } }
  if x.ended || decide (x.row ≥ 4) then b.lastingChange x else b

/-- A write of BOND_CMD = RETIRE. -/
def Block.writeBondRetire (b : Block) : Nat × Block :=
  let x := b.awaitsHost (b.reg Reg.bondSeam) (b.reg Reg.bondGroup)
  b.guarded [(b.health.bondTest.isSome, Abort.busy), (b.fmode fnBond != 1, Abort.mode), (x.isNone, Abort.condition)]
    (fun b => match x with
      | some x => (b.actOn x).setReg Reg.bondStatus Status.ok
      | none => b)

/-- BOND_RETIRE. -/
def execBondRetire (t : Nat) (s : State) : Host.Outcome State Fault Refusal :=
  s.answer true ((s.blk.at t).host Block.writeBondRetire)

/-- HOST_BOND_LIMIT: the host has let HOST_BOND_LIMIT_MS pass. -/
def Block.bondLimit (b : Block) (seam group : Nat) : Block :=
  match b.awaitsHost seam group with
  | some x => if x.e0 + ms (b.reg Reg.hostBondLimitMs) ≤ b.run then b.actOn x else b
  | none => b

/-- Whether the host's RETIRE of a group comes at the edge of its limit. -/
def State.bondWon (s : State) (seam group t : Nat) : Bool :=
  let u := (s.settle (fun d => match d with
    | .bondRetire t' => atEdge t t' (execBondRetire t')
    | _ => none)).blk
  (s.blk.awaitsHost seam group).isSome && (u.awaitsHost seam group).isNone

/-- HOST_BOND_LIMIT. -/
def execHostBondLimit (seam group t : Nat) (s : State) : Host.Outcome State Fault Refusal :=
  s.answer (wfSeam seam) (s.limit (s.bondWon seam group t) t (s.blk.event t (fun b => b.bondLimit seam group)))

/-- An alarm of the power bonds of a seam is counted and logged (R13). -/
def Block.powerBondAlarm (b : Block) (seam : Nat) : Block := (b.count (Reg.powerBondAlarms seam) 1).logUnstated 7 seam

/-- POWER_BOND_ALARM (R13). -/
def execPowerBondAlarm (seam t : Nat) (s : State) : Host.Outcome State Fault Refusal :=
  s.answer (wfSeam seam) (s.blk.event t (fun b => b.powerBondAlarm seam))

/-! Ladybirds (R474 to R478). -/

/-- A ladybird of a configuration die. -/
def Block.ladybird (b : Block) (d k : Nat) : Ladybird := b.health.ladybird.get (fun _ => {}) (2 * d + k)

/-- The block with a ladybird replaced. -/
def Block.setLadybird (b : Block) (d k : Nat) (x : Ladybird) : Block :=
  { b with health := { b.health with ladybird := b.health.ladybird.set (fun _ => {}) (2 * d + k) x } }

/-- Records of one slot position: 16 context slots of 32,768 cells. -/
abbrev perPosition : Nat := 524288

/-- The share of a ladybird: its first record and the one after its last. -/
def Ladybird.share (x : Ladybird) (k : Nat) : Nat × Nat :=
  if x.wholeDie then (0, 136 * perPosition) else (68 * k * perPosition, 68 * (k + 1) * perPosition)

/-- The dictionary copy of a ladybird parameter: SWEEP_MS, AUDIT_EN. -/
def Block.latchDict (b : Block) (d q : Nat) : Nat := if q = 0 then b.reg (Reg.sweepMs d) else b.reg (Reg.auditEn d)

/-- A ladybird parameter as its triplicated latches hold it (R474). -/
def Block.latched (b : Block) (d q : Nat) : Nat :=
  match b.health.latch.look (4 * d + q) with
  | some c => voted c
  | none => b.latchDict d q

/-- The positions of the first 222 bits at which two words differ. -/
def diffBits (x y : Nat) : List Nat := onesOf 222 (x ^^^ y)

/-- A plane of region r, active or shadow, with the record of a cell replaced. A reserved value of the active plane that is mended
raises its event again if it comes back (R45). -/
def Block.setPlaneCell (b : Block) (r p c w : Nat) (shadow : Bool) : Block :=
  if shadow then { b with ctx := { b.ctx with shadow := b.ctx.shadow.put p ((b.ctx.shadow.look p).put c w) } }
  else { b with
    ctx := { b.ctx with active := b.ctx.active.put p ((b.ctx.active.look p).put c w) }
    rgn := { b.rgn with raised := b.rgn.raised.put r ((b.rgn.raised.look r).filter (fun k =>
      k / 256 != c || 2 ^ 24 ≤ k || (reservedFields w).contains (k % 256))) } }

/-- A plane found at odds with its slot (Table 15.3): the slot is DAMAGED, a READY shadow plane TAINTED, and the run of an
active plane ends with POISON. -/
def Block.divergence (b : Block) (r p c : Nat) (slot : Option Nat) (shadow : Bool) : Block :=
  let d := p / 136
  let b := match slot with
    | some s =>
      let x := b.slotDesc p s
      b.setDesc p s { x with state := if x.state = SlotState.loaded then SlotState.damaged else x.state, uncorr := satAdd x.uncorr 1 255 }
    | none => b
  let b := if shadow then (if b.reg (Reg.shadowState r) = 2 then b.setReg (Reg.shadowState r) 3 else b)
    else match b.runOf r with
      | some x => b.modRun x (fun run => { run with poisoned := true })
      | none => b
  ((b.count (Reg.planeFaults d) 1).count (Reg.divergences d) 1).logEvent 0x0204 1 r (b2n shadow * 2 ^ 16 + c)

/-- One plane of a region compared with a record of its slot, which the access found clean or not (Table 15.3). In
host-assisted mode the mend is only logged (R477). -/
def Block.auditPlane (b : Block) (r p c : Nat) (slot : Option Nat) (word : Nat) (clean shadow : Bool) : Block :=
  let plane := if shadow then (b.ctx.shadow.look p).look c else (b.ctx.active.look p).look c
  match diffBits plane word with
  | [] => b
  | [i] =>
    if clean then
      let b := if b.fmode fnConfigScrub = 0 then b.setPlaneCell r p c (putBit plane i (word.testBit i)) shadow else b
      (b.count (Reg.planeMends (p / 136)) 1).logEvent 0x0203 1 r (b2n shadow * 2 ^ 16 + c)
    else b.divergence r p c slot shadow
  | _ => b.divergence r p c slot shadow

/-- The planes of a region that are audited with slot s of its store: those that hold it, and, with slot 0, an active plane
that holds none (R476). -/
def Block.auditCell (b : Block) (r p s c word : Nat) (clean : Bool) : Block :=
  let ready := b.reg (Reg.shadowState r) == 2 || b.reg (Reg.shadowState r) == 3
  if b.latched (p / 136) 1 = 0 || !ready || (b.ctx.active.look p).isEmpty then b
  else
    let b := if b.shadowSlot r = some s then b.auditPlane r p c (some s) word clean true else b
    if b.activeSlot r = some s then b.auditPlane r p c (some s) word clean false
    else if b.activeSlot r = none ∧ s = 0 then b.auditPlane r p c none 0 true false
    else b

/-- One record read, checked and mended; in host-assisted mode the finding is logged and nothing mended (R475, R477). -/
def Block.sweepRecord (b : Block) (p s c : Nat) : RecordCheck × Block :=
  let r := (b.regionAt p).getD 0xFF
  if b.fmode fnConfigScrub = 0 then b.accessRecord r p s c
  else
    let k := checkRecord ((b.slotStore p s).look c) (b.slotDesc p s).isLoaded
    let b := b.noteRecord r p s c k
    (k, if k.corrected && !k.uncorrectable then b.logEvent 0x0202 1 r (s * 2 ^ 16 + c) else b)

/-- A visit counted, and the sweep of the die once both shares, or the one ladybird that sweeps it, have ended (R489). -/
def Block.ladybirdOn (b : Block) (d k : Nat) (x : Ladybird) (at' : Nat) : Block :=
  let (lo, hi) := x.share k
  let last := at' + 1 = hi
  let x := { x with cursor := some (if last then lo else at' + 1), wrapped := x.wrapped || last }
  let pr := b.reg (Reg.progress d)
  let b := b.setReg (Reg.progress d) (putBits pr (32 * k + 31) (32 * k) (bitsOf pr (32 * k + 31) (32 * k) + 1))
  let other := b.ladybird d (1 - k)
  if x.wrapped && (x.wholeDie || other.wrapped) then
    ((b.setLadybird d k { x with wrapped := false }).setLadybird d (1 - k) { other with wrapped := false }).count (Reg.sweeps d) 1
  else b.setLadybird d k x

/-- Whether a die is held in reset. -/
def Block.dieHeld (b : Block) (layer : Nat) : Bool :=
  match b.clk.dieReset with
  | some x => x.layer == layer && x.step != .draining && x.step != .ready
  | none => false

/-- LADYBIRD_VISIT: the next record of its share; a LOADING slot is not checked (R86). -/
def Block.ladybirdVisit (b : Block) (d k : Nat) : Block :=
  let x := b.ladybird d k
  if x.stalledAt ≠ 0 ∨ x.down ∨ b.dieHeld (2 + 3 * d) then b
  else
    let at' := x.cursor.getD (x.share k).1
    let p := 136 * d + at' / perPosition
    let s := at' / 32768 % 16
    let c := at' % 32768
    let b := if (b.slotDesc p s).state = SlotState.loading then b
      else
        let (f, b) := b.sweepRecord p s c
        match b.regionAt p with
        | some r => b.auditCell r p s c f.word (!f.corrected && !f.uncorrectable && !f.sealMended)
        | none => b
    b.ladybirdOn d k x at'

/-- LADYBIRD_VISIT. -/
def execLadybirdVisit (die k t : Nat) (s : State) : Host.Outcome State Fault Refusal :=
  s.answer (wfDie die && decide (k < 2)) (s.blk.event t (fun b => b.ladybirdVisit die k))

/-- LATCH_REFRESH (R474): at a tick whose count is a multiple of 1,000,000; each latch copy that disagreed is counted. -/
def Block.latchRefresh (b : Block) : Block :=
  let b := b.health.latch.foldl (fun b e =>
    match e.2 with
    | some (x, y, z) =>
      let v := b.latchDict (e.1 / 4) (e.1 % 4)
      b.count (Reg.latchMends (e.1 / 4)) (([x, y, z].filter (· != v)).length)
    | none => b) b
  { b with health := { b.health with latch := [] } }

/-- LATCH_REFRESH. -/
def execLatchRefresh (t : Nat) (s : State) : Host.Outcome State Fault Refusal :=
  s.answer true (s.blk.eventIf t (fun b => b.clock % (1000000 * tick) == 0) Block.latchRefresh)

/-- A write of SWEEP_MS or AUDIT_EN: the dictionary copy and the latches. -/
def Block.writeLatched (b : Block) (k d q v : Nat) : Nat × Block :=
  b.guarded [badValue k v] (fun b =>
    { b.setReg k v with health := { b.health with latch := b.health.latch.put (4 * d + q) none } })

/-- LADYBIRD_TAKEOVER (R478): the other ladybird sweeps the whole die from where the stalled one stood; when both declare a
stall at one tick, ladybird 0 takes over. -/
def Block.takeover (b : Block) (d k : Nat) : Block :=
  let x := b.ladybird d k
  let y := b.ladybird d (1 - k)
  let go (b : Block) : Block :=
    let b := b.setLadybird d k { x with stalledAt := b.run + 1 }
    let b := b.setLadybird d (1 - k) { y with stalledAt := 0, wholeDie := true, wrapped := false,
                                              cursor := some (x.cursor.getD (x.share k).1) }
    let b := b.setReg (Reg.lbState d) (2 ^ k)
    (b.count (Reg.takeovers d) 1).logEvent 0x0205 0 (438 + d) k
  if x.stalledAt ≠ 0 then b
  else if y.stalledAt = 0 then go b
  else if k = 1 ∧ y.stalledAt = b.run + 1 then go b
  else b

/-- LADYBIRD_TAKEOVER. -/
def execLadybirdTakeover (die stalled t : Nat) (s : State) : Host.Outcome State Fault Refusal :=
  s.answer (wfDie die && decide (stalled < 2)) (s.blk.event t (fun b => b.takeover die stalled))

/-- LADYBIRDS_DOWN (R478): logged once, until the die is reset. -/
def Block.ladybirdsDown (b : Block) (d : Nat) : Block :=
  if (b.ladybird d 0).down then b
  else
    let b := (b.setLadybird d 0 { b.ladybird d 0 with down := true }).setLadybird d 1 { b.ladybird d 1 with down := true }
    b.logEvent 0x0206 0 (438 + d) 0

/-- LADYBIRDS_DOWN. -/
def execLadybirdsDown (die t : Nat) (s : State) : Host.Outcome State Fault Refusal :=
  s.answer (wfDie die) (s.blk.event t (fun b => b.ladybirdsDown die))

/-! Ledgers and the log (R479, R484, R489). -/

/-- The layers of the path that an open transaction is on. -/
def Block.openPath (b : Block) (ini tag : Nat) : List Nat :=
  let e := b.ledgerAt ini tag
  let far := match portKind e.dstStn e.dstPort with
    | some k => k.path
    | none => []
  if ini < 256 then
    (if b.net.held.any (fun h => h.region == ini && h.tag == tag) then b.requestPath ini else riserPath (dieOf ini) ++ far)
  else far

/-- Whether the window edge of the die-level reset is due: a cricket tick at least DRAIN_WINDOW_US after the fence. -/
def Block.windowDue (b : Block) : Bool :=
  match b.clk.dieReset with
  | some d => d.step == .draining && b.clock % tick == 0 &&
      decide (d.fenceAt + us (b.reg Reg.drainWindowUs) + ns 50 ≤ b.run)
  | none => false

/-- Whether an open transaction is on a fenced path, or awaits a tap behind a fence (R446). -/
def Block.onFence (b : Block) (ini tag : Nat) : Bool :=
  if (b.ledgerAt ini tag).op = 4 then
    b.net.acks.any (fun a => sSrc a.hdr == ini && sMsg a.hdr == tag && b.fenced (tapPath (a.tap / 16)))
  else b.fenced (b.openPath ini tag)

/-- Whether the window edge of an exhausted group that covers an open transaction falls at this edge (R470). -/
def Block.retiresNow (b : Block) (ini tag : Nat) : Bool :=
  b.clock % tick == 0 && b.health.exhausted.any (fun x => !x.ended && decide (x.row < 4) && x.row != 1 &&
    decide (x.e0 + us (b.reg Reg.drainWindowUs) ≤ b.run) && (b.regionsOn x.row x.unit).contains ini &&
    (b.openAtW x.row ini).contains tag)

/-- The local causes that end an open transaction at this edge (R29, R446). -/
def Block.localCauses (b : Block) (ini tag : Nat) : List Nat :=
  let e := b.ledgerAt ini tag
  (if b.retiresNow ini tag then [Status.retired] else []) ++
    (if b.windowDue && b.onFence ini tag then [Status.seamFence] else []) ++
    (if e.openAt + us e.limit ≤ b.run then [Status.timeout] else [])

/-- The records of an octet, by the order of their opening. -/
def Block.octetLedger (b : Block) (o : Nat) : List Egress := b.link.egress.filter (fun e => e.lk / 8 == o)

/-- The rows that end an octet's record at time `t`: the answer it awaits, the loss of its partner and a flush, each before the limit
(R26, R29). -/
def recordRow (t : Nat) : Instr → Option (State → Host.Outcome State Fault Refusal)
  | .tailD l c t' => atEdge t t' (execTailD l c t')
  | .rsp l c t' => atEdge t t' (execRsp l c t')
  | .snpA l c t' => atEdge t t' (execSnpA l c t')
  | .init l blk t' => atEdge t t' (execInit l blk t')
  | .idleExitTimeout l t' => atEdge t t' (execIdleExitTimeout l t')
  | .keepaliveTimeout l t' => atEdge t t' (execKeepaliveTimeout l t')
  | .signalLossTimeout l t' => atEdge t t' (execSignalLossTimeout l t')
  | .flushStart l v t' => atEdge t t' (execFlushStart l v t')
  | _ => none

/-- Whether an open entry ends at the edge of its limit by what comes before the limit. -/
def State.ledgerWon (s : State) (ini tag t : Nat) : Bool :=
  if 256 ≤ ini ∧ ini < 320 then
    match (s.blk.octetLedger (ini - 256))[tag]? with
    | some e => !(s.settle (recordRow t)).blk.link.egress.any
        (fun x => x.lk == e.lk && x.src == e.src && x.tag == e.tag && (x.op == opSnp) == (e.op == opSnp) && x.since == e.since)
    | none => false
  else s.completionSeen t ini tag

/-- An open entry closed by a local cause, with the beats committed. -/
def Block.closeOpen (b : Block) (ini tag st : Nat) : Block :=
  if (b.ledgerAt ini tag).op = 4 then (b.snpClose ini tag st).snpDone ini tag st
  else
    let b := { b with net := { b.net with held := b.net.held.filter (fun h => !(h.region == ini && h.tag == tag)) } }
    (b.land 0 ini tag).finishOpen ini tag st (b.ledgerAt ini tag).beatsDone []

/-- LEDGER_TIMEOUT: an entry open for the limit in force when it opened closes with the beats committed, and with TIMEOUT unless
another cause ends it at the same edge (R29); only the timeout is counted here. -/
def Block.ledgerTimeout (b : Block) (ini tag : Nat) : Block :=
  if 256 ≤ ini ∧ ini < 320 then
    match (b.octetLedger (ini - 256))[tag]? with
    | some e =>
      if e.since + us e.limit ≤ b.run then
        let b := ((b.closeEgress e).octetAnswer (ini - 256) e Status.timeout e.beats).count Reg.ledgerTimeouts 1
        (b.ledgerReport ini tag Status.timeout e.beats).retryOctet (ini - 256)
      else b
    | none => b
  else
    let e := b.ledgerAt ini tag
    if e.state = .opened ∧ e.openAt + us e.limit ≤ b.run then
      let st := (Status.first (b.localCauses ini tag)).getD Status.timeout
      let b := if st = Status.timeout then b.count Reg.ledgerTimeouts 1
        else if st = Status.seamFence then b.count Reg.fenceLeftovers 1 else b
      b.closeOpen ini tag st
    else b

/-- LEDGER_TIMEOUT. -/
def execLedgerTimeout (ini tag t : Nat) (s : State) : Host.Outcome State Fault Refusal :=
  s.answer (wfInitiator ini && decide (tag < 1024)) (s.limit (s.ledgerWon ini tag t) t (s.blk.event t (fun b => b.ledgerTimeout ini tag)))

/-- A write of LOG_CLEAR (R489, R522): the ring is emptied, SEQ continues. -/
def Block.writeLogClear (b : Block) (v : Nat) : Nat × Block :=
  b.guarded [badValue Reg.logClear v] (fun b => { b with health := { b.health with log := [] } })

/-- LOG_CLEAR. -/
def execLogClear (v : Nat) (s : State) : Host.Outcome State Fault Refusal :=
  s.answer true (s.blk.host (fun b => b.writeLogClear v))

/-! The hand-over of the stewards (R487). -/

/-- The package of firmware slot A or B. -/
def Block.firmware (b : Block) (slot : Nat) : Option Firm :=
  if slot = 0 then b.cfg.fwA else if slot = 1 then b.cfg.fwB else none

/-- Open management transfers are aborted with STALLED (R487). -/
def Block.stallTransfers (b : Block) : Block := b.lmp.xfers.foldl (fun b x => b.abortXfer x Abort.stalled) b

/-- A write of FW_SWITCH: rolling where COMPAT is that of the running firmware, else cold. -/
def Block.writeFwSwitch (b : Block) (v : Nat) : Nat × Block :=
  let new := b.firmware v
  let running := b.firmware (b.reg Reg.fwActive)
  b.guarded [badValue Reg.fwSwitch v,
      (b.reg Reg.fwActive == v || new.isNone || b.commit.run.isSome || b.clk.dieReset.isSome || b.health.handOver.isSome,
       Abort.condition)] (fun b =>
    let rolling : Bool := match new, running with
      | some x, some y => x.compat == y.compat
      | _, _ => false
    let b := b.setRegs [(Reg.fwSwitchStatus, 128), (Reg.stewardsUp, if rolling then 7 else 0)]
    let b := if rolling then b else b.stallTransfers
    { b with health := { b.health with handOver := some { slot := v, cold := !rolling } } })

/-- FW_SWITCH. -/
def execFwSwitch (v t : Nat) (s : State) : Host.Outcome State Fault Refusal :=
  s.answer true ((s.blk.at t).host (fun b => b.writeFwSwitch v))

/-- FW_HANDOVER_END: steward 0 has returned from the new slot. -/
def Block.handoverEnd (b : Block) : Block :=
  match b.health.handOver with
  | none => b
  | some h =>
    let b := b.setRegs [(Reg.fwActive, h.slot), (Reg.fwSwitchStatus, Status.ok), (Reg.stewardsUp, 15)]
    ({ b with health := { b.health with handOver := none } }.count Reg.handovers 1).logEvent 0x0604 0 368
      (h.slot + b2n h.cold * 2 ^ 8)

/-- FW_HANDOVER_END. -/
def execFwHandoverEnd (t : Nat) (s : State) : Host.Outcome State Fault Refusal :=
  s.answer true (s.blk.event t Block.handoverEnd)

/-! The rebuild after power-on (R473). -/

/-- How many of a list meet a condition. -/
def tally {α : Type} (p : α → Bool) (l : List α) : Nat := (l.filter p).length

/-- Whether a physical slot is spare. -/
def Block.isSpare (b : Block) (p : Nat) : Bool := b.slotUse p == .spare

/-- The health state rebuilt from the fuses: slots in ascending bit order, then the other fuses; the start sweep follows. -/
def Block.rebuildHealth (b : Block) : Block :=
  let slots := (List.range 272).filter b.fuseBit
  -- every fused slot is out of use before any region is replaced
  let displaced := (List.range 256).filter (fun r => slots.contains (b.phys r))
  let b := b.count Reg.remapGen (tally b.isSpare slots)
  let b := slots.foldl (fun b p => b.setUse p .retired) b
  let b := { b with rgn := { b.rgn with twinLost := (List.range 136).filter (fun q => b.fuseBit (272 + q)) } }
  let b := displaced.foldl (fun b r =>
    let p := b.phys r
    if !slots.contains p then b
    else
      let o := partner r
      match b.sparePair, b.soloSpare (dieOf r) with
      | some q, _ =>
        let b := (b.moveRegion r (some q) .retired).count Reg.remapGen 1
        if b.isRetired o then b
        else b.moveRegion o (some q) (if slots.contains (b.phys o) then .retired else .spare)
      | none, some q => (b.moveRegion r (some q) .retired).count Reg.remapGen 1
      | none, none => (b.moveRegion r none .retired).count Reg.remapGen 1) b
  let b := (b.count Reg.remapGen b.rgn.twinLost.length)
  let b := (List.range 256).foldl Block.routeRegion b
  let banks := (List.range 128).filter (fun k => b.fuseBit (952 + k))
  let b := banks.foldl (fun b k => if b.bankRetired k then b else b.retireBank k) b
  { b with health := { b.health with startSweep := true } }

end Sys2Proof.Machine
end

