-- ==== Sys2Proof/Machine/Pkg.lean ====
section
/-! DEFINITION. The image container (R361 to R368): its header, directory and signature, its frames, and what each kind of
segment writes. Start-up and the run-time packages both read a package through these operations. -/

namespace Sys2Proof.Machine

open Sys2Proof

/-! Reading a container. -/

/-- The little-endian field of `n` bytes at offset `o`. -/
def leAt (l : List Byte) (o n : Nat) : Nat := bytesVal ((l.drop o).take n)

/-- Whether the `n` bytes at offset `o` are zero. -/
def zeroAt (l : List Byte) (o n : Nat) : Bool := ((l.drop o).take n).all (fun x => x == 0)

/-- The length of a frame. -/
abbrev frameBytes : Nat := 4128

/-- A directory entry (Table 11.4). -/
def segEntry (l : List Byte) : SegEntry :=
  { offset := leAt l 0 8, length := leAt l 8 4, kind := leAt l 12 1, target := leAt l 16 8, tag := leAt l 32 16,
    digest := leAt l 64 64, aad := l.take 32 }

/-- Whether an entry breaks R361 or Table 11.4; `from'` is the first byte its segment may occupy. -/
def entryBad (from' : Nat) (l : List Byte) : Bool :=
  let e := segEntry l
  e.offset % 32 != 0 || e.offset < from' || e.length % frameBytes != 0 || e.length < frameBytes || 16776192 < e.length ||
    !zeroAt l 13 3 || !zeroAt l 24 8 || !zeroAt l 48 16 || (e.target != 0 && e.kind != 5 && e.kind != 8)

/-- Whether a directory breaks R361 or Table 11.4. -/
def directoryBad : Nat → List (List Byte) → Bool
  | _, [] => false
  | from', l :: ls => entryBad from' l || directoryBad (leAt l 0 8 + leAt l 8 4) ls

/-- The number of bytes of the signed part: header and directory. -/
def signedBytes (l : List Byte) : Nat := 256 + 128 * leAt l 8 2

/-- Check 1 of Table 11.10; `most` is the length of the container where it is known. -/
def headerBad (types : List Nat) (most : Option Nat) (l : List Byte) : Bool :=
  let n := leAt l 8 2
  let rows := rowsOf 128 1024 ((l.drop 256).take (128 * n))
  leAt l 0 4 != 0x3143494B || leAt l 4 2 != 1 || !types.contains (leAt l 6 1) || n == 0 || 1024 < n ||
    !zeroAt l 10 2 || !zeroAt l 26 6 || !zeroAt l 116 140 || l.length < signedBytes l + 1040 ||
    directoryBad (signedBytes l + 1040) rows ||
    (match most, rows.getLast? with
      | some m, some e => m < leAt e 0 8 + leAt e 8 4
      | _, _ => false)

/-- SHA-512 as the dictionary shows it: the value of its 64 bytes. -/
def digestOf (l : List Byte) : Nat := bytesVal (sha512 l)

/-- OWNER_STATE: whether an owner slot is programmed (R369). -/
def Fuses.closed (f : Fuses) : Bool := f.owner.any (·.isSome)

/-- Check 2 of Table 11.10, for KEY_SLOT, PKG_TYPE and the key digest. -/
def Block.keyBad (b : Block) (slot type digest : Nat) : Bool :=
  if 3 ≤ type then slot != 0xFF || digest != Config.kwaodKeyDigest
  else 3 < slot || (b.fuses.closed &&
    (b.fuses.revoked.testBit slot || nthD b.fuses.owner slot none != some digest))

/-- The key that unwraps K0 (R366, R369). -/
def Block.fusedKey (b : Block) (slot : Nat) : Option (List Byte) :=
  if slot = 0xFF then some (bytesOf 32 Config.kwaodFirmwareKey)
  else match b.fuses.imageKey with
    | some k => some (bytesOf 32 k)
    | none => if b.fuses.closed then none else some (zeros 32)

/-- Checks 1 to 6 of Table 11.10 on the bytes before segment 0: the first code that applies, or the package. -/
def Block.checkPackage (b : Block) (types : List Nat) (most : Option Nat) (l : List Byte) : Nat × Option Pkg :=
  let n := leAt l 8 2
  let type := leAt l 6 1
  let slot := leAt l 7 1
  let sig := l.drop (signedBytes l)
  if headerBad types most l then (2, none)
  else if b.keyBad slot type (digestOf (sig.take 516)) then (3, none)
  else if !pssHolds (sig.take 512) (leAt sig 512 4) (l.take (signedBytes l)) ((sig.drop 528).take 512) then (4, none)
  else if leAt l 24 1 < popCount 64 b.fuses.rollback then (5, none)
  else if (leAt l 32 8 != 0 && leAt l 32 8 != b.fuses.serial) || (leAt l 25 1 != 0 && (leAt l 25 1 != 1 || b.fuses.grade != 1)) then
    (6, none)
  else match (b.fusedKey slot).bind (fun k => aesUnwrap k ((l.drop 40).take 40)) with
    | none => (7, none)
    | some k => (0, some
      { type := type, keySlot := slot, totalFrames := leAt l 12 4, version := leAt l 16 8, rollback := leAt l 24 1,
        compat := leAt l 112 4, salt := (l.drop 80).take 32, digest := digestOf (l.take (signedBytes l)),
        unit0 := (segEntry (l.drop 256)).offset,
        dir := (rowsOf 128 1024 ((l.drop 256).take (128 * n))).map segEntry, key := bytesVal k, sha := { h := shaStart } })

/-! Segments. -/

/-- The directory entry of the segment in progress. -/
def Pkg.entry (p : Pkg) : SegEntry := nthD p.dir p.seg (segEntry [])

/-- Whether a segment of a package is of a kind permitted there (R363). -/
def Pkg.kindAllowed (p : Pkg) : Bool :=
  let k := p.entry.kind
  let before := (p.dir.take p.seg).map (·.kind)
  if p.type = 1 then
    (k == 1 && p.seg == 0) || k == 2 || ((k == 3 || k == 4) && !before.contains k) || k == 5 || k == 8
  else if p.type = 2 then k == 5
  else (k == p.type + 3) && p.dir.length == 1

/-- The IV of the segment in progress, and its cipher's round keys (R366). -/
def Pkg.iv (p : Pkg) : List Byte :=
  hkdf512 p.salt (bytesOf 32 p.key) ([0x49, 0x58, 0x37, 0x56] ++ bytesOf 2 p.seg) 12
def Pkg.roundKeys (p : Pkg) : List (List Nat) := aesKeys (bytesOf 32 p.key)

/-- The segment in progress begun: its authenticator holds the additional data. -/
def Pkg.begin (p : Pkg) : Pkg :=
  { p with frame := 0, tries := 0, ghash := ghashOver (gcmHashKey p.roundKeys) 0 p.entry.aad, sha := { h := shaStart },
           carry := [], taken := 0 }

/-- The next segment, under the next key (R366). -/
def Pkg.next (p : Pkg) : Pkg :=
  let n := p.seg + 1
  Pkg.begin { p with seg := n, key := bytesVal (hkdf512 p.salt (bytesOf 32 p.key)
    ([0x49, 0x58, 0x37, 0x4B] ++ bytesOf 2 n) 32) }

/-- Tag and digest of the segment as it ends (R367). -/
def Pkg.segmentHolds (p : Pkg) : Bool :=
  bytesVal (gcmTag p.roundKeys p.iv p.ghash 32 p.entry.length) == p.entry.tag &&
    bytesVal (shaEnd p.sha.h p.sha.rest p.sha.len) == p.entry.digest

/-! Frames (R364, R365). -/

/-- The payload bytes that a frame uses. -/
def frameUsed (l : List Byte) : Nat := leAt l 6 2

/-- Whether a frame breaks Table 11.7 or stands at another place than it says (R365). -/
def Pkg.frameMalformed (p : Pkg) (l : List Byte) : Bool :=
  let ctx := p.entry.kind == 2
  let last := p.frame + 1 == p.entry.length / frameBytes
  leAt l 0 1 != (if ctx then 1 else 2) || (!ctx && (leAt l 1 1 != 0 || leAt l 2 1 != 0 || leAt l 4 2 != 0)) ||
    15 < leAt l 2 1 || leAt l 3 1 != 0 || 255 < leAt l 4 2 || frameUsed l == 0 || 4096 < frameUsed l ||
    ((ctx || !last) && frameUsed l != 4096) || leAt l 8 4 != p.frame || leAt l 12 2 != p.seg || !zeroAt l 14 14 ||
    !zeroAt l (28 + frameUsed l) (4096 - frameUsed l)

/-- The cell records of a context frame. -/
def frameRecords (l : List Byte) : List Nat := (rowsOf 32 128 ((l.drop 28).take 4096)).map bytesVal

/-- Whether a frame fails: a wrong CRC, or a record that R57 refuses (R365). -/
def Pkg.frameFails (p : Pkg) (l : List Byte) : Bool :=
  leAt l 0x101C 4 != crc32c (l.take 0x101C) ||
    (p.entry.kind == 2 && leAt l 0 1 == 1 && (frameRecords l).any (fun r => !recordLoads r))

/-- A region table entry (Table 11.8). -/
def regionEntry (l : List Byte) : RegionEntry :=
  { region := leAt l 0 1, slot := leAt l 1 1, boot := (leAt l 2 1).testBit 0, image := leAt l 3 1, kernel := leAt l 4 2,
    sig := leAt l 8 4, map := leAt l 16 128 }

/-- Whether a region table entry is malformed, beside those before it. -/
def Pkg.regionEntryBad (p : Pkg) (l : List Byte) : Bool :=
  let e := regionEntry l
  15 < e.slot || 1 < leAt l 2 1 || 4095 < e.kernel || !zeroAt l 6 2 || !zeroAt l 12 4 || badMap e.map ||
    p.regions.any (fun x => x.region == e.region && (x.slot == e.slot || (x.boot && e.boot)))

/-- A boot run entry (Table 11.9), and whether it is malformed (R376). -/
def bootRun (l : List Byte) : BootRun :=
  { kernel := leAt l 0 2, anchor := leAt l 2 1, shape := leAt l 3 1, argLine := leAt l 4 3, cring := leAt l 8 1,
    prio := leAt l 9 1, flags := leAt l 10 1 }
def bootRunBad (l : List Byte) : Bool :=
  let e := bootRun l
  4095 < e.kernel || 63 < e.cring || 7 < e.prio || leAt l 7 1 != 0 || 7 < e.flags || !zeroAt l 11 5

/-- Whether a settings record is malformed (Table 11.6). -/
def settingBad (l : List Byte) : Bool := leAt l 3 1 == 0 || 8 < leAt l 3 1 || !zeroAt l 4 4

/-- The length of the records that a kind of segment holds; 1 where it holds bytes. -/
def recordBytes (kind : Nat) : Nat := if kind = 1 then 144 else if kind = 3 ∨ kind = 4 then 16 else 1

/-- One whole record of a table segment taken up; none where it is malformed. -/
def Pkg.takeRecord (p : Pkg) (l : List Byte) : Option Pkg :=
  if p.entry.kind = 1 then
    (if p.regionEntryBad l then none else some { p with regions := p.regions ++ [regionEntry l] })
  else if p.entry.kind = 3 then
    (if bootRunBad l then none else some { p with bootRuns := p.bootRuns ++ [bootRun l] })
  else (if settingBad l then none
    else some { p with settings := p.settings ++ [(leAt l 0 2, leAt l 2 1, leAt l 3 1, leAt l 8 (leAt l 3 1))] })

/-- The records of a stream taken up in order; none where one is malformed. -/
def Pkg.takeRecords (p : Pkg) : List (List Byte) → Option Pkg
  | [] => some p
  | l :: ls => match p.takeRecord l with
    | some p => p.takeRecords ls
    | none => none

/-- Whether `n` bytes at a local offset lie within MA or within MB (R374, R378). -/
def withinUser (a n : Nat) : Bool := n != 0 && withinDie a n

/-- The frames of user memory that `n` bytes at a local offset touch. -/
def framesOf (a n : Nat) : List Nat := (List.range (n / 65536 + 2)).map (· + a / 65536) |>.filter (fun f => f * 65536 < a + n)

/-- Bytes of one frame's payload written to user memory; a retired bank takes none, and a pool frame refuses them (R226). -/
def Block.pathWrite (b : Block) (a : Nat) (l : List Byte) : Block :=
  let n := min l.length (65536 - a % 65536)
  let put (b : Block) (a : Nat) (l : List Byte) : Block :=
    if l.isEmpty || b.userStatus a != Status.ok then b
    else if b.inPool (a / 65536) then b.count Reg.migStrayWrites 1
    else (b.writeBytes a l.length (bytesVal l)).2
  put (put b a (l.take n)) (a + n) (l.drop n)

/-- A frame of a context segment written into its store slot, and into the active plane of a region that boots from it
(R374); none where it is malformed (R365). -/
def Block.contextFrame (b : Block) (p : Pkg) (l : List Byte) : Option (Pkg × Block) :=
  let r := leAt l 1 1
  let s := leAt l 2 1
  let row := leAt l 4 2
  let rows := p.rows.look (16 * r + s)
  match p.regions.find? (fun e => e.region == r && e.slot == s) with
  | none => none
  | some e =>
    if rows.testBit row then none
    else if b.isRetired r then some (p, b)
    else
      let put (m : SMap Nat) : SMap Nat :=
        ((frameRecords l).zip (List.range 128)).foldl (fun m x => m.put (128 * row + x.2) x.1) m
      let ph := b.phys r
      let b := b.setStore ph s (put (b.slotStore ph s))
      let b := if e.boot then { b with ctx := { b.ctx with active := b.ctx.active.put ph (put (b.ctx.active.look ph)) } } else b
      some ({ p with rows := p.rows.put (16 * r + s) (putBit rows row true)
                     slots := if p.slots.contains (r, s) then p.slots else p.slots ++ [(r, s)] }, b)

/-- The payload of an accepted data frame, by the kind of its segment; none where it is malformed. -/
def Block.dataFrame (b : Block) (p : Pkg) (l : List Byte) : Option (Pkg × Block) :=
  let n := frameUsed l
  let bytes := (l.drop 28).take n
  let k := p.entry.kind
  let a := p.entry.target + p.taken
  if k = 5 then
    (if withinLibrary a n then
      some ({ p with taken := p.taken + n, library := p.library ++ [(a, n)] }, (b.writeBytes a n (bytesVal bytes)).2)
    else none)
  else if k = 8 then
    (if withinUser p.entry.target (p.taken + n) then
      some ({ p with taken := p.taken + n, frames := (p.frames ++ framesOf a n).eraseDups }, b.pathWrite a bytes)
    else none)
  else if k = 6 ∨ k = 7 then
    (if p.taken + n ≤ (if k = 6 then 4 * 2 ^ 20 else 256 * 1024) then some ({ p with taken := p.taken + n }, b) else none)
  else
    let w := recordBytes k
    let all := p.carry ++ bytes
    let whole := all.length / w * w
    match p.takeRecords (rowsOf w (all.length / w) (all.take whole)) with
    | some p => some ({ p with carry := all.drop whole, taken := p.taken + n }, b)
    | none => none

/-- A loaded slot at the end of a segment: all its rows have come (R374). -/
def Block.slotLoaded (b : Block) (e : RegionEntry) : Block :=
  let p := b.phys e.region
  let d := b.slotDesc p e.slot
  let b := b.setDesc p e.slot { d with state := .loaded, kernel := e.kernel, image := e.image, borderSig := e.sig, gen := (d.gen + 1) % 256 }
  let b := b.setMap p e.slot e.map
  if e.boot then b.setReg (Reg.activeSlot e.region) e.slot else b

/-- Whether all 256 frame rows of a region table entry have been loaded. -/
def Pkg.complete (p : Pkg) (e : RegionEntry) : Bool := p.rows.look (16 * e.region + e.slot) == 2 ^ 256 - 1

/-- The slots whose rows are complete as a segment ends become LOADED (R374). -/
def Block.segmentSlots (b : Block) (p : Pkg) : Block :=
  p.regions.foldl (fun b e =>
    if p.complete e && (b.slotDesc (b.phys e.region) e.slot).state != .loaded then b.slotLoaded e else b) b

/-- What a frame makes of the package in progress. -/
inductive PkgStep where
  /-- More frames are to come. -/
  | more
  /-- The frame failed and is to be read again (R372). -/
  | again
  /-- The package failed, with its code of Table 11.10. -/
  | failed (code : Nat)
  /-- Every segment has passed. -/
  | done
  deriving DecidableEq, Repr

/-- The block with a package in progress. -/
def Block.setPkg (b : Block) (p : Option Pkg) : Block := { b with cfg := { b.cfg with pkg := p } }

/-- The end of a segment: its tag and digest, its last record, and the next segment's kind (R363, R367). -/
def Block.segmentEnd (b : Block) (p : Pkg) : PkgStep × Block :=
  if !p.segmentHolds then (.failed 9, b)
  else if !p.carry.isEmpty then (.failed 10, b)
  else
    let b := if p.entry.kind = 2 then b.segmentSlots p else b
    if p.seg + 1 < p.dir.length then
      let p := p.next
      (if p.kindAllowed then .more else .failed 10, b.setPkg (some p))
    else (if p.type = 1 ∧ !p.regions.all p.complete then .failed 11 else .done, b.setPkg (some p))

/-- One encrypted frame of the package in progress (R364 to R368). -/
def Block.takeFrame (b : Block) (p : Pkg) (l : List Byte) : PkgStep × Block :=
  let plain := gcmText p.roundKeys p.iv (258 * p.frame) l
  if l.length ≠ frameBytes ∨ p.frameFails plain then
    (if p.tries = 3 then (.failed 8, b.setPkg (some { p with tries := 4 }))
     else (.again, (b.count Reg.frameRetries 1).setPkg (some { p with tries := p.tries + 1 })))
  else if p.frameMalformed plain then (.failed 10, b)
  else
    let kept := if p.entry.kind = 2 then b.contextFrame p plain else b.dataFrame p plain
    match kept with
    | none => (.failed 10, b)
    | some (p, b) =>
      let (h, rest, len) := shaFeed p.sha.h p.sha.rest p.sha.len l
      let p := { p with frame := p.frame + 1, tries := 0, ghash := ghashOver (gcmHashKey p.roundKeys) p.ghash l,
                        sha := { h := h, rest := rest, len := len } }
      let b := if p.type = 1 then b.count Reg.framesDone 1 else b
      let b := b.setPkg (some p)
      if p.frame * frameBytes < p.entry.length then (.more, b) else b.segmentEnd p

/-- A package whose header has passed begins: its first segment's kind is checked. -/
def Block.beginPackage (b : Block) (p : Pkg) : PkgStep × Block :=
  let p := p.begin
  (if p.kindAllowed then .more else .failed 10, b.setPkg (some p))

/-- The package as firmware or microcode is kept. -/
def Pkg.firm (p : Pkg) : Firm := { version := p.version, compat := p.compat, digest := p.digest }

/-- A failed package in the event log (Table 15.5). -/
def Block.logPackage (b : Block) (type code : Nat) : Block := b.logEvent 0x0601 0 369 (type + code * 256)

/-! Run-time packages (R378 to R381). -/

/-- Bytes of user memory as the configuration path reads them, and whether any line did not come with OK. -/
def Block.packageBytes (b : Block) (a n : Nat) : List Byte × Bool × Block :=
  let b := b.meets a n
  let first := a / 64
  let r := (List.range ((a + n + 63) / 64 - first)).foldl (fun (acc : Nat × Bool × Block) i =>
    let (st, d, b) := acc.2.2.bankRead (first + i)
    (acc.1 + d * 2 ^ (512 * i), acc.2.1 || st != Status.ok, b)) (0, false, b)
  (bytesOf n (byteSlice r.1 (a % 64) n), r.2.1, r.2.2)

/-- A frame read from user memory, up to four times (R372, R378). -/
def Block.memoryFrame (b : Block) (a : Nat) : Nat → PkgStep × Block
  | 0 => (.failed 8, b)
  | n + 1 => match b.cfg.pkg with
    | none => (.failed 2, b)
    | some p =>
      let (l, bad, b) := b.packageBytes (a + p.entry.offset + frameBytes * p.frame) frameBytes
      match b.takeFrame p (if bad then [] else l) with
      | (.again, b) => b.memoryFrame a n
      | r => r

/-- The frames of a package in user memory, at most `n` of them. -/
def Block.memoryFrames (b : Block) (a : Nat) : Nat → PkgStep × Block
  | 0 => (.failed 2, b)
  | n + 1 => match b.memoryFrame a 4 with
    | (.more, b) => b.memoryFrames a n
    | r => r

/-- A package read from user memory: its code, 0 where every check passed, and the package as far as it came. -/
def Block.memoryPackage (b : Block) (type a bytes : Nat) : Nat × Option Pkg × Block :=
  let (head, bad0, b) := b.packageBytes a 256
  let n := min (leAt head 8 2) 1024
  let (l, bad, b) := b.packageBytes a (min bytes (256 + 128 * n + 1040))
  match b.checkPackage [type] (some bytes) (if bad0 || bad then [] else l) with
  | (0, some p) =>
    let (st, b) := match b.beginPackage p with
      | (.more, b) => b.memoryFrames a (sumOf (p.dir.map (fun (e : SegEntry) => e.length / frameBytes)) + 1)
      | r => r
    ((match st with | .failed c => c | _ => 0), b.cfg.pkg, b.setPkg none)
  | (c, _) => (c, none, b)

/-- PKG_STATUS in progress, with what the command leaves to report. -/
def Block.openJob (b : Block) (j : PkgJob) : Block :=
  ({ b with cfg := { b.cfg with pkgJob := some j } }.setReg Reg.pkgFail 0).setReg Reg.pkgStatus 0x80

/-- A failed package has no status that the spec names: any but OK. -/
def Block.jobFailed (b : Block) (cmd type code : Nat) (library targets : List (Nat × Nat)) : Block :=
  let (f, b) := b.draw
  b.openJob { cmd := cmd, type := type, code := code, status := 1 + f % 10, library := library, targets := targets }

/-- The target ranges of the LIBRARY segments of a package that have started (R379): every frame but the last carries 4,096 bytes. -/
def Pkg.targets (p : Pkg) : List (Nat × Nat) :=
  ((p.dir.take (p.seg + 1)).filter (fun e => e.kind == 5)).map (fun e => (e.target, 4096 * (e.length / frameBytes)))

/-- The package that a command reads from user memory, read and checked. -/
def Block.readPackage (b : Block) (cmd type : Nat) : Block :=
  let (code, p, b) := b.memoryPackage type (b.reg Reg.pkgAddr) (b.reg Reg.pkgBytes)
  match code, p with
  | 0, some p =>
    b.openJob { cmd := cmd, type := type, code := 0, status := Status.ok, library := p.library, firm := some p.firm, digest := p.digest,
                targets := p.targets }
  | c, p => b.jobFailed cmd type c (match p with | some p => p.library | none => []) (match p with | some p => p.targets | none => [])

/-- A package command that reads a package from user memory (R378): a wipe that its lines meet is waited for (R155). -/
def Block.installJob (b : Block) (cmd type : Nat) : Block :=
  (b.openJob { cmd := cmd, type := type, code := 0, status := Status.ok, unread := true }).unlessWiped (fun b => b.readPackage cmd type)

/-- The package of a command that waited for a wipe is read, unless a wipe holds it again. -/
def Block.packageUnread (b : Block) : Block :=
  match b.cfg.pkgJob with
  | some j => if j.unread then b.unlessWiped (fun b => b.readPackage j.cmd j.type) else b
  | none => b

/-! The end of a wipe: what waited for it goes on (R155). -/

/-- WIPE_COMPLETE. -/
def execWipeComplete (t : Nat) (s : State) : Host.Outcome State Fault Refusal :=
  s.answer true (s.blk.eventIf t (fun b => b.mem.wipe.isSome) (fun b => b.wipeComplete.packageUnread))

/-- POOL_ADD_END. -/
def execPoolAddEnd (t : Nat) (s : State) : Host.Outcome State Fault Refusal :=
  s.answer true (s.blk.event t (fun b => b.poolAddEnd.packageUnread))

/-- Whether staged microcode may be loaded into a scarab (R381). -/
def Block.ucodeLoadable (b : Block) (k : Nat) : Bool :=
  match b.cfg.staged with
  | none => false
  | some f => 2 ≤ b.reg (Reg.scarabState k) && (List.range 32).all (fun j => !b.scarabRuns j ||
      (match b.cfg.ucode.look j with | some g => g.compat == f.compat | none => false))

/-- A write of PKG_CMD (R378). -/
def Block.writePkgCmd (b : Block) (v : Nat) : Nat × Block :=
  b.guarded [badValue Reg.pkgCmd v, ((b.reg Reg.pkgStatus).testBit 7, Abort.busy), (!b.started, Abort.condition),
             (!withinUser (b.reg Reg.pkgAddr) (b.reg Reg.pkgBytes), Abort.condition)] (fun b =>
    if v = 1 then b.installJob 1 2
    else if v = 2 then
      (if b.reg Reg.fwActive = 0 then b.jobFailed 2 3 6 [] [] else b.installJob 2 3)
    else if v = 3 then
      (if b.reg Reg.fwActive = 1 then b.jobFailed 3 3 6 [] [] else b.installJob 3 3)
    else if v = 4 then b.installJob 4 4
    else if b.ucodeLoadable (b.reg Reg.pkgScarab) then
      b.openJob { cmd := 5, type := 4, code := 0, status := Status.ok, firm := b.cfg.staged, scarab := b.reg Reg.pkgScarab }
    else b.openJob { cmd := 5, type := 4, code := 0, status := Status.accessDenied })

/-- PKG_CONTEXT_INSTALL. -/
def execPkgContextInstall (t : Nat) (s : State) : Host.Outcome State Fault Refusal :=
  s.answer true ((s.blk.at t).host (fun b => b.writePkgCmd 1))

/-- PKG_FW_INSTALL_A. -/
def execPkgFwInstallA (t : Nat) (s : State) : Host.Outcome State Fault Refusal :=
  s.answer true ((s.blk.at t).host (fun b => b.writePkgCmd 2))

/-- PKG_FW_INSTALL_B. -/
def execPkgFwInstallB (t : Nat) (s : State) : Host.Outcome State Fault Refusal :=
  s.answer true ((s.blk.at t).host (fun b => b.writePkgCmd 3))

/-- PKG_UCODE_STAGE. -/
def execPkgUcodeStage (t : Nat) (s : State) : Host.Outcome State Fault Refusal :=
  s.answer true ((s.blk.at t).host (fun b => b.writePkgCmd 4))

/-- PKG_UCODE_LOAD. -/
def execPkgUcodeLoad (t : Nat) (s : State) : Host.Outcome State Fault Refusal :=
  s.answer true ((s.blk.at t).host (fun b => b.writePkgCmd 5))

/-- Bytes of the library written with zeros (R373, R379). -/
def Block.zeroLibrary (b : Block) (l : List (Nat × Nat)) : Block := l.foldl (fun b e => (b.writeBytes e.1 e.2 0).2) b

/-- A package in force in its slot: firmware in its SRAM and, in self-read modes, in the flash (R380): programmed, then read back and
checked against the digest. PACKAGE_END comes once that check has passed (log 209). -/
def Block.keepFirmware (b : Block) (slot : Nat) (f : Firm) : Block :=
  let b := if slot = 0 then { b with cfg := { b.cfg with fwA := some f } } else { b with cfg := { b.cfg with fwB := some f } }
  let b := b.setReg (if slot = 0 then Reg.fwVersionA else Reg.fwVersionB) f.version
  if b.reg Reg.modePins ≤ 1 then
    (b.emit .port 4 [nthD b.cfg.dir (2 + slot) 0, f.digest]).emit .port 5 [nthD b.cfg.dir (2 + slot) 0, f.digest]
  else b

/-- What a package command that passed leaves. -/
def Block.jobDone (b : Block) (j : PkgJob) (f : Firm) : Block :=
  if j.cmd = 1 then
    let log := digestOf (bytesOf 64 (b.reg Reg.pkgLogDigest) ++ bytesOf 64 j.digest)
    (b.count Reg.pkgCount 1).setReg Reg.pkgLogDigest log
  else if j.cmd = 2 then b.keepFirmware 0 f
  else if j.cmd = 3 then b.keepFirmware 1 f
  else if j.cmd = 4 then { b with cfg := { b.cfg with staged := some f } }.setReg Reg.ucodeStaged f.version
  else { b.setScarab j.scarab { b.scarab j.scarab with cache := [] } with
           cfg := { b.cfg with ucode := b.cfg.ucode.put j.scarab (some f) } }

/-- PACKAGE_END: the command in progress reports; a failed package's library bytes are zeroed. -/
def Block.packageEnd (b : Block) : Block :=
  match b.cfg.pkgJob with
  | none => b
  | some j =>
    if j.unread then b else
    let b := { b with cfg := { b.cfg with pkgJob := none } }
    let b := if j.code ≠ 0 then ((b.zeroLibrary j.library).setReg Reg.pkgFail j.code).logPackage j.type j.code
      else match j.firm with
        | some f => b.jobDone j f
        | none => b
    b.setReg Reg.pkgStatus j.status

/-- PACKAGE_END. -/
def execPackageEnd (t : Nat) (s : State) : Host.Outcome State Fault Refusal :=
  s.answer true (s.blk.event t Block.packageEnd)

/-! Fuses (R369, R370). -/

/-- The authorisation of a fuse operation in the CLOSED state. -/
def Block.fuseAuthorised (b : Block) (op slot : Nat) : Bool :=
  let auth := bytesOf 1028 (b.reg Reg.fuseAuth)
  let key := digestOf (auth.take 516)
  let msg := [0x49, 0x58, 0x37, 0x46, 0x55, 0x53, 0x45] ++ bytesOf 8 b.fuses.serial ++ bytesOf 1 op ++ bytesOf 1 slot ++
    bytesOf b.cfg.fuseLen (b.reg Reg.fuseValue)
  !b.fuses.closed ||
    ((List.range 4).any (fun k => nthD b.fuses.owner k none == some key && !b.fuses.revoked.testBit k && !(op ≤ 2 && k == slot)) &&
      pssHolds (auth.take 512) (leAt auth 512 4) msg ((auth.drop 516).take 512))

/-- Whether a fuse operation is one that R370 aborts, its authorisation apart. -/
def Block.fuseBad (b : Block) (op slot v : Nat) : Bool :=
  if op = 1 then (nthD b.fuses.owner slot none).isSome
  else if op = 2 then (List.range 4).all (fun k => k == slot || b.fuses.revoked.testBit k)
  else if op = 3 then b.fuses.imageKey.isSome
  else if op = 4 then !b.started || v < popCount 64 b.fuses.rollback || b.reg Reg.imageRollback < v || 64 < v
  else op != 5

/-- A write of FUSE_GO: the operation is accepted or aborted. -/
def Block.writeFuseGo (b : Block) (v : Nat) : Nat × Block :=
  let op := b.reg Reg.fuseOp
  let slot := b.reg Reg.fuseSlot
  let x := b.reg Reg.fuseValue
  b.guarded [badValue Reg.fuseGo v, ((b.reg Reg.fuseStatus).testBit 7, Abort.busy),
             (b.fuseBad op slot x || !b.fuseAuthorised op slot, Abort.condition)] (fun b =>
    { b with cfg := { b.cfg with fuseJob := some (op, slot, x) } }.setReg Reg.fuseStatus 0x80)

/-- The host orders fuse operation `op`: FUSE_OP, then FUSE_GO. -/
def Block.fuseOrder (b : Block) (op : Nat) : Nat × Block :=
  let r := (b.setReg Reg.fuseOp op).writeFuseGo 1
  if r.1 = Abort.none then r else (r.1, b)

/-- FUSE_PROGRAM_SLOT. -/
def execFuseProgramSlot (t : Nat) (s : State) : Host.Outcome State Fault Refusal :=
  s.answer true ((s.blk.at t).host (fun b => b.fuseOrder 1))

/-- FUSE_REVOKE. -/
def execFuseRevoke (t : Nat) (s : State) : Host.Outcome State Fault Refusal :=
  s.answer true ((s.blk.at t).host (fun b => b.fuseOrder 2))

/-- FUSE_SET_IMAGE_KEY. -/
def execFuseSetImageKey (t : Nat) (s : State) : Host.Outcome State Fault Refusal :=
  s.answer true ((s.blk.at t).host (fun b => b.fuseOrder 3))

/-- FUSE_ROLLBACK. -/
def execFuseRollback (t : Nat) (s : State) : Host.Outcome State Fault Refusal :=
  s.answer true ((s.blk.at t).host (fun b => b.fuseOrder 4))

/-- FUSE_SET_MGMT_PATHS. -/
def execFuseSetMgmtPaths (t : Nat) (s : State) : Host.Outcome State Fault Refusal :=
  s.answer true ((s.blk.at t).host (fun b => b.fuseOrder 5))

/-- The fuses that an operation blows (R369, R370): a fuse once blown stays so. -/
def Fuses.blow (f : Fuses) (op slot v : Nat) : Fuses :=
  if op = 1 then { f with owner := putNth f.owner slot (if v = 0 then none else some v) }
  else if op = 2 then { f with revoked := putBit f.revoked slot true }
  else if op = 3 then { f with imageKey := if v % 2 ^ 256 = 0 then none else some (v % 2 ^ 256) }
  else if op = 4 then { f with rollback := f.rollback ||| (2 ^ v - 1) }
  else { f with mgmtPaths := f.mgmtPaths ||| v % 8 }

/-- FUSE_DONE: the fuses are blown, and FUSE_VALUE and FUSE_AUTH cleared (R384). -/
def Block.fuseDone (b : Block) : Block :=
  match b.cfg.fuseJob with
  | none => b
  | some (op, slot, v) =>
    { b with fuses := b.fuses.blow op slot v, cfg := { b.cfg with fuseJob := none, fuseLen := 64 } }.setRegs
      [(Reg.fuseStatus, Status.ok), (Reg.fuseValue, 0), (Reg.fuseAuth, 0)]

/-- FUSE_DONE. -/
def execFuseDone (t : Nat) (s : State) : Host.Outcome State Fault Refusal :=
  s.answer true (s.blk.event t Block.fuseDone)

/-! Attestation (R383). -/

/-- VERSION of the microcode of scarab 0; 0 if the scarabs differ. -/
def Block.ucodeVersion (b : Block) : Nat :=
  let v (k : Nat) : Nat := match b.cfg.ucode.look k with | some f => f.version | none => 0
  if (List.range 32).all (fun k => v k == v 0) then v 0 else 0

/-- The running firmware, if the stewards run any. -/
def Block.runningFirmware (b : Block) : Option Firm :=
  if b.reg Reg.fwActive = 0 then b.cfg.fwA else if b.reg Reg.fwActive = 1 then b.cfg.fwB else none

/-- SHA-512 over the owner digests and the bytes of REVOKED, ROLLBACK_COUNT and MGMT_PATHS. -/
def Fuses.digest (f : Fuses) : Nat :=
  digestOf ((f.owner.flatMap (fun d => bytesOf 64 (d.getD 0))) ++ bytesOf 1 f.revoked ++ bytesOf 1 (popCount 64 f.rollback) ++
    bytesOf 1 f.paths)

/-- The report of Table 11.14 without its signature. -/
def Block.reportBytes (b : Block) : List Byte :=
  let f := b.fuses
  let fw := b.runningFirmware
  let uc := b.cfg.ucode.look 0
  bytesOf 4 0x3152414B ++ bytesOf 2 1 ++ bytesOf 1 (b2n f.closed) ++ bytesOf 1 f.grade ++ bytesOf 8 f.serial ++
    bytesOf 32 (b.reg Reg.nonce) ++ bytesOf 8 b.ts ++ bytesOf 1 (popCount 64 f.rollback) ++ bytesOf 1 b.cfg.keySlot ++
    bytesOf 1 f.revoked ++ bytesOf 1 (b.reg Reg.imageUsed) ++ bytesOf 1 (b.reg Reg.fwActive) ++ zeros 3 ++ bytesOf 64 f.digest ++
    bytesOf 64 (b.reg Reg.imageDigest) ++ bytesOf 8 (b.reg Reg.imageVersion) ++
    bytesOf 8 (match fw with | some x => x.version | none => 0) ++ bytesOf 8 b.ucodeVersion ++ bytesOf 2 (b.reg Reg.pkgCount) ++
    zeros 6 ++ bytesOf 64 (match fw with | some x => x.digest | none => 0) ++
    bytesOf 64 (match uc with | some x => x.digest | none => 0) ++ bytesOf 64 (b.reg Reg.pkgLogDigest) ++ zeros 96

/-- A write of ATTEST_GO. -/
def Block.writeAttestGo (b : Block) (v : Nat) : Nat × Block :=
  b.guarded [badValue Reg.attestGo v, ((b.reg Reg.attestStatus).testBit 7, Abort.busy)] (fun b =>
    { b with cfg := { b.cfg with attest := some (bytesVal b.reportBytes) } }.setReg Reg.attestStatus 0x80)

/-- ATTEST_GO. -/
def execAttestGo (v t : Nat) (s : State) : Host.Outcome State Fault Refusal :=
  s.answer true ((s.blk.at t).host (fun b => b.writeAttestGo v))

/-- ATTEST_DONE: the signature under the identity key, which no path shows, is a free value. -/
def Block.attestDone (b : Block) : Block :=
  match b.cfg.attest with
  | none => b
  | some r =>
    let (sig, b) := b.draw
    { b with cfg := { b.cfg with attest := none } }.setRegs
      [(Reg.report, r + 2 ^ (8 * 0x200) * (sig % 2 ^ 4096)), (Reg.attestStatus, Status.ok)]

/-- ATTEST_DONE. -/
def execAttestDone (t : Nat) (s : State) : Host.Outcome State Fault Refusal :=
  s.answer true (s.blk.event t Block.attestDone)

end Sys2Proof.Machine
end

