-- ==== Sys2Proof/Machine/Wg.lean ====
section
/-! DEFINITION. The wake governor (R430 to R433) and the fabric divider (R420). Bucket credit is held in hundredths of a
milliampere, so that one REFCLK edge of 10 ns adds exactly SLEW. -/

namespace Sys2Proof.Machine

open Sys2Proof

/-- What a unit's wake costs its rail (R430). -/
def wakeCost (rail : Nat) : Nat := if rail = 0 then 172000 else 40000

/-- The bucket of a rail at the edge now (R431): SLEW for each REFCLK edge since it was counted, up to BURST. -/
def Block.tokens (b : Block) (rail : Nat) : Nat :=
  let n := b.clock / refclk - b.wg.countedAt
  if rail = 0 then min (b.reg Reg.burstFab * 100) (b.wg.tokensFab + n * b.reg Reg.slewFab)
  else min (b.reg Reg.burstLane * 100) (b.wg.tokensLane + n * b.reg Reg.slewLane)

/-- A request's effective priority (R431): 0 once it has waited WG_AGE_US. -/
def Block.wakePriority (b : Block) (q : WakeReq) : Nat :=
  if b.run - q.since ≥ us (b.reg Reg.wgAgeUs) then 0 else q.priority

/-- The order of R431: effective priority, time of request, unit. -/
def Block.wakeKey (b : Block) (q : WakeReq) : Nat := (b.wakePriority q * 2 ^ 64 + q.time) * 1024 + q.unit

/-- The head of a rail, if there is one to grant: in host-assisted mode the request the host named last, else the first of
those it left past its limit (R433). -/
def Block.wakeHead (b : Block) (rail : Nat) : Option WakeReq :=
  let mine := b.wg.queue.filter (fun q => q.rail == rail)
  if b.fmode fnWake = 0 then leastBy b.wakeKey mine
  else
    match b.wg.named.findSome? (fun n => mine.find? (fun q => n == (q.rail, q.unit))) with
    | some q => some q
    | none => leastBy b.wakeKey (mine.filter (·.aged))

/-- A request granted (R431): its unit starts its wake at this edge. -/
def Block.grantWake (b : Block) (q : WakeReq) : Block :=
  let b := (b.withdrawWake q.rail q.unit).count Reg.wgGrants 1
  let b := { b with wg := { b.wg with named := b.wg.named.filter (fun n => !(n == (q.rail, q.unit))) } }
  let waited := (b.run - q.since) * 5 / 144
  let b := b.setReg Reg.wgMaxWaitNs (max (b.reg Reg.wgMaxWaitNs) (min waited (regTop Reg.wgMaxWaitNs)))
  if q.rail = 0 then { b with rgn := { b.rgn with regionWake := b.rgn.regionWake.put q.unit (some b.run) } }
  else b.laneGranted q.unit

/-- Heads granted while the bucket holds their cost: the bucket left over, and the block. -/
def Block.grantRail (rail : Nat) : Nat → Nat → Block → Nat × Block
  | 0, tokens, b => (tokens, b)
  | fuel + 1, tokens, b => match b.wakeHead rail with
    | some q => if tokens ≥ wakeCost rail then Block.grantRail rail fuel (tokens - wakeCost rail) (b.grantWake q) else (tokens, b)
    | none => (tokens, b)

/-- What the governor does at a REFCLK edge (R431). -/
def Block.governor (b : Block) : Block :=
  let fuel := b.wg.queue.length
  let (fab, b1) := Block.grantRail 0 fuel (b.tokens 0) b
  let (lane, b1) := Block.grantRail 1 fuel (b.tokens 1) b1
  { b1 with wg := { b1.wg with tokensFab := fab, tokensLane := lane, countedAt := b.clock / refclk } }

/-- WAKE_GRANT. -/
def execWakeGrant (t : Nat) (s : State) : Host.Outcome State Fault Refusal :=
  s.answer true (s.blk.eventIf t (fun b => b.clock % refclk == 0) Block.governor)

/-- A wake asked for (R430): a region in Nap or Sleep, or a lane in OFF that is enabled or has a wake detector. -/
def Block.wakeUnit (b : Block) (rail unit prio : Nat) : Block :=
  if !b.started then b
  else if rail = 0 then (if b.isRetired unit then b else b.wakeRegion unit prio)
  else if b.laneState unit = lOff ∧ !(b.laneAt unit).waking ∧
      (b.reg (Reg.laneEn unit) = 1 ∨ b.reg (Reg.wakeEn unit) = 1) then b.wakeLane unit false
  else b

/-- WAKE_REQUEST. -/
def execWakeRequest (rail unit prio t : Nat) (s : State) : Host.Outcome State Fault Refusal :=
  s.answer (wfRail rail && (if rail = 0 then wfRegion unit else wfLane unit) && decide (prio < 8))
    (s.blk.event t (fun b => b.wakeUnit rail unit prio))

/-- A write to WG_GRANT (R433): rail in bit 10, unit in bits [9:0]. -/
def Block.writeWgGrant (b : Block) (v : Nat) : Nat × Block :=
  let rail := bitsOf v 10 10
  let unit := bitsOf v 9 0
  b.guarded [badValue Reg.wgGrant v, (b.fmode fnWake == 0, Abort.mode), (!b.wakeQueued rail unit, Abort.condition)]
    (fun b => { b with wg := { b.wg with named := (rail, unit) :: b.wg.named.filter (fun n => !(n == (rail, unit))) } })

/-- WG_GRANT. -/
def execWgGrant (v : Nat) (s : State) : Host.Outcome State Fault Refusal :=
  s.answer true (s.blk.host (fun b => b.writeWgGrant v))

/-- HOST_WAKE_LIMIT (R433): a request the host has left for HOST_WAKE_LIMIT_US stands in the hardware order. -/
def Block.ageWake (b : Block) (rail unit : Nat) : Block :=
  { b with wg := { b.wg with queue := b.wg.queue.map (fun q =>
      if q.rail = rail ∧ q.unit = unit ∧ b.run - q.since ≥ us (b.reg Reg.hostWakeLimitUs) then { q with aged := true } else q) } }

/-- Whether the host grants a wake at the edge of its limit: WG_GRANT carries no time, and is of this edge when it comes next. -/
def State.grantWon (s : State) (rail unit : Nat) : Bool :=
  let u := (({ s with pending := s.pending.take 1 } : State).settle (fun d => match d with
    | .wgGrant v => some (execWgGrant v)
    | _ => none)).blk
  u.wg.named.contains (rail, unit) && !s.blk.wg.named.contains (rail, unit)

/-- HOST_WAKE_LIMIT. -/
def execHostWakeLimit (rail unit t : Nat) (s : State) : Host.Outcome State Fault Refusal :=
  s.answer (wfRail rail && (if rail = 0 then wfRegion unit else wfLane unit))
    (s.limit (s.grantWon rail unit) t (s.blk.eventIf t (fun b => b.fmode fnWake == 1) (fun b => b.ageWake rail unit)))

/-! Views of the governor (Table 13.12). -/

/-- WG_BOUND (R432): ageing, the host's limit in host-assisted mode, and the time the bucket takes to pay for every unit
of the rail. -/
def Block.wakeBound (b : Block) (rail : Nat) : Nat :=
  let slew := b.reg (if rail = 0 then Reg.slewFab else Reg.slewLane)
  let all := (if rail = 0 then 256 else 512) * wakeCost rail
  1000 * b.reg Reg.wgAgeUs + 10 * ((all + slew - 1) / slew) +
    (if b.fmode fnWake = 1 then 1000 * b.reg Reg.hostWakeLimitUs else 0)

/-- A wake request record (Table 13.13). -/
def Block.wakeWord (b : Block) (q : WakeReq) : Nat :=
  q.time * 2 ^ 64 + b.wakePriority q * 2 ^ 21 + q.kind * 2 ^ 18 + q.rail * 2 ^ 16 + q.unit

/-- Insertion into the head order, rails in turn. -/
def Block.insertWake (b : Block) (q : WakeReq) : List WakeReq → List WakeReq
  | [] => [q]
  | x :: xs => if q.rail * 2 ^ 90 + b.wakeKey q < x.rail * 2 ^ 90 + b.wakeKey x then q :: x :: xs else x :: b.insertWake q xs

/-- WG_QUEUE: the waiting requests in head order, named ones first. -/
def Block.wakeQueue (b : Block) : List WakeReq :=
  let named := b.wg.named.filterMap (fun n => b.wg.queue.find? (fun q => n == (q.rail, q.unit)))
  let rest := b.wg.queue.filter (fun q => !named.contains q)
  named ++ rest.foldr b.insertWake []

/-! FABRIC_DIV (R420). -/

/-- A write to FABRIC_DIV: 24 is out of range on grade 2, and the fabric is idle while no region holds a run. -/
def Block.writeFabricDiv (b : Block) (v : Nat) : Nat × Block :=
  b.guarded [((List.range 256).any (fun r => (b.runOf r).isSome), Abort.notIdle), badValue Reg.fabricDiv v,
      (b.fuses.grade == 2 && v == 24, Abort.range)]
    (fun b =>
      let b := b.setRegs [(Reg.fabricDiv, v), (Reg.fabricHz, 28800000000 / v)]
      { b with clk := { b.clk with divDue := some (tickAfter b.clock, v) } })

/-- FABRIC_DIV. -/
def execFabricDiv (v t : Nat) (s : State) : Host.Outcome State Fault Refusal :=
  s.answer true ((s.blk.at t).host (fun b => b.writeFabricDiv v))

end Sys2Proof.Machine
end

