-- ==== Sys2Proof/Machine/Thermal.lean ====
section
/-! DEFINITION. Thermal sensing, cross-checks and throttling (R450 to R461). Temperatures are integers in units of
0.25 °C; an I32 object holds them in two's complement. -/

namespace Sys2Proof.Machine

open Sys2Proof

/-- The value of an I32 object. -/
def Block.ireg (b : Block) (k : Nat) : Int := signedOf 32 (b.reg k)

/-- The block with an I32 object written. -/
def Block.setIreg (b : Block) (k : Nat) (v : Int) : Block := b.setReg k (unsignedOf 32 v)

/-! Sensors and their neighbours (R450, R453). -/

/-- Layer, column and row of a sensor. -/
def sensorAt (k : Nat) : Nat × Nat × Nat := (k / 64, k % 8, k / 8 % 8)

/-- Whether two positions along one axis differ by at most 1. -/
def nearby (x y : Nat) : Bool := x ≤ y + 1 && y ≤ x + 1

/-- The neighbours of a sensor: the ring about it on its die, and the sensors directly above and below. -/
def sensorNeighbours (k : Nat) : List Nat :=
  let (l, x, y) := sensorAt k
  (List.range 448).filter (fun j =>
    let (l', x', y') := sensorAt j
    j != k && ((l' == l && nearby x x' && nearby y y') || (x' == x && y' == y && nearby l l')))

/-- Insertion into an ascending list. -/
def insertInt (v : Int) : List Int → List Int
  | [] => [v]
  | x :: xs => if v ≤ x then v :: x :: xs else x :: insertInt v xs

/-- The median; of an even count the mean of the two middle values rounded down (R453). -/
def medianOf (l : List Int) : Int :=
  let s := l.foldr insertInt []
  let n := s.length
  if n % 2 = 1 then nthD s (n / 2) 0 else (nthD s (n / 2 - 1) 0 + nthD s (n / 2) 0) / 2

/-- The greatest of a list of temperatures, with a floor of the least reading. -/
def hottest (l : List Int) : Int := l.foldl max (-160)

/-- A reading saturates at the ends of the measured range (R451). -/
def clampReading (v : Int) : Int := max (-160) (min 600 v)

/-! The sample. -/

/-- THERMAL_SAMPLE (R452): every sensor read at one cricket tick whose count is a multiple of 100. -/
def Block.takeSample (b : Block) (raws : List Int) : Block :=
  ({ b with therm := { b.therm with pending := some (b.clock + 10 * tick, raws.map clampReading) } }).count Reg.thermSamples 1

/-- THERMAL_SAMPLE. -/
def execThermalSample (raws : List Int) (t : Nat) (s : State) : Host.Outcome State Fault Refusal :=
  s.answer (decide (raws.length = 448)) (s.blk.eventIf t (fun b => b.clock % (100 * tick) == 0) (fun b => b.takeSample raws))

/-- One sensor's cross-check and working value (R453 to R455). `b0` is the block before the sample came into force: every
sensor is judged by the states and the working values that stood then. -/
def Block.checkSensor (b0 : Block) (raws : List Int) (b : Block) (k : Nat) : Block :=
  let raw := nthD raws k 0
  let usable := (sensorNeighbours k).filter (fun j => b0.reg (Reg.suspect j) == 0)
  let suspect := b0.reg (Reg.suspect k) == 1
  let (median, b) : Int × Block :=
    if usable.isEmpty then (let (v, b) := b.draw; ((v : Int) % 761 - 160, b))
    else (medianOf (usable.map (fun j => nthD raws j 0)), b)
  let work := if !suspect then raw
    else if !usable.isEmpty then median
    else hottest ((List.range 64).map (fun i => b0.ireg (Reg.working (64 * (k / 64) + i))))
  let b := ((b.setIreg (Reg.raw k) raw).setIreg (Reg.neighbourMedian k) median).setIreg (Reg.working k) work
  if usable.length < 3 then b
  else
    let bad := raw - median > 32 || median - raw > 32
    let n := if bad = suspect then 0 else b0.reg (Reg.runCount k) + 1
    let note := unsignedOf 32 raw + unsignedOf 32 median * 2 ^ 32
    if !suspect ∧ n ≥ 16 then
      ((b.setRegs [(Reg.suspect k, 1), (Reg.runCount k, 0)]).count (Reg.suspectEvents k) 1).logEvent 0x0701 3 k note
    else if suspect ∧ n ≥ 10000 then (b.setRegs [(Reg.suspect k, 0), (Reg.runCount k, 0)]).logEvent 0x0702 3 k note
    else b.setReg (Reg.runCount k) n

/-- The seven sensors of a station area (R456). -/
def areaSensors (s : Nat) : List Nat := (List.range 7).map (fun l => 64 * l + s)

/-- What an area's throttle request goes towards (R458, R461). -/
def Block.throttleGoal (b : Block) (s : Nat) : Nat :=
  let g := b.reg (Reg.targetLevel s)
  if b.fmode fnThermal = 0 then g
  else if b.ireg (Reg.areaT s) ≥ b.ireg Reg.target + b.ireg Reg.hostMargin then max (b.reg (Reg.hostLevel s)) g
  else b.reg (Reg.hostLevel s)

/-- A request rises at once (R426). -/
def Block.raiseThrottle (b : Block) (s : Nat) : Block :=
  b.setReg (Reg.skipReq s) (max (b.reg (Reg.skipReq s)) (b.throttleGoal s))

/-- An area's temperature, rate of rise and target level (R458): the terms of the law over the denominator 100 times the
window in milliseconds, so that the floor is taken once. A rate that is no whole multiple of its unit is shown as one of
the two nearest; which is a free value. -/
def Block.judgeArea (b : Block) (s : Nat) : Block :=
  let t := hottest ((areaSensors s).map (fun k => b.ireg (Reg.working k)))
  let w := b.reg Reg.riseWindowMs
  let old := b.therm.windows.look s
  let full := decide (10 * w ≤ old.length)
  let rise : Int := if full then 25 * (t - nthD old (10 * w - 1) t) else 0
  let (shown, b) : Int × Block :=
    if rise % w = 0 then (rise / w, b) else (let (v, b) := b.draw; (rise / w + (v % 2 : Nat), b))
  let e := max 0 (t - b.ireg Reg.target)
  let fast := if full ∧ t ≥ b.ireg Reg.riseFloor then max 0 (rise - b.reg Reg.riseLimit * w) else 0
  let g := (b.reg Reg.gainAbs * e * 25 * w + b.reg Reg.gainRate * fast) / (100 * w : Nat)
  let b := ((b.setIreg (Reg.areaT s) t).setIreg (Reg.areaRate s) shown).setReg (Reg.targetLevel s) (min 56 g.toNat)
  let b := { b with therm := { b.therm with windows := b.therm.windows.put s ((t :: old).take (10 * w)) } }
  b.raiseThrottle s

/-- The device's highest working value and the warning level (R456). -/
def Block.judgeDevice (b : Block) : Block :=
  let top := hottest ((List.range 448).map (fun k => b.ireg (Reg.working k)))
  let at' := ((List.range 448).find? (fun k => b.ireg (Reg.working k) == top)).getD 0
  let b := ((b.setIreg Reg.tMax top).setReg Reg.tMaxSensor at').setReg Reg.suspects
    ((List.range 448).filter (fun k => b.reg (Reg.suspect k) == 1)).length
  if b.reg Reg.warnActive = 0 ∧ top ≥ b.ireg Reg.warn then
    ((b.setReg Reg.warnActive 1).count Reg.warnings 1).logEvent 0x0703 3 at' (unsignedOf 32 top)
  else if b.reg Reg.warnActive = 1 ∧ top ≤ b.ireg Reg.warn - 8 then
    (b.setReg Reg.warnActive 0).logEvent 0x0704 3 at' (unsignedOf 32 top)
  else b

/-- SAMPLE_IN_FORCE (R452, R454, R458). -/
def Block.sampleInForce (b : Block) (raws : List Int) : Block :=
  let b0 := b
  let b := { b with therm := { b.therm with pending := none } }
  let b := (List.range 448).foldl (Block.checkSensor b0 raws) b
  ((List.range 64).foldl Block.judgeArea b).judgeDevice

/-- SAMPLE_IN_FORCE. -/
def execSampleInForce (t : Nat) (s : State) : Host.Outcome State Fault Refusal :=
  s.answer true (s.blk.event t (fun b => match b.therm.pending with
    | some (due, raws) => if b.clock ≥ due then b.sampleInForce raws else b
    | none => b))

/-- THROTTLE_DECAY (R426): at a cricket tick each area's request falls by at most 1 towards its goal, and the ticks with a
request are counted. -/
def Block.decayArea (b : Block) (s : Nat) : Block :=
  let q := b.reg (Reg.skipReq s)
  let b := if q = 0 then b else b.count (Reg.throttleTicks s) 1
  if q > b.throttleGoal s then b.setReg (Reg.skipReq s) (q - 1) else b.raiseThrottle s

/-- THROTTLE_DECAY. -/
def execThrottleDecay (t : Nat) (s : State) : Host.Outcome State Fault Refusal :=
  s.answer true (s.blk.eventIf t (fun b => b.clock % tick == 0 && b.clk.lastTick != b.cricket)
    (fun b => (List.range 64).foldl Block.decayArea { b with clk := { b.clk with lastTick := b.cricket } }))

/-- Rise windows, throttle requests and a sample on its way are lost by a stop and by Hibernate (R460). -/
def Block.thermalAfresh (b : Block) : Block :=
  (List.range 64).foldl (fun b s => b.setReg (Reg.skipReq s) 0) { b with therm := {} }

/-! Writes (R457, R461). -/

/-- WARN, TARGET. -/
def Block.writeWarn (b : Block) (v : Nat) : Nat × Block :=
  b.guarded [badValue Reg.warn v, (signedOf 32 v < b.ireg Reg.target, Abort.condition)] (fun b => b.setReg Reg.warn v)
def Block.writeTarget (b : Block) (v : Nat) : Nat × Block :=
  b.guarded [badValue Reg.target v, (signedOf 32 v > b.ireg Reg.warn, Abort.condition)] (fun b => b.setReg Reg.target v)

/-- HOST_LEVEL. -/
def Block.writeHostLevel (b : Block) (s v : Nat) : Nat × Block :=
  b.guarded [badValue (Reg.hostLevel s) v, (b.fmode fnThermal == 0, Abort.mode)]
    (fun b => (b.setReg (Reg.hostLevel s) v).raiseThrottle s)

end Sys2Proof.Machine
end

