-- ==== Sys2Proof/Machine/Resets.lean ====
section
/-! DEFINITION. Stops, Hibernate and the resets (R434 to R448). -/

namespace Sys2Proof.Machine

open Sys2Proof

/-! Configuration begins (R357, R371). -/

/-- The CAN ports that work: enabled, and, before the global start, named by MGMT_PATHS (R402, R404, Table 11.12). -/
def Block.canUp (b : Block) : Block :=
  [0, 1].foldl (fun b p =>
    if b.reg (Reg.canEnable p) = 1 ∧ (b.started ∨ b.fuses.paths.testBit (p + 1)) then
      (if b.reg (Reg.busState p) = 3 then b.setReg (Reg.busState p) 0 else b)
    else b.setReg (Reg.busState p) 3) b

/-- The USB4 port trains while it is enabled and, before the global start, is the configuration source or named by MGMT_PATHS
(R371, Table 11.12). -/
def Block.usbUp (b : Block) : Block :=
  if b.reg Reg.usb4Enable = 1 ∧ b.reg Reg.usb4State = 0 ∧ (b.started ∨ b.reg Reg.modePins = 4 ∨ b.fuses.paths.testBit 0) then
    b.setReg Reg.usb4State 1
  else b

/-- The release of a reset: MODE sampled, and the configuration path waits for what the source brings first. -/
def Block.startConfig (b : Block) (mode : Nat) : Block :=
  let m := mode % 8
  let step := if m ≤ 1 then CfgStep.directory else if m ≤ 4 then CfgStep.firmware else CfgStep.none
  let b := { b with cfg := { step := step } }
  (b.setRegs [(Reg.modePins, m), (Reg.cfgState, if m ≤ 1 then 1 else 0), (Reg.failCode, if 5 < m then 16 else 0),
    (Reg.stewardsUp, 15)]).canUp.usbUp

/-! Stops (R437 to R440). -/

/-- Whether a lane is not in OFF, or waits to leave it. -/
def Block.laneOn (b : Block) (l : Nat) : Bool := b.laneState l != lOff || (b.laneAt l).waking

/-- Every transmitter enters electrical idle (R303). -/
def Block.lanesSilent (b : Block) : Block := ((List.range 512).filter b.laneOn).foldl (fun b l => b.emit .lane l [0]) b

/-- The USB4 port disconnects (R401). -/
def Block.usb4Drop (b : Block) : Block :=
  let b := if b.reg Reg.usb4State = 0 then b else b.count Reg.disconnects 1
  { b.setRegs [(Reg.usb4State, 0), (Reg.usb4Gen, 0), (Reg.pcieUp, 0), (Reg.msixEnabled, 0)] with
    lmp := { b.lmp with bme := false, masked := 2 ^ 64 - 1, pending := 0, vectors := [] } }

/-- Whether a rail with a retention level has fallen below it: VDD_FAB, VDD_CFG, VDD_MEM and VDD_BASE have one. -/
def retentionLost (rails : Nat) : Bool := bitsOf rails 11 8 != 0

/-- A stop declared; one declared while another is in force updates LAST_STOP_CAUSE only. `rails` shows the rails in range
in bits 7 to 0, and those below their retention level in bits 15 to 8. -/
def Block.declareStop (b : Block) (cause rails : Nat) : Block :=
  let b := (b.setReg Reg.railsInRange (rails % 256)).setReg Reg.lastStopCause cause
  match b.clk.stop with
  | some st =>
    { b with clk := { b.clk with stop := some { st with present := putBit st.present cause true, last := b.clk.now,
                                                        retentionLost := st.retentionLost || retentionLost rails } } }
  | none =>
    let b := (b.count Reg.stops 1).setReg Reg.lastStopTime b.ts
    let b := if cause = 3 then b.count Reg.supplyEvents 1 else b
    let b := if cause ≤ 2 then b.setReg Reg.rootLock 0 else b
    let b := b.usb4Drop.lanesSilent
    { b with clk := { b.clk with stop := some { present := 2 ^ cause, since := b.clk.now, last := b.clk.now,
                                                retentionLost := retentionLost rails } } }

/-- STOP (Table 13.6). The detector needs no clock; with PORn low there is none. -/
def execStop (cause rails t : Nat) (s : State) : Host.Outcome State Fault Refusal :=
  let b := s.blk.at t
  s.answer (decide (1 ≤ cause ∧ cause ≤ 4)) (if b.clk.mode == .por then b else b.declareStop cause rails)

/-- A trip: counted with its sensor, and a stop of cause 4; one raised during another stop updates LAST_STOP_CAUSE only (R462). -/
def Block.trip (b : Block) (sensor : Nat) : Block :=
  (if b.clk.stop.isSome then b else (b.count Reg.trips 1).setReg Reg.lastTripSensor sensor).declareStop 4 (b.reg Reg.railsInRange)

/-- THERMAL_TRIP (R462): the comparator of a sensor that is not suspect. -/
def execThermalTrip (sensor t : Nat) (s : State) : Host.Outcome State Fault Refusal :=
  let b := s.blk.at t
  s.answer (wfSensor sensor) (if b.clk.mode == .por || b.reg (Reg.suspect sensor) != 0 then b else b.trip sensor)

/-- The fabric clock started afresh: a soft start whose first edge is cricket tick `c` (R427). -/
def Block.softStart (b : Block) (c : Nat) : Block :=
  { b with clk := { b.clk with fabricOn := true, fabricOrigin := c, window := 0, softLevel := 56, level := [],
                               lastEdge := none } }

/-- Every link follows its lanes. -/
def Block.allLinks (b : Block) : Block :=
  ((List.range 512).filter b.startsLink).foldl (fun b lk => b.lanesMoved lk) b

/-- Lanes ask to be woken (R298, R303, R304). -/
def Block.wakeLanes (b : Block) (p : Nat → Bool) (keepRate : Bool) : Block :=
  ((List.range 512).filter p).foldl (fun b l => b.wakeLane l keepRate) b

/-- A commit that was undecided at a stop is aborted (R439); a participant that has replied leaves it to its coordinator. -/
def Block.abortUndecided (b : Block) : Block :=
  match b.commit.run with
  | some c => if c.applyAt.isNone ∧ b.reg Reg.partState = 0 then b.decideAbort c c.coord 0xFFFF Abort.condition else b
  | none => b

/-- What a device reset keeps of the registers (Table 13.8). -/
def keptRegs : List Nat :=
  [Reg.nodeId, Reg.nidStrap, Reg.stops, Reg.lastStopCause, Reg.lastStopTime, Reg.lastStopUs, Reg.railsInRange,
   Reg.supplyEvents, Reg.lastResetCause, Reg.deviceResets, Reg.remapGen, Reg.capacity, Reg.banksInService, Reg.logSeq,
   Reg.logLost, Reg.rootLock] ++
  (List.range 256).flatMap (fun r => [Reg.position r, Reg.retired r, Reg.portRoute r, Reg.portPath r]) ++
  (List.range 128).flatMap (fun k => [Reg.bankState k, Reg.repair k])

/-- A device reset takes effect (R442, R443): the always-on partition, the fuses, the health record and the log are kept;
memories are wiped, the stores cleared, and every other object returns to its default. -/
def Block.resetDevice (b : Block) (cause : Nat) : Block :=
  let kept := keptRegs.map (fun k => (k, b.reg k))
  let cleared := b.ctx.desc.map (fun e => (e.1, (e.2.gen + 1) % 256))
  let due := match b.commit.run with
    | some c => c.change.toList
    | none => []
  let n : Block :=
    { fuses := b.fuses, jtag := b.jtag, outbox := b.lanesSilent.outbox, free := b.free,
      clk := { mode := .deviceReset, now := b.clk.now, lost := b.clk.lost, stopped := b.clk.stopped, lastTick := b.clk.lastTick,
               resetCause := cause, fabricDiv := b.resetDiv, releaseAt := if cause = 1 then none else some (b.clk.now + us 10) },
      rgn := { slotUse := b.rgn.slotUse, kept := b.rgn.kept, twinLost := b.rgn.twinLost, heldOut := b.rgn.heldOut },
      commit := { waiting := due ++ b.commit.retry.map (·.1) ++ b.commit.waiting },
      mem := { drainSince := b.restartGrace (fun _ => true) }
      health := { log := b.health.log, steer := b.health.steer, exhausted := b.health.exhausted, dead := b.health.dead } }
  let n := cleared.foldl (fun n e =>
    { n with ctx := { n.ctx with desc := n.ctx.desc.set (fun _ => {}) e.1 { gen := e.2 } } }) (n.setRegs kept)
  ((n.count Reg.deviceResets 1).setReg Reg.lastResetCause cause).logEvent 0x0802 0 368 cause

/-- The rest of a restart without a reset: limits go on, the fabric starts softly and every lane begins again (R440). -/
def Block.resume (b : Block) : Block :=
  let b := ((b.setReg Reg.rootLock 1).setReg Reg.railsInRange 0xFF).thermalAfresh.abortUndecided
  let b := b.usbUp
  if b.clk.mode == .run && b.clk.fabricOn then
    let b := b.softStart (tickAt b.clock)
    let b := b.wakeLanes b.laneOn true
    b.allLinks
  else b

/-- STOP_RESTART: every cause has been clear for 1 ms. -/
def Block.stopRestart (b : Block) : Block :=
  match b.clk.stop with
  | none => b
  | some st =>
    let w := (b.clk.now - st.since) / tick
    let b := { b with clk := { b.clk with
      stop := none, lost := if st.present.testBit 1 then b.clk.lost - min b.clk.lost (ms 1) else b.clk.lost } }
    let b := b.setReg Reg.lastStopUs (min (Config.freeWithin (w - w / 20) (w + w / 20) b.free) (2 ^ 32 - 1))
    let b := { b with free := b.free + 1 }
    let b := b.logEvent 0x0801 0 368 (b.reg Reg.lastStopCause + b.reg Reg.lastStopUs * 2 ^ 32)
    if st.retentionLost then b.resetDevice 5 else b.resume

/-- STOP_RESTART. -/
def execStopRestart (t : Nat) (s : State) : Host.Outcome State Fault Refusal :=
  let b := s.blk.at t
  s.answer true (match b.clk.stop with
    | some st => if st.last + ms 1 ≤ b.clk.now then b.stopRestart else b
    | none => b)

/-! Hibernate (R434 to R436). -/

/-- Whether anything that R434 names is in progress. -/
def Block.hibernateBarred (b : Block) : Bool :=
  b.disp.runs.any (fun e => e.2.state != .free) || (List.range 32).any (fun m => b.reg (Reg.mslotState m) != 0) ||
    b.mem.dma.any (fun e => e.2.job.isSome) || b.mem.wipe.isSome || b.mig.adding.isSome ||
    (b.reg Reg.shootdownStatus).testBit 7 || b.commit.run.isSome || b.cfg.pkgJob.isSome || b.clk.dieReset.isSome

/-- The dies stop with their state in retention once every region in service sleeps. -/
def Block.hibernateRest (b : Block) : Block :=
  if b.clk.hibernating && (List.range 256).all (fun r => b.isRetired r || b.reg (Reg.powerState r) == 3) then
    let b := (b.thermalAfresh.count Reg.hibernations 1).setReg Reg.devicePower 2
    let b := if b.reg Reg.usb4State = 2 then b.setReg Reg.usb4State 3 else b
    { b with clk := { b.clk with mode := .hibernate, hibernating := false } }
  else b

/-- REGION_SLEEP. -/
def execRegionSleep (r t : Nat) (s : State) : Host.Outcome State Fault Refusal :=
  s.answer (wfRegion r) (s.blk.eventIf t (fun b => b.sleepDue r)
    (fun b => (b.regionSleeps r).refreshBorders.hibernateRest))

/-- Links down, lanes to Off, and every region to Sleep that may; for the others entry waits (R89, log 208). -/
def Block.enterHibernate (b : Block) : Block :=
  let b := ((List.range 512).filter (fun lk => b.startsLink lk && decide (kDown < b.linkState lk))).foldl
    (fun b lk => b.linkDown lk) b
  let b := ((List.range 512).filter (fun l => b.laneOn l || b.reg (Reg.laneEn l) == 1)).foldl (fun b l => b.laneOff l) b
  let b := ((List.range 256).filter (fun r => !b.isRetired r && b.maySleep r)).foldl Block.regionSleeps b
  let b := { b with wg := { b.wg with queue := [], named := [] }, rgn := { b.rgn with regionWake := [] } }
  ({ b with clk := { b.clk with hibernating := true } }.setReg Reg.devicePower 1).refreshBorders.hibernateRest

/-- A write of HIBERNATE. -/
def Block.writeHibernate (b : Block) (v : Nat) : Nat × Block :=
  b.guarded [badValue Reg.hibernate v, (b.hibernateBarred, Abort.condition)] Block.enterHibernate

/-- HIBERNATE: the write is answered before entry begins. -/
def execHibernate (v t : Nat) (s : State) : Host.Outcome State Fault Refusal :=
  s.answer true ((s.blk.at t).host (fun b => b.writeHibernate v))

/-- Whether a wake source is enabled and stands: a lane with WAKE_EN, an enabled CAN port, the sideband of a USB4 port that is not
disconnected (R401), the alarm at a cricket tick. -/
def Block.wakes (b : Block) (src unit : Nat) : Bool :=
  b.clk.mode == .hibernate && b.clk.stop.isNone && (b.reg Reg.wakeSources).testBit src &&
  (match src with
    | 0 => b.reg (Reg.wakeEn unit) == 1
    | 1 => b.reg (Reg.canEnable 0) == 1
    | 2 => b.reg (Reg.canEnable 1) == 1
    | 3 => b.reg Reg.usb4Enable == 1 && b.reg Reg.usb4State != 0
    | 5 => b.reg Reg.hibernateAlarm != 0 && decide (b.reg Reg.hibernateAlarm ≤ b.ts) && b.clock % tick == 0
    | _ => true)

/-- The device wakes: lanes with LANE_EN = 1 ask the governor (R436), and so does a lane whose signal detect woke it (R304); the USB4
link leaves its lowest power state (log 208). -/
def Block.wakeDevice (b : Block) (src unit : Nat) : Block :=
  let b := { b with clk := { b.clk with mode := .run } }
  let b := if b.reg Reg.usb4State = 3 then b.setReg Reg.usb4State 2 else b
  ((b.setRegs [(Reg.lastWakeSource, src), (Reg.devicePower, 0)]).wakeLanes
    (fun l => b.started && (b.reg (Reg.laneEn l) == 1 || (src == 0 && l == unit))) false).allLinks

/-- WAKE_SOURCE. -/
def execWakeSource (src unit t : Nat) (s : State) : Host.Outcome State Fault Refusal :=
  let b := s.blk.at t
  s.answer (decide (src ≤ 5) && (src != 0 || wfLane unit)) (if b.wakes src unit then b.wakeDevice src unit else b)

/-! Power-on and device reset (R441, R442). -/

/-- POWER_ON_RESET: the whole device, but its fuses. -/
def execPowerOnReset (s : State) : Host.Outcome State Fault Refusal :=
  let b := s.blk
  s.answer true { fuses := b.fuses, outbox := b.lanesSilent.outbox, free := b.free }

/-- The release of PORn: straps sampled, fuses sensed, the health state rebuilt, configuration begun. -/
def Block.porRelease (b : Block) (mode nid rails : Nat) : Block :=
  let b := { b with clk := { mode := .run, fabricDiv := b.resetDiv } }
  let b := b.setRegs [(Reg.nidStrap, nid % 4096), (Reg.nodeId, nid % 4096), (Reg.rootLock, 1), (Reg.railsInRange, rails % 256)]
  let b := b.rebuildHealth.startConfig mode
  if rails % 256 = 0xFF then b else (b.setReg Reg.usb4State 0).declareStop 3 rails

/-- POR_RELEASE. -/
def execPorRelease (mode nid rails : Nat) (s : State) : Host.Outcome State Fault Refusal :=
  s.answer (decide (mode < 8) && wfNode nid) (if s.blk.clk.mode == .por then s.blk.porRelease mode nid rails else s.blk)

/-- RSTN_LOW: low for 1 µs; it waits out a stop. -/
def execRstnLow (t : Nat) (s : State) : Host.Outcome State Fault Refusal :=
  let b := s.blk.at t
  s.answer true (if b.clk.mode == .por || b.clk.stop.isSome then b else b.resetDevice 1)

/-- Whether the device reset in force may be released: by RSTn at its rising edge, any other after 10 µs. -/
def Block.releaseDue (b : Block) : Bool :=
  b.clk.mode == .deviceReset && b.clk.stop.isNone && (match b.clk.releaseAt with
    | some t => decide (t ≤ b.clk.now)
    | none => true)

/-- The release of a device reset. -/
def Block.deviceRelease (b : Block) (mode : Nat) : Block :=
  let b := { b with clk := { b.clk with mode := .run, releaseAt := none }
                    mem := { b.mem with drainSince := b.restartGrace (fun _ => true) } }
  b.startConfig mode

/-- DEVICE_RESET_RELEASE. -/
def execDeviceResetRelease (mode t : Nat) (s : State) : Host.Outcome State Fault Refusal :=
  let b := s.blk.at t
  s.answer (decide (mode < 8)) (if b.releaseDue then b.deviceRelease mode else b)

/-- A write of DEVICE_RESET: 0xA5 resets the device 100 µs later. -/
def Block.writeDeviceReset (b : Block) (v : Nat) : Nat × Block :=
  b.guarded [badValue Reg.deviceReset v] (fun b =>
    if b.clk.resetDue.isSome then b else { b with clk := { b.clk with resetDue := some (b.run + us 100, 2) } })

/-- DEVICE_RESET. -/
def execDeviceReset (v t : Nat) (s : State) : Host.Outcome State Fault Refusal :=
  s.answer true ((s.blk.at t).host (fun b => b.writeDeviceReset v))

/-- RESET_TAKES_EFFECT. -/
def execResetTakesEffect (t : Nat) (s : State) : Host.Outcome State Fault Refusal :=
  s.answer true (s.blk.event t (fun b => match b.clk.resetDue with
    | some (at', c) => if at' ≤ b.run then b.resetDevice c else b
    | none => b))

/-! Die-level reset (R444 to R448). -/

/-- Context operations of a die that have not started end with SEAM_FENCE and change nothing; a prefetch in progress ends
with its shadow plane EMPTY (Table 13.10). -/
def Block.fenceOrders (b : Block) (d : Nat) (queued : Bool) : Block :=
  let here (p : Nat) : Bool := p / 136 == d
  let ops := if queued then b.ctx.engineQueue.look d ++ (b.ctx.waiting.filter (fun e => here e.1)).flatMap (·.2) else []
  let fills := (b.ctx.prefetch.filter (fun e => here e.1)).filterMap (·.2)
  let b := { b with ctx := { b.ctx with
    engineQueue := if queued then b.ctx.engineQueue.put d [] else b.ctx.engineQueue
    waiting := if queued then b.ctx.waiting.keep (fun p => !here p) else b.ctx.waiting
    prefetch := b.ctx.prefetch.keep (fun p => !here p) } }
  let b := fills.foldl (fun b o => b.emptyShadow o.region) b
  (ops ++ fills).foldl (fun b o => b.ctxDone o Status.seamFence) b

/-- Captures of a die's regions that have not started fail (Table 13.10). -/
def Block.fenceCaptures (b : Block) (d : Nat) : Block :=
  ((List.range 256).filter (fun r => dieOf r == d && b.ctx.captureDue.look r)).foldl (fun b r =>
    { b with ctx := { b.ctx with captureDue := b.ctx.captureDue.put r false } }.setReg (Reg.captureStatus r) 3) b

/-- Steps 1 and 2: the fence is raised at each seam of the die. -/
def Block.raiseFence (b : Block) (layer : Nat) : Block :=
  let b := { b with clk := { b.clk with dieReset := some { layer := layer, step := .draining, fenceAt := b.run, stepAt := b.run } } }
  let b := b.setRegs [(Reg.layerState layer, 1), (Reg.dieResetStatus, 0x80)]
  let b := if layer = 2 ∨ layer = 5 then (b.fenceOrders (layer / 5) true).fenceCaptures (layer / 5)
    else if layer = 3 ∨ layer = 4 then
      (b.fenceOrders (layer - 3) false).loseAttempts ((List.range 128).map (· + 128 * (layer - 3))) Status.seamFence
    else b
  ([0, 1].foldl (fun b d => b.startEngines d) b).refreshBorders

/-- A write of DIE_RESET. -/
def Block.writeDieReset (b : Block) (v : Nat) : Nat × Block :=
  b.guarded [badValue Reg.dieReset v, (b.clk.dieReset.isSome, Abort.busy), (b.commit.run.isSome, Abort.condition)]
    (fun b => if v = 0 then b.resetDevice 3 else b.raiseFence v)

/-- DIE_RESET. -/
def execDieReset (layer t : Nat) (s : State) : Host.Outcome State Fault Refusal :=
  s.answer true ((s.blk.at t).host (fun b => b.writeDieReset layer))

/-- Loads under way whose configuration path is fenced end with it, but for those of the die being reset (R17, R446). DESIGN CHOICE
(log 177): the target is left EMPTY, as R81 leaves that of any load that fails. -/
def Block.closeLoads (b : Block) (layer : Nat) : Block :=
  ([0, 1].filter (fun d => layer != 2 + 3 * d && b.fenced (cfgPath d))).foldl (fun b d =>
    ((b.ctx.running.look d).filter (fun o => o.kind == .load)).foldl (fun b o =>
      (b.clearSlot o.region o.phys o.slot).endEngine o Status.seamFence) b) b

/-- Transactions still open on a fenced path at the window edge complete with SEAM_FENCE, or with what comes before it (R29), and
the beats committed; `done` tells those whose completion is visible at that edge (R446). -/
def Block.closeFenced (b : Block) (done : Nat → Nat → Bool) : Block :=
  let one (b : Block) : Block := b.count Reg.fenceLeftovers 1
  let inward := (b.rgn.inPacket.filter (fun e => b.fenced (riserPath (dieOf e.1)))).filterMap (·.2)
  let b := inward.foldl (fun b q =>
    one (b.finishTransaction (dSrc q.sb) (dTag q.sb) Status.seamFence (q.taken / 2) 0 [])) b
  let b := { b with rgn := { b.rgn with inPacket := b.rgn.inPacket.keep (fun r => !b.fenced (riserPath (dieOf r))) } }
  let opens := b.ledger.filter (fun e => e.2.state == .opened && !done (e.1 / 1024) (e.1 % 1024))
  let b := opens.foldl (fun b e =>
    let ini := e.1 / 1024
    let tag := e.1 % 1024
    if b.onFence ini tag then
      let st := (Status.first (b.localCauses ini tag)).getD Status.seamFence
      (if st = Status.seamFence then one b else b).closeOpen ini tag st
    else b) b
  let b := (b.link.proxies.filter (fun p => p.op != opSnp && !p.waiting && p.refusal.isNone && (match p.flit with
      | some f => (match portKind (qStn f) (qPort f) with | some k => b.fenced k.path | none => false)
      | none => false))).foldl (fun b p => one (b.proxyEnd p Status.seamFence 0 0)) b
  { b with net := { b.net with acks := b.net.acks.filter (fun a => !b.fenced (tapPath (a.tap / 16))) } }

/-- The drains of a memory die go on after its reset with their grace periods afresh, and the next scan must find nothing (R165). -/
def Block.drainsAfresh (b : Block) (d : Nat) : Block :=
  { b with mem := { b.mem with drainSince := b.restartGrace (fun k => k / 64 == d) }
           mig := { b.mig with scanClean := b.mig.scanClean.filter (fun k => k / 64 != d) } }

/-- A memory die enters reset: its ports' caches and translations are lost, and so are its trackers. -/
def Block.resetMemory (b : Block) (d : Nat) : Block :=
  let b := { b with mem := { b.mem with caches := b.mem.caches.keep (fun k => k / 128 / 136 != d)
                                        tb := b.mem.tb.keep (fun p => p / 136 != d) } }.drainsAfresh d
  let lose (e : Nat × Option MigJob) : Nat × Option MigJob := (e.1, e.2.map (fun j =>
    if b.mslotSource e.1 = (b.node, (b.mslotSource e.1).2) ∧ (b.mslotSource e.1).2 / 2 ^ 14 = d then { j with tracker := none } else j))
  let b := { b with mig := { b.mig with jobs := b.mig.jobs.map lose } }
  { b with mig := { b.mig with trackers := b.mig.trackers.keep (fun k => k / 16 != d) } }.setReg Reg.patrolLine 0

/-- A configuration die enters reset: operations in progress end, and captures and ladybirds begin again. -/
def Block.resetConfig (b : Block) (d : Nat) : Block :=
  let ops := b.ctx.running.look d
  let b := { b with
    ctx := { b.ctx with running := b.ctx.running.put d []
                        captureTaken := b.ctx.captureTaken.keep (fun r => dieOf r != d) }
    clk := { b.clk with dieReset := b.clk.dieReset.map (fun (x : DieReset) => { x with targets := ops.map (fun (o : CtxOp) => (o.region, o.phys, o.slot)) }) } }
  let b := ops.foldl (fun b o => b.ctxDone o Status.seamFence) b
  let b := ((List.range 256).filter (fun r => dieOf r == d)).foldl (fun b r =>
    b.setRegs [(Reg.captureStatus r, 0), (Reg.captureSlot r, 0xFF), (Reg.captureTime r, 0), (Reg.captureData r, 0)]) b
  ((b.setLadybird d 0 {}).setLadybird d 1 {}).setReg (Reg.progress d) 0

/-- A logic die enters reset: its planes are blank and its shadow planes EMPTY. -/
def Block.resetLogic (b : Block) (d : Nat) : Block :=
  ((List.range 256).filter (fun r => dieOf r == d && !b.isRetired r)).foldl (fun b r =>
    let p := b.phys r
    let b := match b.ctx.writeBack.look p with
      | some s => { b with ctx := { b.ctx with writeBack := b.ctx.writeBack.put p none
                                               skipped := b.ctx.skipped.put (slotKey p s) true } }.loseState p s
      | none => b
    b.blankPlanes r) b

/-- DRAIN_WINDOW_END: leftovers complete, and the die enters reset. -/
def Block.drainWindowEnd (b : Block) (done : Nat → Nat → Bool) : Block :=
  match b.clk.dieReset with
  | none => b
  | some x =>
    let b := ((b.closeFenced done).closeLoads x.layer).abandonFenced
    let b := { b with clk := { b.clk with dieReset := some { x with step := .held, stepAt := b.run } } }.setReg
      (Reg.layerState x.layer) 3
    (if x.layer = 1 then b.resetMemory 0 else if x.layer = 6 then b.resetMemory 1
     else if x.layer = 2 then b.resetConfig 0 else if x.layer = 5 then b.resetConfig 1
     else b.resetLogic (x.layer - 3)).refreshBorders

/-- DRAIN_WINDOW_END. -/
def execDrainWindowEnd (t : Nat) (s : State) : Host.Outcome State Fault Refusal :=
  s.answer true (s.blk.eventIf t Block.windowDue (fun b => b.drainWindowEnd (s.completionSeen t)))

/-- Whether a die-level reset stands at a step, at least `d` root periods old. -/
def Block.dieAt (b : Block) (st : DieResetStep) (d : Nat) : Bool :=
  match b.clk.dieReset with
  | some x => x.step == st && decide (x.stepAt + d ≤ b.run)
  | none => false

/-- The next step of a die-level reset. -/
def Block.dieStep (b : Block) (st : DieResetStep) : Block :=
  { b with clk := { b.clk with dieReset := b.clk.dieReset.map (fun (x : DieReset) => { x with step := st, stepAt := b.run }) } }

/-- DIE_RELEASE. -/
def execDieRelease (t : Nat) (s : State) : Host.Outcome State Fault Refusal :=
  s.answer true (s.blk.eventIf t (fun b => b.dieAt .held (us (b.reg Reg.dieResetHoldUs)))
    (fun b => match b.clk.dieReset with
      | some x => (b.dieStep .released).setReg (Reg.layerState x.layer) 2
      | none => b))

/-- DIE_READY: the targets of the operations that the reset ended are cleared. -/
def execDieReady (t : Nat) (s : State) : Host.Outcome State Fault Refusal :=
  s.answer true (s.blk.eventIf t (fun b => b.dieAt .released (us 2))
    (fun b => match b.clk.dieReset with
      | some x => x.targets.foldl (fun b e => b.clearSlot e.1 e.2.1 e.2.2) (b.dieStep .ready)
      | none => b))

/-- FENCE_LOWER: the first cricket tick after the die is ready. -/
def Block.fenceLower (b : Block) : Block :=
  match b.clk.dieReset with
  | none => b
  | some x =>
    let b := { b with clk := { b.clk with dieReset := none } }.setRegs
      [(Reg.layerState x.layer, 0), (Reg.dieResetStatus, Status.ok)]
    let b := b.ctx.switches.foldl (fun b q => b.judgeSwitch q) b.deliverHeld
    let b := if x.layer = 1 then b.drainsAfresh 0 else if x.layer = 6 then b.drainsAfresh 1 else b
    b.retryHeld.refreshBorders

/-- FENCE_LOWER. -/
def execFenceLower (t : Nat) (s : State) : Host.Outcome State Fault Refusal :=
  s.answer true (s.blk.eventIf t (fun b => b.dieAt .ready 1 && b.clock % tick == 0) Block.fenceLower)

end Sys2Proof.Machine
end

