-- ==== Sys2Proof/Machine/View.lean ====
section
/-! DEFINITION. Reading the dictionary (R385, R386): the objects that show state held elsewhere than in the register file, and the
size of each object. A STR or DOM is the number whose byte 0 is its first. -/

namespace Sys2Proof.Machine

open Sys2Proof

/-- Values of w bits each, the first lowest. -/
def packed (w : Nat) (l : List Nat) : Nat := l.foldr (fun v a => v % 2 ^ w + 2 ^ w * a) 0

/-! Stack (Table 1.10). -/

/-- CLOCK_HZ of a layer: the networks' clock on the base die, the fabric clock on the logic dies, 1.2 GHz on the others; 0
while stopped. -/
def Block.clockHz (b : Block) (l : Nat) : Nat :=
  if !b.clocked || b.reg (Reg.layerState l) == 3 then 0
  else if l = 0 then 2400000000
  else if l = 3 ∨ l = 4 then (if b.clk.fabricOn then 28800000000 / b.clk.fabricDiv else 0)
  else 1200000000

/-- Groups of a seam with k spares in use. -/
def Block.groupsWith (b : Block) (seam k : Nat) : Nat :=
  tally (fun (e : Nat × SteerLatch) => e.1 % 8 == seam && b2n (e.2.word.testBit 7) + b2n (e.2.word.testBit 15) == k) b.health.steer

/-- FENCE of a seam: raised by a command or around a die being reset. -/
def Block.seamFenced (b : Block) (seam : Nat) : Bool :=
  b.net.fences.contains seam || (match b.fencedLayer with
    | some l => l == seam || l == seam + 1
    | none => false)

/-! Contexts and regions (Table 3.1, Tables 4.1, 4.2 and 4.12). -/

/-- A remap entry (Table 4.1); the position of a retired region is undefined: a free value. -/
def Block.remapEntry (b : Block) (r : Nat) : Nat :=
  if b.isRetired r then 2 ^ 15 + b2n (!b.twinOk r) * 2 ^ 14 + Config.freeValue (b.free + r) % 256
  else b2n (!b.twinOk r) * 2 ^ 14 + b.position r

/-- The code of a slot's use. -/
def SlotUse.code : SlotUse → Nat
  | .used => 0 | .spare => 1 | .retired => 2

/-- A slot state byte (Table 4.2). -/
def Block.slotByte (b : Block) (p : Nat) : Nat :=
  b2n (!b.rgn.twinLost.contains (p % 136)) * 4 + (b.slotUse p).code

/-- The region globals that count regions and slots. -/
def Block.regionGlobal (b : Block) (sub : Nat) : Nat :=
  let positions := List.range 136
  if sub = 1 then tally (fun r => !b.isRetired r) (List.range 256)
  else if sub = 2 then tally (fun q => b.isSpare q && b.isSpare (136 + q)) positions
  else if sub = 3 then tally (fun q => b.isSpare q != b.isSpare (136 + q) && (b.spareReady q || b.spareReady (136 + q))) positions
  else if sub = 4 then tally b.twinOk (List.range 128)
  else if sub = 7 then packed 16 ((List.range 256).map b.remapEntry)
  else packed 8 ((List.range 272).map b.slotByte)

/-! Memory (Table 5.8). -/

/-- FRAME_MAP: a frame is usable unless its bank is retired. -/
def Block.frameMap (b : Block) : Nat :=
  let gone := (List.range 128).filter b.bankRetired
  if gone = [] then 2 ^ 32768 - 1 else packed 1 ((List.range 32768).map (fun f => b2n (!gone.contains (bankOfFrame f))))

/-! Dispatch (Table 6.13). -/

/-- The runs that are in the table. -/
def Block.liveRuns (b : Block) : List (Nat × Run) := b.disp.runs.filter (fun e => e.2.state != .free)

/-- Whether a region holds an image of a kernel resident (R179, R192). -/
def Block.holdsKernel (b : Block) (r n : Nat) : Bool :=
  !b.isRetired r && (List.range 16).any (fun s =>
    let d := b.slotDesc (b.phys r) s
    d.state == .loaded && d.kernel == n && !(b.activeSlot r == some s && b.disp.stale.look r))

/-- DEPUTY. -/
def Block.deputyOf (b : Block) (k : Nat) : Nat :=
  match b.servant k with
  | some j => if j = k then 0xFF else j
  | none => 0xFF

/-- READY_BY_LEVEL, DELAYED and DEPUTY. -/
def Block.scarabView (b : Block) (k sub : Nat) : Nat :=
  if sub = 2 then packed 16 ((List.range 8).map (fun p => (b.readyList k p).length))
  else if sub = 3 then (b.scarab k).delay.length
  else b.deputyOf k

/-- SEL_LAST_ANCHOR, SEL_RUNS and SEL_RESIDENT. -/
def Block.kernelView (b : Block) (sub : Nat) : Nat :=
  let n := b.reg Reg.kernelSel
  if sub = 3 then (if b.disp.lastSet.look n = 0 then 0xFF else b.disp.lastSet.look n - 1)
  else if sub = 4 then tally (fun (e : Nat × Run) => e.2.kernel == n) b.liveRuns
  else tally (fun r => b.holdsKernel r n) (List.range 256)

/-- A run is counted in the queue of a region (R216): in its ready list, and anchored there by its set if it is bound, else by
its kernel's last set. -/
def Block.queuedAt (b : Block) (r : Nat) (x : Run) : Bool :=
  (x.state == .ready && b.disp.lastSet.look x.kernel == r + 1) || (x.state == .preempted && x.anchor == r)

/-- The ticks of an interval among the last 1,000. -/
def ticksIn (now lo hi : Nat) : Nat :=
  let first := now / tick + 1 - min (now / tick + 1) 1000
  let up (t : Nat) : Nat := (t + tick - 1) / tick
  min (up hi) (now / tick + 1) - max (up lo) first

/-- IX2_QDEPTH, IX2_WAIT_US and IX2_LOAD_PM (R216). -/
def Block.ix2View (b : Block) (r sub : Nat) : Nat :=
  if sub = 1 then tally (fun (e : Nat × Run) => b.queuedAt r e.2) b.disp.runs
  else if sub = 2 then
    (let w := b.disp.waits.look r
     if w = [] then 0 else min (sumOf w / w.length / tick) (2 ^ 32 - 1))
  else
    let open' := match b.disp.heldFrom.look r with
      | some t => [(t, b.run + 1)]
      | none => []
    min 1000 (sumOf ((open' ++ b.disp.heldPast.look r).map (fun e => ticksIn b.run e.1 e.2)))

/-- TRACE_LOST, TRACE_RING and STREAM_WRITTEN of the selected scarab. -/
def Block.traceView (b : Block) (sub : Nat) : Nat :=
  let x := b.scarab (b.reg Reg.traceSel)
  if sub = 4 then x.traceLost else if sub = 5 then packed 128 x.trace.reverse else x.streamed

/-! Migration (Tables 7.1 and 7.6). -/

/-- A heat record as Table 7.1 lays it out. -/
def Heat.word (h : Heat) : Nat := h.entry * 2 ^ 64 + h.la * 2 ^ 48 + h.lb * 2 ^ 32 + h.last

/-- POOL_MAP, POOL_FREE_MA and POOL_FREE_MB. -/
def Block.poolView (b : Block) (sub : Nat) : Nat :=
  if sub = 1 then maskOf b.mig.pool
  else tally (fun f => f / 2 ^ 14 == (if sub = 5 then 0 else 1)) b.mig.pool

/-- HEAT_USED and HEAT_TABLE. -/
def Block.heatView (b : Block) (k sub : Nat) : Nat :=
  if sub = 1 then tally (fun i => !(b.heatAt k i).free) (List.range 512)
  else packed 128 ((List.range 512).map (fun i => (b.heatAt k i).word))

/-! Networks (Tables 8.17 and 8.18). -/

/-- An entry of INITIATOR_MAP. -/
def Block.iniEntry (b : Block) (i : Nat) : Nat :=
  if 370 ≤ i ∨ (i < 256 ∧ b.isRetired i) then 0xFFFF else (b.iniPlace i).1 * 16 + (b.iniPlace i).2

/-- GATED, WAKES, the flits and beats forwarded and CREDIT_STALLS of a station (Table 8.17). -/
def Block.stationView (b : Block) (s sub : Nat) : Nat :=
  if sub = 2 then b2n (b.noc.gated.contains s)
  else if sub = 3 then min (b.noc.wakes.look s) (2 ^ 32 - 1)
  else if sub = 8 then min (b.noc.stalls.look s) (2 ^ 64 - 1)
  else min (b.noc.passed.look (4 * s + sub - 4)) (2 ^ 64 - 1)

/-- FENCED_PORTS of a station. -/
def Block.fencedPorts (b : Block) (s : Nat) : Nat :=
  maskOf ((List.range 9).filter (fun p => match portKind s p with
    | some k => b.portFenced s k
    | none => false))

/-! Lanes and links (Tables 9.11, 10.10 to 10.12). -/

/-- SSC_PPM, SSC_KHZ and OCTET_ACTIVE of the octet chosen. -/
def Block.octetView (b : Block) (sub : Nat) : Nat :=
  let o := b.reg Reg.octetSel
  if sub = 2 then b.link.sscPpm.look o
  else if sub = 3 then (b.link.sscKhz.look o).getD 33
  else maskOf ((List.range 8).filter (fun i => b.laneActive (8 * o + i)))

/-- WIDTH and CREDITS_NOW. -/
def Block.linkView (b : Block) (lk sub : Nat) : Nat :=
  if sub = 2 then b.linkWidth lk
  else
    let x := b.linkAt lk
    x.creditQ + x.creditW * 2 ^ 16 + x.creditK * 2 ^ 32

/-- Slots of an octet's receive buffer that hold containers: REQ and SNP containers and packets that wait for a proxy, and packets
being received. -/
def Block.rxUsed (b : Block) (o : Nat) : Nat :=
  let packet (p : Option RxPacket) : Nat := match p with | some p => p.containers | none => 0
  tally (fun (h : Nat × List Nat) => h.1 / 8 == o) b.link.rxHeld +
    tally (fun (h : Nat × Nat × List Nat) => decide (64 ≤ h.1) && (h.1 - 64) / 8 == o) b.link.heldSnp +
    sumOf ((b.link.rxStreams.filter (fun h => h.1 / 8 == o)).map (fun h => wContainers h.2.1 h.2.2.length)) +
    sumOf ((List.range 8).map (fun i => packet (b.linkAt (8 * o + i)).inW + packet (b.linkAt (8 * o + i)).inD))

/-- RXBUF_FREE, REPLAY_USED, EGRESS_OPEN and PROXY_OPEN. -/
def Block.bufferView (b : Block) (o sub : Nat) : Nat :=
  if sub = 3 then 8192 - min 8192 (b.rxUsed o)
  else if sub = 4 then sumOf ((List.range 8).map (fun i => (b.linkAt (8 * o + i)).replay.length))
  else if sub = 5 then b.egressOpen o
  else tally (fun (p : Proxy) => p.octet == o && p.op != opSnp) b.link.proxies

/-- The state of a node in NODE_STATUS (R349); the node reads its own ID as reachable (R356). -/
def Block.nodeState (b : Block) (n : Nat) : Nat :=
  if n == b.node then 1
  else if !(b.link.routes.look n).testBit 63 then 0
  else if b.link.lost.contains n then 3
  else if b.link.unreach.look n != 0 then 2
  else 1

/-- NODE_STATUS (R356, Table 10.12): two bits of each node that has a route, and of the node itself. -/
def Block.nodeStatus (b : Block) : Nat :=
  b.link.routes.foldl (fun w e => if e.1 == b.node then w else w + b.nodeState e.1 * 4 ^ e.1) (b.nodeState b.node * 4 ^ b.node)

/-! Configuration (Table 11.15). -/

/-- The trust objects: the device is CLOSED while an owner digest is programmed, ROLLBACK_COUNT is the number of
ROLLBACK fuses blown (R369). -/
def Block.trustView (b : Block) (sub : Nat) : Nat :=
  if sub = 1 then b2n b.fuses.closed
  else if sub ≤ 5 then (nthD b.fuses.owner (sub - 2) none).getD 0
  else if sub = 6 then b.fuses.revoked
  else if sub = 7 then popCount 64 b.fuses.rollback
  else if sub = 8 then b2n b.fuses.imageKey.isSome
  else b.fuses.paths

/-- UCODE_VERSIONS. -/
def Block.ucodeVersions (b : Block) : Nat :=
  packed 64 ((List.range 32).map (fun k => match b.cfg.ucode.look k with | some f => f.version | none => 0))

/-- ORDERING_CODE (Table 0.1), its first letter lowest. -/
def orderingCode (grade : Nat) : Nat :=
  packed 8 ([73, 68, 88, 55, 45, 71, 48 + grade, 45, 70, 53, 49, 56, 52, 45, 69])

/-- CHANNELS_BUSY. -/
def Block.channelsBusy (b : Block) : Nat :=
  maskOf ((List.range 64).filter (fun c => (b.mboxAt c).busy || (b.mboxAt c).ready))

/-! Clocks and wakes (Tables 13.11 and 13.12). -/

/-- SKIP_MAX of a station area. -/
def Block.skipMax (b : Block) (s : Nat) : Nat :=
  (((List.range 256).filter (fun r => !b.isRetired r && stationOf (b.phys r) == s)).map (fun r => b.clk.level.look r)).foldl max 0

/-- WG_QUEUED, the bounds of R432, and WG_QUEUE. -/
def Block.wakeView (b : Block) (sub : Nat) : Nat :=
  if sub = 9 then b.wg.queue.length
  else if sub = 12 then b.wakeBound 0
  else if sub = 13 then b.wakeBound 1
  else packed 128 (b.wakeQueue.map b.wakeWord)

/-! Health (Table 15.10). -/

/-- The groups that await the host. -/
def Block.pendingGroups (b : Block) : List Exhausted := b.health.exhausted.filter (fun x => !x.acted)

/-- LOG_WINDOW: 128 entries from LOG_CURSOR, or from the oldest held if that is later. -/
def Block.logView (b : Block) : Nat :=
  match b.health.log.getLast? with
  | none => 0
  | some old =>
    let cur := b.reg Reg.logCursor
    let past := (old.seq + 2 ^ 32 - cur) % 2 ^ 32
    let start := if past < 2 ^ 31 then old.seq else cur
    packed 256 ((List.range 128).map (fun i =>
      match b.health.log.find? (fun e => e.seq == (start + i) % 2 ^ 32) with
      | some e => e.word
      | none => 0))

/-- Entries of an initiator's ledger (Table 15.6). -/
def ledgerSize (i : Nat) : Nat :=
  if i < 256 then 128 else if i < 320 then 1024 else if i < 368 then 64 else if i = 368 then 1024 else 64

/-- The code of a ledger state. -/
def LedgerState.code : LedgerState → Nat
  | .free => 0 | .opened => 1 | .closed => 2

/-- A ledger entry as Table 15.7 lays it out. -/
def LedgerEntry.word (e : LedgerEntry) (ini tag : Nat) : Nat :=
  e.openTime * 2 ^ 192 + e.addr / 4 % 2 ^ 38 * 2 ^ 154 + e.node * 2 ^ 142 + e.dstStn * 2 ^ 135 + e.dstPort * 2 ^ 131 +
    e.op * 2 ^ 124 + e.status * 2 ^ 120 + e.beatsReq * 2 ^ 113 + e.beatsDone * 2 ^ 106 + e.state.code * 2 ^ 104 +
    tag * 2 ^ 94 + ini * 2 ^ 85

/-- An egress record in the layout of Table 15.7: the octet's station and port stand for its destination. -/
def Egress.word (e : Egress) : Nat :=
  LedgerEntry.word { state := .opened, openTime := e.openTime, addr := e.addr, node := e.node, dstStn := e.lk / 8, op := e.op,
                     beatsReq := e.asked, beatsDone := e.beats } e.src e.tag

/-- LEDGER_VIEW of the selected initiator, in tag order. -/
def Block.ledgerWords (b : Block) : Nat :=
  let i := b.reg Reg.ledgerSel
  if 256 ≤ i ∧ i < 320 then packed 256 ((b.link.egress.filter (fun e => e.lk / 8 == i - 256)).map Egress.word)
  else packed 256 ((List.range (ledgerSize i)).map (fun t =>
    if (b.ledgerAt i t).state = .free then 0 else (b.ledgerAt i t).word i t))

/-! The dictionary read. -/

/-- Objects of chapters 1 to 5 that show other state. DESIGN CHOICE (log 161): STEER_WORD reads 0 while STEER_GROUP lies beyond the
range of the seam chosen since. -/
def Block.viewLow (b : Block) (idx sub : Nat) : Option Nat :=
  let u := idx % 256
  if 0x2001 ≤ idx ∧ idx ≤ 0x2007 then
    (if sub = 3 then some (nthD b.fuses.dieStep (idx - 0x2001) 0) else if sub = 4 then some (b.clockHz (idx - 0x2001)) else none)
  else if 0x2010 ≤ idx ∧ idx ≤ 0x2015 then
    (let q := idx - 0x2010
     if sub = 2 ∨ sub = 3 then some (b.groupsWith q (sub - 1))
     else if sub = 4 then some (tally (fun (d : Nat × Nat) => d.1 == q) b.health.dead)
     else if sub = 5 then some (b2n (b.seamFenced q)) else none)
  else if idx = 0x2018 then
    (if sub = 3 then some (b.steering (b.reg Reg.steerSeam) (b.reg Reg.steerGroup)) else none)
  else if idx = 0x3000 then
    (if sub = 0 ∨ sub = 5 ∨ sub = 6 ∨ sub = 9 then none else some (b.regionGlobal sub))
  else if 0x3100 ≤ idx ∧ idx ≤ 0x31FF then (if sub = 4 then some (b2n (b.twinOk u)) else none)
  else if 0x3200 ≤ idx ∧ idx ≤ 0x32FF then
    (if 0x10 ≤ sub then some (b.ctx.maps.look (slotKey (b.phys u) (sub - 0x10))) else none)
  else if 0x3300 ≤ idx ∧ idx ≤ 0x33FF then
    (if 0x10 ≤ sub ∧ sub < 0x20 then some (b.descWord u (sub - 0x10)) else none)
  else if idx = 0x6000 then (if sub = 0x0A then some b.frameMap else none)
  else none

/-- Objects of chapters 6 to 8 that show other state. -/
def Block.viewMid (b : Block) (idx sub : Nat) : Option Nat :=
  if idx = 0x5000 then (if sub = 0x0C then some (b.disp.proposals.headD 0) else none)
  else if 0x5100 ≤ idx ∧ idx ≤ 0x511F then (if 2 ≤ sub ∧ sub ≤ 4 then some (b.scarabView (idx - 0x5100) sub) else none)
  else if idx = 0x5200 then (if 3 ≤ sub ∧ sub ≤ 5 then some (b.kernelView sub) else none)
  else if idx = 0x5300 then
    (if sub = 1 then some b.liveRuns.length
     else if sub = 3 then some ((b.runAt (b.reg Reg.runSel)).word b.run) else none)
  else if idx = 0x5400 then (if sub = 4 ∨ sub = 5 ∨ sub = 8 then some (b.traceView sub) else none)
  else if 0x5800 ≤ idx ∧ idx ≤ 0x58FF then (if 1 ≤ sub ∧ sub ≤ 3 then some (b.ix2View (idx - 0x5800) sub) else none)
  else if idx = 0x6300 then
    (if sub = 0x0A then some (tally (fun m => b.reg (Reg.mslotState m) != 0) (List.range 32)) else none)
  else if idx = 0x6301 then (if sub = 1 ∨ sub = 5 ∨ sub = 6 then some (b.poolView sub) else none)
  else if idx = 0x6303 then
    (if sub = 1 then some b.mig.proposals.length else if sub = 2 then some (b.mig.proposals.headD 0) else none)
  else if 0x6340 ≤ idx ∧ idx ≤ 0x635F then (if sub = 1 ∨ sub = 2 then some (b.heatView (idx - 0x6340) sub) else none)
  else if idx = 0xB000 then (if sub = 7 then some (packed 16 ((List.range 512).map b.iniEntry)) else none)
  else if 0xB040 ≤ idx ∧ idx ≤ 0xB081 then (if 2 ≤ sub ∧ sub ≤ 8 then some (b.stationView (idx - 0xB040) sub)
     else if sub = 9 then some (b.fencedPorts (idx - 0xB040)) else none)
  else if 0xB100 + 370 ≤ idx ∧ idx ≤ 0xB2FF then (if sub = 0 then none else some 0)
  else none

/-- Objects of chapters 9 to 12 that show other state. -/
def Block.viewHigh (b : Block) (idx sub : Nat) : Option Nat :=
  if idx = 0x4000 then (if sub = 2 then some (tally (fun l => b.laneState l == lUp) (List.range 512)) else none)
  else if idx = 0x4001 then (if 2 ≤ sub ∧ sub ≤ 4 then some (b.octetView sub) else none)
  else if 0x4100 ≤ idx ∧ idx ≤ 0x42FF then (if sub = 0x18 then some (b.testBitsNow (idx - 0x4100)) else none)
  else if 0x4400 ≤ idx ∧ idx ≤ 0x45FF then
    (if !b.startsLink (idx - 0x4400) then some 0
     else if sub = 2 ∨ sub = 0x0D then some (b.linkView (idx - 0x4400) sub) else none)
  else if 0x4600 ≤ idx ∧ idx ≤ 0x463F then (if 3 ≤ sub ∧ sub ≤ 6 then some (b.bufferView (idx - 0x4600) sub) else none)
  else if idx = 0x4800 then
    (if sub = 7 then some (b.link.routes.look (b.reg Reg.routeSel))
     else if sub = 8 then some (b.link.staged.look (b.reg Reg.routeSel))
     else if sub = 9 then some b.nodeStatus else none)
  else if idx = 0x4801 then
    (if sub = 4 then some b.swarmTs else if sub = 3 then some (b.slewTime.reg Reg.swarmOffset) else none)
  else if idx = 0x7001 then (if 1 ≤ sub ∧ sub ≤ 9 then some (b.trustView sub) else none)
  else if idx = 0x7002 then (if sub = 0x0D then some b.ucodeVersions else none)
  else if idx = 0x7003 then
    (if sub = 5 then some b.fuses.idPub else if sub = 6 then some (bytesVal b.fuses.cert) else none)
  else if idx = 0x1000 then
    (if sub = 3 then some (orderingCode b.fuses.grade) else if sub = 4 then some b.fuses.grade
     else if sub = 5 then some b.fuses.serial else if sub = 9 then some b.ts else none)
  else if idx = 0x1100 then (if sub = 3 then some b.channelsBusy else none)
  else none

/-- Objects of chapters 13 to 15 that show other state. -/
def Block.viewTop (b : Block) (idx sub : Nat) : Option Nat :=
  if idx = 0x8000 then (if sub = 0x0A then some b.cricket else none)
  else if 0x8100 ≤ idx ∧ idx ≤ 0x813F then (if sub = 2 then some (b.skipMax (idx - 0x8100)) else none)
  else if idx = 0x8200 then (if sub = 9 ∨ (12 ≤ sub ∧ sub ≤ 14) then some (b.wakeView sub) else none)
  else if 0x9100 ≤ idx ∧ idx ≤ 0x92BF then (if sub = 7 then some (b.fuses.calOffset.look (idx - 0x9100)) else none)
  else if idx = 0xA000 then (if sub = 0x0A then some b.fuses.health else none)
  else if idx = 0xA001 then
    (if sub = 6 then some (packed 64 ((b.pendingGroups.take 64).map (fun x => x.seam + x.row * 256 + x.group * 2 ^ 32))) else none)
  else if idx = 0xA020 then (if sub = 4 then some b.logView else none)
  else if idx = 0xA030 then (if sub = 3 then some b.ledgerWords else none)
  else none

/-- What an object reads as while its unit is in service. -/
def Block.liveValue (b : Block) (idx sub : Nat) : Nat :=
  match b.viewLow idx sub, b.viewMid idx sub, b.viewHigh idx sub, b.viewTop idx sub with
  | some v, _, _, _ => v
  | none, some v, _, _ => v
  | none, none, some v, _ => v
  | none, none, none, some v => v
  | none, none, none, none => b.reg (idx * 256 + sub)

/-- What an object reads as: an object of a retired region holds its value at retirement (R99, R128, R167, R274). -/
def Block.dictValue (b : Block) (idx sub : Nat) : Nat :=
  match b.rgn.kept.look (idx * 256 + sub) with
  | some v => v
  | none => b.liveValue idx sub

/-- Bytes of a number up to its highest that is not zero. -/
def byteLength (most v : Nat) : Nat := ((List.range most).filter (fun i => v / 256 ^ i != 0)).length

/-- The size of an object, in bytes (R386). -/
def Block.dictSize (b : Block) (r : ObjRow) (idx sub : Nat) : Nat :=
  let k := idx * 256 + sub
  if k = Reg.ledgerView then 32 * ledgerSize (b.reg Reg.ledgerSel)
  else match r.size with
    | .fixed n => n
    | .upTo n =>
      if k = Reg.fuseValue then b.cfg.fuseLen
      else if k = Reg.wgQueue then 16 * b.wg.queue.length
      else if k = Reg.bondPending then 8 * min 64 b.pendingGroups.length
      else if k = Reg.deviceCert then b.fuses.cert.length
      else byteLength n (b.dictValue idx sub)

/-- A read: an abort code, or the object's size and value (R385, R387). -/
def Block.dictRead (b : Block) (idx sub : Nat) : Nat ⊕ Nat × Nat :=
  match objRow idx sub with
  | none => .inl (if objIndex idx then Abort.noSub else Abort.noIndex)
  | some r => if r.acc = .wo then .inl Abort.writeOnly else .inr (b.dictSize r idx sub, b.dictValue idx sub)

end Sys2Proof.Machine
end

