-- ==== Sys2Proof/Machine/Dict.lean ====
section
/-! DEFINITION. Writing the dictionary (R385 to R387, R522): the checks that every write meets, what each object's chapter adds,
and what the write does. -/

namespace Sys2Proof.Machine

open Sys2Proof

/-! When the unit of an RWI object is idle (R9, R174, R217, R310, R356, R418, R420). -/

/-- Whether every link of an octet is DISABLED or DOWN. -/
def Block.octetQuiet (b : Block) (o : Nat) : Bool := (List.range 8).all (fun i => decide (b.linkState (8 * o + i) ≤ 1))

/-- Whether the unit that an RWI object belongs to is idle. -/
def Block.unitIdle (b : Block) (idx : Nat) : Bool :=
  if 0x6410 ≤ idx ∧ idx ≤ 0x641F then b.reg (Reg.dmaEnable (idx - 0x6410)) == 0
  else if idx = 0x5200 then b.liveRuns.isEmpty
  else if 0x5340 ≤ idx ∧ idx ≤ 0x537F then b.reg (Reg.enable (idx - 0x5340)) == 0
  else if idx = 0x5400 then b.reg Reg.traceEnable == 0
  else if idx = 0x4001 then (List.range 8).all (fun i => !b.laneActive (8 * b.reg Reg.octetSel + i))
  else if 0x4100 ≤ idx ∧ idx ≤ 0x42FF then b.laneState (idx - 0x4100) == lOff
  else if 0x4400 ≤ idx ∧ idx ≤ 0x45FF then decide (b.linkState (idx - 0x4400) ≤ 1)
  else if 0x4600 ≤ idx ∧ idx ≤ 0x463F then b.octetQuiet (idx - 0x4600)
  else if idx = 0x4800 then (List.range 64).all b.octetQuiet
  else if idx = 0x1120 ∨ idx = 0x1121 then b.reg (Reg.canEnable (idx - 0x1120)) == 0
  else if idx = 0x8000 then (List.range 256).all (fun r => (b.runOf r).isNone)
  else true

/-- Whether a commit holds a staging group locked (R410). -/
def Block.locked (b : Block) (group : Nat) : Bool :=
  match b.commit.run with
  | some c => c.groups.testBit group
  | none => false

/-- Whether a write would disable the transport that carries it (R418). -/
def cutsOff (via : Via) (k v : Nat) : Bool :=
  v == 0 && (match via with
    | .mailbox ch => decide (ch < 32) && k == Reg.usb4Enable
    | .can port _ => k == Reg.canEnable port
    | .settings => false)

/-- A write of a plain object: its row's checks and those of its chapter, then the register. -/
def Block.writeReg (b : Block) (k v : Nat) (more : List (Bool × Nat)) : Nat × Block :=
  b.guarded (badValue k v :: more) (fun b => b.setReg k v)

/-! Chapters 1, 3 to 5. -/

/-- A context object (Table 3.5). -/
def Block.writeContext (b : Block) (r sub k v : Nat) : Nat × Block :=
  if sub = 0x04 then b.writePinMask r v
  else if sub = 0x0A then b.writeCaptureReq r v
  else if sub = 0x27 then b.writeCmdOp r v
  else b.writeReg k v []

/-- A global memory object (Table 5.8). -/
def Block.writeMemory (b : Block) (sub k v : Nat) : Nat × Block :=
  if sub = 0x0B then
    b.guarded [(!v.testBit 31 && decide (bitsOf v 14 0 > 127), Abort.range), badValue k v] (fun b => b.setReg k v)
  else if sub = 0x0C then b.writeWipeCmd v
  else if sub = 0x0F then b.writeShootdown v
  else if sub = 0x11 then b.writeRetireBank v
  else b.writeReg k v []

/-- An object of a DMA channel (Table 5.14). -/
def Block.writeDma (b : Block) (c sub k v : Nat) : Nat × Block :=
  if sub = 0x01 then b.writeDmaEnable c v else if sub = 0x09 then b.writeDmaCmd c v else b.writeReg k v []

/-- Objects of chapters 1 and 3 to 5. -/
def Block.writeLow (b : Block) (idx sub k v : Nat) : Option (Nat × Block) :=
  let u := idx % 256
  if idx = 0x2018 then
    (if sub = 2 then some (b.writeReg k v [(decide (v ≥ seamGroups (b.reg Reg.steerSeam)), Abort.range)]) else none)
  else if 0x3300 ≤ idx ∧ idx ≤ 0x33FF then some (b.writeContext u sub k v)
  else if idx = 0x3000 then
    (if sub = 6 then some (b.writeReg k v [(decide (v < b.reg Reg.idleNapUs), Abort.range)]) else none)
  else if 0x3100 ≤ idx ∧ idx ≤ 0x31FF then (if sub = 0x0F then some (b.writeRegionReset u v) else none)
  else if 0x3200 ≤ idx ∧ idx ≤ 0x32FF then (if 0x10 ≤ sub then some (b.writeBorderMap u (sub - 0x10) v) else none)
  else if idx = 0x6000 then some (b.writeMemory sub k v)
  else if 0x6100 ≤ idx ∧ idx ≤ 0x617F then (if sub = 0x0A then some (b.writeCounterClear (idx - 0x6100) v) else none)
  else if 0x6410 ≤ idx ∧ idx ≤ 0x641F then some (b.writeDma (idx - 0x6410) sub k v)
  else none

/-! Chapters 6 to 8. -/

/-- Whether an entry of the stream route table has a nonzero reserved bit (Table 6.8): [61:56] and [5:0] always, [43:40] for
an address; [29:28] and [43:30] are fields of KIND 0b01. -/
def routeReserved (e : Nat) : Bool :=
  bitsOf e 61 56 != 0 || bitsOf e 5 0 != 0 || (bitsOf e 63 62 == 2 && bitsOf e 43 40 != 0)

/-- ROUTE_TABLE (Table 6.8, R387): any entry with a nonzero reserved bit refuses the write. -/
def Block.writeRouteTable (b : Block) (k v : Nat) : Nat × Block :=
  b.writeReg k v [((List.range 1024).any (fun i => routeReserved (bitsOf v (64 * i + 63) (64 * i))), Abort.value)]

/-- ENABLE of a ring pair (R182): both rings, at their sizes, lie wholly within MA or within MB. -/
def Block.writeRingEnable (b : Block) (n k v : Nat) : Nat × Block :=
  b.writeReg k v [(v == 1 && !(withinDie (b.reg (Reg.sqBase n)) (64 * 2 ^ b.reg (Reg.sqLog2 n)) &&
    withinDie (b.reg (Reg.cqBase n)) (32 * 2 ^ b.reg (Reg.cqLog2 n))), Abort.condition)]

/-- Objects of chapters 6 to 8. -/
def Block.writeMid (b : Block) (idx sub k v : Nat) : Option (Nat × Block) :=
  if idx = 0x5000 then (if sub = 0x0D then some (b.writeProposalPop v) else none)
  else if idx = 0x5001 then (if sub = 4 then some (b.writeHcmdGo v) else none)
  else if 0x5100 ≤ idx ∧ idx ≤ 0x511F then (if sub = 8 then some (b.writeControl (idx - 0x5100) v) else none)
  else if idx = 0x5200 then (if sub = 6 then some (b.writeKernelUpdate v) else none)
  else if idx = 0x5300 then (if sub = 4 then some (b.writeRunAbort v) else if sub = 5 then some (b.writeRouteTable k v) else none)
  else if 0x5340 ≤ idx ∧ idx ≤ 0x537F then (if sub = 1 then some (b.writeRingEnable (idx - 0x5340) k v) else none)
  else if idx = 0x6301 then (if sub = 3 then some (b.writePoolCmd v) else none)
  else if idx = 0x6302 then (if sub = 5 then some (b.writeHmigGo v) else if sub = 8 then some (b.writeHmigCancel v) else none)
  else if idx = 0x6303 then (if sub = 3 then some (b.writePropPop v) else none)
  else if idx = 0xB010 then (if sub = 4 then some (b.writeStatsClear v) else none)
  else none

/-! Chapters 9 and 10. -/

/-- The spread of the octet chosen (R305). -/
def Block.writeOctet (b : Block) (sub k v : Nat) : Nat × Block :=
  let o := b.reg Reg.octetSel
  if sub = 2 then b.guarded [badValue k v] (fun b => { b with link := { b.link with sscPpm := b.link.sscPpm.put o v } })
  else if sub = 3 then
    b.guarded [badValue k v] (fun b =>
      { b with link := { b.link with sscKhz := b.link.sscKhz.put o (if v = 33 then none else some v) } })
  else b.writeReg k v []

/-- An object of a lane (R311). -/
def Block.writeLane (b : Block) (l sub k v : Nat) : Nat × Block :=
  let hw := (b.fmode fnTraining == 0, Abort.mode)
  if sub = 0x01 then b.writeLaneEn l v
  else if sub = 0x03 then b.writeReg k v [(decide (v > b.reg (Reg.rateMin l)), Abort.range)]
  else if sub = 0x04 then b.writeReg k v [(decide (v < b.reg (Reg.rateMax l)), Abort.range)]
  else if sub = 0x0B then b.writeReg k v [hw, (decide (v + b.reg (Reg.txPost l) > 28), Abort.condition)]
  else if sub = 0x0C then b.writeReg k v [hw, (decide (b.reg (Reg.txPre l) + v > 28), Abort.condition)]
  else if sub = 0x15 then b.writeLaneCmd l v
  else if sub = 0x1E then b.writeEyeGo l v
  else b.writeReg k v []

/-- The allocations of a link (Table 10.10). -/
def allocationSubs : List Nat := [6, 7, 8, 9, 10, 11]

/-- The sum of the allocations of an octet's links, with register `k` taken as `v`. -/
def Block.allocated (b : Block) (o k v : Nat) : Nat :=
  sumOf (((List.range 8).filter (fun i => b.startsLink (8 * o + i))).map (fun i =>
    sumOf (allocationSubs.map (fun s =>
      let q := (0x4400 + 8 * o + i) * 256 + s
      if q = k then v else b.reg q))))

/-- An object of a link (R328, R356). -/
def Block.writeLink (b : Block) (lk sub k v : Nat) : Nat × Block :=
  if !b.startsLink lk then b.guarded [badValue k v, (true, Abort.condition)] id
  else if sub = 0x0C then b.writeFlush false lk v
  else if allocationSubs.contains sub then b.writeReg k v [(decide (b.allocated (lk / 8) k v > 8192), Abort.condition)]
  else b.writeReg k v []

/-- Whether a layout keeps the rule of R312: a link starts at lane 0, each width is 1, 2, 4 or 8, and each first lane is a
multiple of its width. -/
def layoutRight (v : Nat) : Bool :=
  let starts := (List.range 8).filter (fun i => v.testBit i)
  v.testBit 0 && decide (v < 256) && starts.all (fun i =>
    let next := ((List.range 8).filter (fun j => decide (i < j) && v.testBit j)).headD 8
    [1, 2, 4, 8].contains (next - i) && i % (next - i) == 0)

/-- The allocations of a link of width `w` that a layout makes anew: the defaults, scaled by w/8. -/
def Block.defaultAllocations (b : Block) (lk w : Nat) : Block :=
  b.setRegs (allocationSubs.map (fun s =>
    ((0x4400 + lk) * 256 + s, regDefault b.fuses.grade ((0x4400 + lk) * 256 + s) * w / 8)))

/-- The links of an octet's new layout: links that end leave nothing behind, links that begin have their defaults. -/
def Block.relayout (b : Block) (o v : Nat) : Block :=
  let old := (List.range 8).map (fun i => if b.startsLink (8 * o + i) then b.linkWidth (8 * o + i) else 0)
  let b := b.setReg (Reg.linkLayout o) v
  (List.range 8).foldl (fun b i =>
    let lk := 8 * o + i
    if b.startsLink lk && b.linkWidth lk == nthD old i 0 then b
    else
      let b := (b.setLink lk {}).setReg (Reg.linkState lk) 0
      if b.startsLink lk then b.defaultAllocations lk (b.linkWidth lk) else b) b

/-- The lanes of a link that run at different rates begin again at a common one (R277; DEDUCED, log 185). -/
def Block.joinRates (b : Block) (lk : Nat) : Block :=
  let rates := ((b.lanesOf lk).filter (fun l => b.laneState l != lOff)).map (fun l => b.reg (Reg.rate l))
  if rates.all (· == rates.headD 0) then b else b.beginAll lk (b.linkRateMax lk) (fun _ => false)

/-- LINK_LAYOUT (R312). -/
def Block.setLayout (b : Block) (o v : Nat) : Block :=
  let b := b.relayout o v
  let b := ((List.range 8).filter (fun i => b.startsLink (8 * o + i))).foldl (fun b i => b.joinRates (8 * o + i)) b
  (if b.started then ((List.range 8).filter (fun i => b.startsLink (8 * o + i))).foldl (fun b i => b.lanesMoved (8 * o + i)) b
   else b).routesChanged

/-- A route entry staged for the node chosen: CUR is ignored, and a reserved bit is refused (Table 10.8). -/
def Block.writeRouteStaged (b : Block) (v : Nat) : Nat × Block :=
  b.guarded [badValue Reg.routeStaged v, (bitsOf v 62 42 != 0, Abort.value), (b.locked 1, Abort.stagingLocked)] (fun b =>
    { b with link := { b.link with staged := b.link.staged.put (b.reg Reg.routeSel) (putBits v 41 40 0) } })

/-- TIME_PARENT (R351, R352): a root keeps its offset; a child acquires time from its new parent. -/
def Block.writeTimeParent (b : Block) (v : Nat) : Nat × Block :=
  b.guarded [badValue Reg.timeParent v] (fun b =>
    let b := b.slewTime
    { b.setRegs [(Reg.timeParent, v), (Reg.timeState, if v = 0xFFFF then 0 else if b.linkState v = kActive then 1 else 3)] with
      link := { b.link with time := { b.link.time with sent := none, acquired := false, slew := 0 } } })

/-- Objects of chapters 9 and 10. -/
def Block.writeHigh (b : Block) (idx sub k v : Nat) : Option (Nat × Block) :=
  if idx = 0x4001 then some (b.writeOctet sub k v)
  else if 0x4100 ≤ idx ∧ idx ≤ 0x42FF then some (b.writeLane (idx - 0x4100) sub k v)
  else if 0x4400 ≤ idx ∧ idx ≤ 0x45FF then some (b.writeLink (idx - 0x4400) sub k v)
  else if 0x4600 ≤ idx ∧ idx ≤ 0x463F then
    (if sub = 1 then some (b.guarded [badValue k v, (!layoutRight v, Abort.range),
       (decide ((b.relayout (idx - 0x4600) v).allocated (idx - 0x4600) 0 0 > 8192), Abort.condition)] (fun b => b.setLayout (idx - 0x4600) v))
     else none)
  else if idx = 0x4800 then
    (if sub = 1 then some (b.writeNodeId v) else if sub = 8 then some (b.writeRouteStaged v) else none)
  else if idx = 0x4801 then (if sub = 1 then some (b.writeTimeParent v) else none)
  else none

/-! Chapters 11 and 12. -/

/-- CAN_ENABLE (R404): a disabled port is recessive and forgets its error counts. -/
def Block.writeCanEnable (b : Block) (via : Via) (p v : Nat) : Nat × Block :=
  b.guarded [badValue (Reg.canEnable p) v, (cutsOff via (Reg.canEnable p) v, Abort.transport)] (fun b =>
    let b := (b.setReg (Reg.canEnable p) v).canUp
    if v = 0 then b.setRegs [(Reg.tec p, 0), (Reg.rec p, 0)] else b)

/-- USB4_ENABLE (R401): 0 disconnects the port. -/
def Block.writeUsb4Enable (b : Block) (via : Via) (v : Nat) : Nat × Block :=
  b.guarded [badValue Reg.usb4Enable v, (cutsOff via Reg.usb4Enable v, Abort.transport)] (fun b =>
    let b := b.setReg Reg.usb4Enable v
    if v = 0 then b.usb4Drop else b.usbUp)

/-- MODE_STAGED (R406). -/
def Block.writeModeStaged (b : Block) (k v : Nat) : Nat × Block := b.writeReg k v [(b.locked 0, Abort.stagingLocked)]

/-- A commit object (Table 12.16): locked while a commit is in progress. -/
def Block.writeCommitObject (b : Block) (sub k v : Nat) : Nat × Block :=
  let busy := (b.reg Reg.commitState == 1 || b.reg Reg.commitState == 2, Abort.commitBusy)
  if sub = 1 then b.writeReg k v [(decide (v ≤ b.reg Reg.lastEpoch), Abort.range), busy]
  else if sub = 5 then b.writeCommitGo v
  else if sub ≤ 4 ∨ (0x0D ≤ sub ∧ sub ≤ 0x10) then b.writeReg k v [busy]
  else b.writeReg k v []

/-- Objects of chapters 11 and 12. -/
def Block.writeTrust (b : Block) (via : Via) (idx sub len k v : Nat) : Option (Nat × Block) :=
  if idx = 0x7001 then
    (if sub = 0x0C then
       some (b.guarded [badValue k v] (fun b => { b.setReg k v with cfg := { b.cfg with fuseLen := len } }))
     else if sub = 0x0E then some (b.writeFuseGo v) else none)
  else if idx = 0x7002 then (if sub = 3 then some (b.writePkgCmd v) else none)
  else if idx = 0x7003 then (if sub = 2 then some (b.writeAttestGo v) else none)
  else if idx = 0x1110 then some (b.writeUsb4Enable via v)
  else if idx = 0x1120 ∨ idx = 0x1121 then (if sub = 1 then some (b.writeCanEnable via (idx - 0x1120) v) else none)
  else if idx = 0x1201 then some (b.writeModeStaged k v)
  else if idx = 0x1240 then some (b.writeCommitObject sub k v)
  else if idx = 0x1241 then some (b.writeResolve v)
  else none

/-! Chapters 13 to 15. -/

/-- A clock object (R420, R422): AUXCLK follows its settings at the next cricket tick. -/
def Block.writeClock (b : Block) (sub k v : Nat) : Nat × Block :=
  if sub = 4 then b.writeFabricDiv v
  else if 7 ≤ sub then
    b.guarded [badValue k v] (fun b =>
      let b := b.setReg k v
      { b with clk := { b.clk with
        auxDue := some (tickAfter b.clock, b.reg Reg.auxclkDiv, b.reg Reg.auxclkSscPpm, b.reg Reg.auxclkSscKhz) } })
  else b.writeReg k v []

/-- The buckets counted up to the edge now, before a change of their rates. -/
def Block.countTokens (b : Block) : Block :=
  { b with wg := { b.wg with tokensFab := b.tokens 0, tokensLane := b.tokens 1, countedAt := b.clock / refclk } }

/-- A wake governor object (R431, R433). -/
def Block.writeGovernor (b : Block) (sub k v : Nat) : Nat × Block :=
  if sub = 0x0F then b.writeWgGrant v else b.guarded [badValue k v] (fun b => b.countTokens.setReg k v)

/-- BOND_GROUP and BOND_CMD; a TEST is made by the visit of its group. -/
def Block.writeBond (b : Block) (sub k v : Nat) : Nat × Block :=
  if sub = 2 then b.writeReg k v [(decide (v ≥ seamGroups (b.reg Reg.bondSeam)), Abort.range)]
  else if sub = 3 then
    (let a := checkValue k v
     if a ≠ Abort.none then (a, b)
     else if v = 1 then
       b.guarded [(b.health.bondTest.isSome, Abort.busy),
                  (decide (b.reg Reg.bondGroup ≥ seamGroups (b.reg Reg.bondSeam)), Abort.condition)] (fun b =>
         { b.setReg Reg.bondStatus 128 with
           health := { b.health with bondTest := some (b.reg Reg.bondSeam, b.reg Reg.bondGroup) } })
     else b.writeBondRetire)
  else b.writeReg k v []

/-- Objects of chapters 13 to 15. -/
def Block.writeTop (b : Block) (idx sub k v : Nat) : Option (Nat × Block) :=
  if idx = 0x8000 then some (b.writeClock sub k v)
  else if idx = 0x8200 then some (b.writeGovernor sub k v)
  else if idx = 0x8300 then (if sub = 1 then some (b.writeHibernate v) else none)
  else if idx = 0x8400 then
    (if sub = 3 then some (b.writeDeviceReset v) else if sub = 4 then some (b.writeDieReset v) else none)
  else if idx = 0x9000 then (if sub = 2 then some (b.writeWarn v) else if sub = 3 then some (b.writeTarget v) else none)
  else if 0x9040 ≤ idx ∧ idx ≤ 0x907F then some (b.writeHostLevel (idx - 0x9040) v)
  else if idx = 0xA001 then some (b.writeBond sub k v)
  else if idx = 0xA010 ∨ idx = 0xA011 then some (b.writeLatched k (idx - 0xA010) (sub - 2) v)
  else if idx = 0xA020 then (if sub = 7 then some (b.writeLogClear v) else none)
  else if idx = 0xA040 then some (b.writeFwSwitch v)
  else none

/-! The write. -/

/-- The write of an object that may be written, its size right: steps 3 to 12 of R387, then the effect. -/
def Block.writeObject (b : Block) (via : Via) (idx sub len v : Nat) : Nat × Block :=
  let k := idx * 256 + sub
  match b.writeLow idx sub k v, b.writeMid idx sub k v with
  | some r, _ => r
  | none, some r => r
  | none, none => match b.writeHigh idx sub k v, b.writeTrust via idx sub len k v, b.writeTop idx sub k v with
    | some r, _, _ => r
    | none, some r, _ => r
    | none, none, some r => r
    | none, none, none => b.writeReg k v []

/-- The abort of steps 1 and 2 of R387, judged when the transfer opens: whether the object is there, may be written, and has
that size; 0 when all is well. -/
def Block.openWrite (b : Block) (idx sub len : Nat) : Nat :=
  match objRow idx sub with
  | none => if objIndex idx then Abort.noSub else Abort.noIndex
  | some r =>
    Abort.first [(r.acc == .ro || r.acc == .cst, Abort.readOnly), (r.acc == .rwi && !b.unitIdle idx, Abort.notIdle),
      (match r.size with | .fixed n => len != n | .upTo _ => false, Abort.length),
      (match r.size with | .fixed _ => false | .upTo n => decide (len > n), Abort.tooLarge)]

/-- A dictionary write of `len` bytes (R386, R387): its abort code, 0 when done, and the block. -/
def Block.dictWrite (b : Block) (via : Via) (idx sub len v : Nat) : Nat × Block :=
  let a := b.openWrite idx sub len
  if a = Abort.none then b.writeObject via idx sub len (v % 256 ^ len) else (a, b)

/-- A dictionary write whose transport has checked it at the opening (R387). -/
def execRegisterWrite (via : Via) (idx sub len val : Nat) (s : State) : Host.Outcome State Fault Refusal :=
  s.answer (wfVia via) (s.blk.host (fun b => b.dictWrite via idx sub len val))

/-- USB4_ENABLE. -/
def execUsb4Enable (via : Via) (v : Nat) (s : State) : Host.Outcome State Fault Refusal :=
  s.answer (wfVia via) (s.blk.host (fun b => b.writeUsb4Enable via v))

end Sys2Proof.Machine
end

