-- ==== Sys2Proof/Machine/Flags.lean ====
section
/-! DEFINITION. The levels of the status and control outputs, as they follow from the state (R375, R377, R401, R438, R440, R456,
Table 16.3). -/

namespace Sys2Proof.Machine

open Sys2Proof

/-- DONE is high: the design has started, and no reset since (R377). -/
def Block.doneHigh (b : Block) : Bool := b.started

/-- A stop is in force (R438). -/
def Block.halted (b : Block) : Bool := b.clk.stop.isSome

/-- FAULTn is asserted: in a stop, and after a failed configuration (R373, R438). -/
def Block.faultAsserted (b : Block) : Bool := b.halted || b.cfg.fault

/-- ALERTn is asserted: in a stop, and while the warning of R456 is active. -/
def Block.alertAsserted (b : Block) : Bool := b.halted || b.reg Reg.warnActive == 1

/-- The CAN outputs are recessive: in a stop, and while the port is bus-off or disabled (R404, R438). -/
def Block.canRecessive (b : Block) (p : Nat) : Bool := b.halted || decide (2 ≤ b.reg (Reg.busState p))

/-- AUXCLK runs: not in a stop, and not in Hibernate (R422, R438, Table 16.3). -/
def Block.auxRuns (b : Block) : Bool := !b.halted && b.clk.mode != .por && b.clk.mode != .hibernate

/-- The flash chip selects are driven: only while a self-read loads the device; otherwise they are high (Table 11.12). -/
def Block.flashSelected (b : Block) : Bool := decide (b.reg Reg.modePins ≤ 1) && b.reg Reg.cfgState == 1

end Sys2Proof.Machine
end

