-- ==== Sys2Proof/Machine/Boot.lean ====
section
/-! DEFINITION. Configuration (R357 to R377): the flash directory, the packages in their order, what a failure undoes, the settings,
the boot runs and the global start. -/

namespace Sys2Proof.Machine

open Sys2Proof

/-! Pins and sources. -/

/-- JTAG instructions that control pins (Table 16.17). -/
def pinInstructions : List Nat := [0x00, 0x04, 0x05, 0x0C, 0x0D]

/-- Whether such an instruction is in force (R518): only while CFG_STATE is UNCONFIGURED or FAILED. -/
def Block.pinsHeld (b : Block) : Bool :=
  pinInstructions.contains b.jtag.ir && (b.reg Reg.cfgState == 0 || b.reg Reg.cfgState == 4)

/-- Whether the configuration is in a self-read mode, or takes a push stream. -/
def Block.selfRead (b : Block) : Bool := decide (b.reg Reg.modePins ≤ 1)
def Block.pushes (b : Block) : Bool := decide (2 ≤ b.reg Reg.modePins ∧ b.reg Reg.modePins ≤ 4)

/-- The control pins of the device, as `Output` numbers them. -/
abbrev pinDone : Nat := 0
abbrev pinFault : Nat := 1
abbrev pinAlert : Nat := 2

/-- The block with its configuration at a step, no package in progress. -/
def Block.toStep (b : Block) (st : CfgStep) (second : Bool) : Block :=
  let b := { b with cfg := { b.cfg with step := st, second := second, pkg := none, unit := [], checking := false } }
  if b.pushes then b.setReg Reg.pushNext 0 else b

/-! Failure (R371 to R373). -/

/-- Configuration fails: CFG_STATE is FAILED and FAULTn is asserted; a push mode then waits for a device image. -/
def Block.cfgFailed (b : Block) : Block :=
  let b := (b.setReg Reg.cfgState 4).toStep (if b.pushes then .image else .none) false
  { b with cfg := { b.cfg with fault := true } }.emit .pin pinFault [0]

/-- Whether a register is an object that can be written, or follows from one: what R373 returns to its default. NODE_ID's is the
strap. -/
def settable (k : Nat) : Bool :=
  k == Reg.fabricHz || (k != Reg.nodeId && (match objRow (k / 256) (k % 256) with
    | some r => r.acc == .rw || r.acc == .rwi || r.acc == .wo
    | none => false))

/-- The objects at their defaults (R373), with what they command: the ports that settings closed open again. -/
def Block.objectsDefault (b : Block) : Block :=
  ({ b with
    regs := b.regs.filter (fun e => !settable e.1)
    clk := { b.clk with fabricDiv := b.resetDiv, divDue := none, aux := (288, 0, 33), auxDue := none }
    link := { b.link with staged := [], sscPpm := [], sscKhz := [] }
    health := { b.health with latch := [] }
    mig := { b.mig with pool := [] }
    cfg := { b.cfg with fuseLen := 64 } }.setReg Reg.nodeId (b.reg Reg.nidStrap)).canUp.usbUp

/-- What a device image wrote is undone (R373). -/
def Block.undoImage (b : Block) (p : Option Pkg) : Block :=
  let b := match p with
    | none => b
    | some p =>
      let b := p.slots.foldl (fun b e => b.clearSlot e.1 (b.phys e.1) e.2) b
      let b := p.frames.foldl (fun b f => b.wipeLines true f) b
      b.zeroLibrary p.library
  let b := (List.range 256).foldl Block.blankPlanes b
  let runs := b.disp.runs.map (·.1)
  let b := runs.foldl Block.freeRun b
  b.objectsDefault

/-- A device image fails with a code: undone, and then the golden image or the end (R373). -/
def Block.imageFailed (b : Block) (code : Nat) : Block :=
  let b := b.undoImage b.cfg.pkg
  if b.cfg.second then (b.setReg Reg.goldenFailCode code).cfgFailed
  else
    let b := b.setRegs [(Reg.failCode, code), (Reg.goldenFailCode, 0)]
    if b.selfRead then
      (((b.logEvent 0x0602 0 369 (code * 256)).emit .pin pinAlert [0]).emit .pin pinAlert [1]).toStep .image true
    else b.cfgFailed

/-- A package of the step in progress fails (R371, Table 11.10). -/
def Block.packageFailed (b : Block) (code : Nat) : Block :=
  let retry := b.selfRead && !b.cfg.second
  match b.cfg.step with
  | .firmware =>
    let b := (b.logPackage 3 code).setReg Reg.failCode code
    if retry then b.toStep .firmware true else (b.setReg Reg.fwActive 0xFF).toStep .microcode false
  | .microcode =>
    let b := (b.logPackage 4 code).setReg Reg.failCode code
    if retry then b.toStep .microcode true else (b.setReg Reg.failCode 15).cfgFailed
  | .image => (b.logPackage 1 code).imageFailed code
  | _ => b

/-! The device image's settings and boot runs (R376). -/

/-- The SETTINGS records in order; the first that is aborted stops them. -/
def Block.applySettings (b : Block) : List (Nat × Nat × Nat × Nat) → Bool × Block
  | [] => (true, b)
  | (idx, sub, len, v) :: l => match b.dictWrite .settings idx sub len v with
    | (0, b) => b.applySettings l
    | (_, b) => (false, b)

/-- Width, height and twin of a SHAPE. -/
def shapeW (s : Nat) : Nat := bitsOf s 3 0 + 1
def shapeH (s : Nat) : Nat := bitsOf s 6 4 + 1
def shapeT (s : Nat) : Bool := s.testBit 7

/-- The span of a boot run, if its regions form one and each has a BOOT slot. -/
def Block.bootSet (b : Block) (p : Pkg) (e : BootRun) : Option (List Nat) :=
  match b.spanAt e.anchor (shapeW e.shape) (shapeH e.shape) (shapeT e.shape) with
  | some rs => if rs.all (fun r => p.regions.any (fun x => x.region == r && x.boot)) then some rs else none
  | none => none

/-- Whether the kernel descriptor of a boot run is valid and spans its SHAPE. -/
def Block.bootKernel (b : Block) (e : BootRun) : Bool × Block :=
  let (st, d, b) := b.tapRead 369 (b.reg Reg.ktableBase + 128 * e.kernel) 128
  (st == Status.ok && kValid d && spanShapeOf d == e.shape, b)

/-- The descriptor of a boot run (Tables 6.3 and 11.9). -/
def BootRun.desc (e : BootRun) : Nat :=
  e.argLine * 2 ^ 192 + e.cring * 2 ^ 48 + e.flags * 2 ^ 32 + e.prio * 2 ^ 16 + e.kernel

/-- The slot a region boots from. -/
def Pkg.bootSlot (p : Pkg) (r : Nat) : Nat :=
  match p.regions.find? (fun x => x.region == r && x.boot) with | some x => x.slot | none => 0

/-- The boot runs checked in order, `i` entered so far, with the regions taken: those that pass are entered. -/
def Block.enterBoot (b : Block) (p : Pkg) : Nat → List Nat → List BootRun → Bool × Block
  | _, _, [] => (true, b)
  | i, taken, e :: l => match b.bootSet p e with
    | none => (false, b)
    | some rs =>
      let (ok, b) := b.bootKernel e
      if !ok || rs.any taken.contains then (false, b)
      else
        let slots := rs.map p.bootSlot
        let run : Run := { desc := e.desc, boot := true, state := .running, anchor := e.anchor, home := scarabOf e.anchor, set := rs, slots := slots,
                           held := rs.zip slots, gens := (rs.zip slots).map (fun x => (b.slotDesc (b.phys x.1) x.2).gen),
                           started := true }
        (b.setRun i run).enterBoot p (i + 1) (taken ++ rs) l

/-- Every segment of the device image has passed: settings, boot runs, and what the image is (R376, R384). -/
def Block.imagePassed (b : Block) (p : Pkg) : Block :=
  match b.applySettings p.settings with
  | (false, b) => b.packageFailed 12
  | (true, b) => match b.enterBoot p 0 [] p.bootRuns with
    | (false, b) => b.packageFailed 13
    | (true, b) =>
      let b := b.setRegs [(Reg.imageDigest, p.digest), (Reg.imageVersion, p.version), (Reg.imageRollback, p.rollback),
        (Reg.imageUsed, if b.selfRead then (if b.cfg.second then 2 else 1) else 3), (Reg.cfgState, 2)]
      let b := b.toStep .starting b.cfg.second
      { b with cfg := { b.cfg with keySlot := p.keySlot, since := b.run } }

/-! The packages in order (R371). -/

/-- The firmware slot tried. -/
def Block.firmwareSlot (b : Block) : Nat :=
  if b.selfRead then (if b.cfg.second then 1 - b.cfg.fwPref else b.cfg.fwPref) else 0

/-- The package of the step in progress has passed. -/
def Block.packagePassed (b : Block) : Block :=
  match b.cfg.pkg, b.cfg.step with
  | some p, .firmware =>
    let slot := b.firmwareSlot
    let b := if slot = 0 then { b with cfg := { b.cfg with fwA := some p.firm } } else { b with cfg := { b.cfg with fwB := some p.firm } }
    (b.setRegs [(if slot = 0 then Reg.fwVersionA else Reg.fwVersionB, p.version), (Reg.fwActive, slot)]).toStep .microcode false
  | some p, .microcode =>
    { b with cfg := { b.cfg with ucode := (List.range 32).map (fun k => (k, some p.firm)) } }.toStep .image false
  | some p, .image => b.imagePassed p
  | _, _ => b

/-- What a frame or a header makes of the configuration: `start` is the container byte of its first byte, `stop` that after its
last. A refused frame is sent again in a push mode (R372). -/
def Block.afterUnit (start stop : Nat) (r : PkgStep × Block) : Block :=
  let b := r.2
  let b := { b with cfg := { b.cfg with unit := [], checking := false } }
  let at' (n : Nat) : Block := if b.pushes then b.setReg Reg.pushNext n else b
  match r.1 with
  | .more => at' stop
  | .again => at' start
  | .failed c => b.packageFailed c
  | .done => b.packagePassed

/-- The package type that the step in progress expects. -/
def CfgStep.type : CfgStep → Nat
  | .firmware => 3 | .microcode => 4 | .image => 1 | _ => 0

/-- Whether a package of the configuration can be taken now: a step that takes one, and no pin instruction in force. -/
def Block.loading (b : Block) : Bool := b.cfg.step.type != 0 && !b.pinsHeld

/-- The first byte of a package: a device image attempt begins (R371, R384). The start sweep is
over by then (R473). -/
def Block.firstByte (b : Block) : Block :=
  let b := b.endSweep.setReg Reg.cfgState 1
  if b.cfg.step = .image then
    { b.setRegs [(Reg.loadStart, b.ts), (Reg.framesDone, 0), (Reg.framesTotal, 0)] with cfg := { b.cfg with since := b.run } }
  else b

/-- The first unit of a package: checks 1 to 6 (R512, Table 11.10). -/
def Block.takeHeader (b : Block) (l : List Byte) : Block :=
  match b.checkPackage [b.cfg.step.type] none l with
  | (0, some p) =>
    let b := if p.type = 1 then b.setReg Reg.framesTotal p.totalFrames else b
    Block.afterUnit 0 l.length (b.beginPackage p)
  | (c, _) => Block.afterUnit 0 0 (.failed c, b)

/-- The container byte at which the frame in progress begins. -/
def Pkg.frameStart (p : Pkg) : Nat := p.entry.offset + frameBytes * p.frame

/-- A frame of the package in progress. -/
def Block.takeUnit (b : Block) (p : Pkg) (l : List Byte) : Block :=
  Block.afterUnit p.frameStart (p.frameStart + frameBytes) (b.takeFrame p l)

/-- FRAME (R365). -/
def execFrame (bytes : List Byte) (t : Nat) (s : State) : Host.Outcome State Fault Refusal :=
  s.answer true (s.blk.event t (fun b =>
    match b.cfg.pkg with
    | some p => if b.loading then { b with cfg := { b.cfg with heard := b.run } }.takeUnit p bytes else b
    | none => b))

/-! The flash directory (R358, R359). -/

/-- Whether a directory copy can be used: its MAGIC and its CRC. -/
def directoryHolds (l : List Byte) : Bool :=
  l.length == 64 && leAt l 0 4 == 0x3144464B && leAt l 0x3C 4 == crc32c (l.take 0x3C)

/-- Whether bytes are an SFDP table, by its signature "SFDP". -/
def isSfdp (l : List Byte) : Bool := leAt l 0 4 == 0x50444653

/-- Whether an SFDP table offers an 8D-8D-8D read profile: one of its parameter headers names the table of JESD251's profile 1.0,
identifier 0xFF05 (PRESUMED, log 212). -/
def sfdpOctal (l : List Byte) : Bool :=
  (List.range (leAt l 6 1 + 1)).any (fun i => leAt l (8 + 8 * i) 1 == 5 && leAt l (15 + 8 * i) 1 == 0xFF)

/-- What the flash gives while its directory is looked for: in mode 0 its SFDP table, by which two copies are read in the octal profile,
where it offers one, before the two in quad mode (R358); and a copy of the directory, the first that can be used (R359). -/
def Block.takeDirectory (b : Block) (l : List Byte) : Block :=
  let n := b.cfg.copies + 1
  if isSfdp l then { b with cfg := { b.cfg with octal := if b.cfg.copies = 0 then sfdpOctal l else b.cfg.octal } } else
  if directoryHolds l then
    let limit := leAt l 4 4
    let b := { b with cfg := { b.cfg with
      copies := n, fwPref := if leAt l 0x20 1 = 1 then 1 else 0, dir := (List.range 6).map (fun i => leAt l (8 + 4 * i) 4) } }
    (b.setReg Reg.limitInForceMs (if limit = 0 then 10000 else limit)).toStep .firmware false
  else if n = (if b.reg Reg.modePins = 0 ∧ b.cfg.octal then 4 else 2) then
    (((b.setReg Reg.failCode 1).logPackage 1 1)).cfgFailed
  else { b with cfg := { b.cfg with copies := n } }

/-- PACKAGE_HEADER: what stands before segment 0 of a package, or, at the step that reads it, a copy of the flash directory. -/
def execPackageHeader (bytes : List Byte) (t : Nat) (s : State) : Host.Outcome State Fault Refusal :=
  s.answer true (s.blk.event t (fun b =>
    if b.cfg.step = .directory then b.takeDirectory bytes
    else if b.loading && b.cfg.pkg.isNone then { b.firstByte with cfg := { b.firstByte.cfg with heard := b.run } }.takeHeader bytes
    else b))

/-! The push stream (R360, R512). -/

/-- The container byte after the last of the unit being received; a first unit shows its end in its first directory entry. -/
def Block.unitEnd (b : Block) : Nat :=
  match b.cfg.pkg with
  | some p => p.frameStart + frameBytes
  | none => if b.cfg.unit.length < 264 then 264 else max 264 (leAt b.cfg.unit 256 8)

/-- The whole unit as the configuration takes it: a frame follows any bytes between two segments. -/
def Block.checkUnit (b : Block) : Block :=
  match b.cfg.pkg with
  | some p => b.takeUnit p (b.cfg.unit.drop (b.cfg.unit.length - frameBytes))
  | none => b.takeHeader b.cfg.unit

/-- Bytes taken at PUSH_NEXT, up to the end of the unit being received: whether it is whole, the bytes left over, and the
block. -/
def Block.acceptBytes (b : Block) : Nat → List Byte → Bool × List Byte × Block
  | 0, l => (false, l, b)
  | _ + 1, [] => (false, [], b)
  | fuel + 1, l =>
    let b := if b.cfg.pkg.isNone && b.cfg.unit.isEmpty then b.firstByte else b
    let next := b.reg Reg.pushNext
    let n := min l.length (b.unitEnd - next)
    let b := { b with cfg := { b.cfg with unit := b.cfg.unit ++ l.take n, heard := b.run } }.setReg Reg.pushNext (next + n)
    if b.reg Reg.pushNext < b.unitEnd then b.acceptBytes fuel (l.drop n) else (true, l.drop n, b)

/-- Bytes of a write to the BAR2 window from offset `x` on: those at PUSH_NEXT are taken, a unit being checked at once; whether
any was discarded. -/
def Block.pushBytes (b : Block) : Nat → Nat → Bool → List Byte → Bool × Block
  | 0, _, dropped, _ => (dropped, b)
  | _ + 1, _, dropped, [] => (dropped, b)
  | fuel + 1, x, dropped, l =>
    let skip := (b.reg Reg.pushNext + 2 ^ 24 - x % 2 ^ 24) % 2 ^ 24
    if !b.loading || l.length ≤ skip then (true, b)
    else
      let (whole, rest, b) := b.acceptBytes 3 (l.drop skip)
      let b := if whole then b.checkUnit else b
      b.pushBytes fuel (x + (l.length - rest.length)) (dropped || skip != 0) rest

/-- PUSH_WRITE (R360, Table 12.6). -/
def Block.pushWrite (b : Block) (x : Nat) (l : List Byte) : Block :=
  let (dropped, b) := if b.reg Reg.modePins = 4 && !b.started then b.pushBytes (l.length + 1) x false l else (!l.isEmpty, b)
  if dropped then b.count Reg.pushDiscards 1 else b

/-- PUSH_WRITE. -/
def execPushWrite (off : Nat) (bytes : List Byte) (t : Nat) (s : State) : Host.Outcome State Fault Refusal :=
  s.answer (decide (off + bytes.length ≤ 2 ^ 24)) (s.blk.event t (fun b => b.pushWrite off bytes))

/-! The global start (R377). -/

/-- A boot run at the global start edge: its regions hold it, and its bridges present START_VALID and START_WORD. -/
def Block.bootStart (b : Block) (x : Nat) : Block :=
  let run := b.runAt x
  let (st, desc, b) := b.kernelDesc run.home run.kernel
  let w := kWidth desc
  let h := kHeight desc
  let shape := if st = Status.ok then spanShapeOf desc else 0
  let b := run.set.foldl (fun b r => b.takeRegion true x run.anchor shape r) b
  let b := (List.range run.set.length).foldl (fun b i =>
    let r := nthD run.set i 0
    b.presentStart r (startWord w h i run.argLine (kTwin desc) (dieOf r))) b
  let b := { b with disp := { b.disp with lastSet := b.disp.lastSet.put run.kernel (run.anchor + 1) } }
  (run.set.foldl Block.drivePorts b).setRun x
    { run with startTime := b.ts, switchedAt := b.run, activeFrom := b.run, lastAnchor := run.anchor }

/-- What the start edge, as a switch edge, does to every region in service: borders open one edge later (R116), and the slot its
active plane holds was switched in. -/
def Block.startRegion (b : Block) (r : Nat) : Block :=
  let p := b.phys r
  let b := { b with rgn := { b.rgn with
    closing := b.rgn.closing.put r (2, 0), switchAt := b.rgn.switchAt.put r (some b.clock)
    idleSince := b.rgn.idleSince.put r (some b.run) } }
  match b.activeSlot r with
  | some s =>
    let b := b.setDesc p s { b.slotDesc p s with lastIn := b.cricket % 2 ^ 32 }
    let bad := b.ctx.mapBad.contains (slotKey p s)
    let b := { b with rgn := { b.rgn with mapFault := b.rgn.mapFault.put r bad } }
    if bad then b.raiseMap r 0 0 else b
  | none => b

/-- GLOBAL_START. -/
def Block.globalStart (b : Block) : Block :=
  let c := b.clock
  let b := b.softStart c
  let b := { b with clk := { b.clk with lastEdge := some c }, cfg := { b.cfg with step := .none, fault := false } }
  let b := b.setRegs [(Reg.cfgState, 3), (Reg.startEdge, b.ts)]
  let b := (b.emit .pin pinDone [1]).emit .pin pinFault [1]
  let b := ((List.range 256).filter (fun r => !b.isRetired r)).foldl Block.startRegion b
  let b := (List.range b.liveRuns.length).foldl Block.bootStart b
  (b.wakeLanes (fun l => b.reg (Reg.laneEn l) == 1) false).allLinks.canUp.usbUp.refreshBorders

/-- GLOBAL_START: the first cricket tick at least 1 µs after the boot runs were entered. -/
def execGlobalStart (t : Nat) (s : State) : Host.Outcome State Fault Refusal :=
  s.answer true (s.blk.eventIf t
    (fun b => b.cfg.step == .starting && b.clock % tick == 0 && decide (b.cfg.since + us 1 ≤ b.run)) Block.globalStart)

/-! The serial slave port (R511 to R513). -/

/-- Whether the port takes no stream byte: a unit awaits its check, or a frame was refused. -/
def Block.portBusy (b : Block) : Bool := b.cfg.checking || b.cfg.refused

/-- Stream bytes of one transaction: taken up to the end of the unit being received; the rest is discarded and counted. -/
def Block.streamBytes (b : Block) (l : List Byte) : Block :=
  if b.reg Reg.modePins ≠ 2 then b
  else if b.started || b.portBusy || !b.loading then b.count Reg.pushDiscards l.length
  else
    let (whole, rest, b) := b.acceptBytes 3 l
    let b := if whole then { b with cfg := { b.cfg with checking := true } } else b
    b.count Reg.pushDiscards rest.length

/-- WRITE_STREAM. -/
def execWriteStream (bytes : List Byte) (t : Nat) (s : State) : Host.Outcome State Fault Refusal :=
  s.answer true (s.blk.event t (fun b => b.streamBytes bytes))

/-- WRITE_STREAM_Q: the same bytes, four bits in a cycle. -/
def execWriteStreamQ (bytes : List Byte) (t : Nat) (s : State) : Host.Outcome State Fault Refusal :=
  s.answer true (s.blk.event t (fun b => b.streamBytes bytes))

/-- The outputs of the configuration ports, as `Output` numbers them. -/
abbrev portSerial : Nat := 2
abbrev portParallel : Nat := 3

/-- The status byte (Table 16.15). -/
def Block.serialStatus (b : Block) : Nat :=
  b2n b.portBusy * 128 + b2n b.cfg.refused * 64 + b2n b.doneHigh * 32 + b2n (b.reg Reg.cfgState == 4) * 16

/-- READ_STATUS. -/
def execReadStatus (s : State) : Host.Outcome State Fault Refusal :=
  let b := s.blk
  s.answer true (if b.clocked && b.reg Reg.modePins == 2 then
    { b.emit .port portSerial [b.serialStatus, b.reg Reg.cfgState, b.reg Reg.failCode, 0] with
      cfg := { b.cfg with refused := false } }
   else b)

/-- READ_NEXT. -/
def execReadNext (s : State) : Host.Outcome State Fault Refusal :=
  let b := s.blk
  s.answer true (if b.clocked && b.reg Reg.modePins == 2 then
    b.emit .port portSerial ((bytesOf 8 (b.reg Reg.pushNext)).map (·.toNat)) else b)

/-- UNIT_CHECK_END: the unit that awaits its check is checked; a refused frame holds the port. -/
def Block.unitChecked (b : Block) : Block :=
  let tries (b : Block) : Nat := match b.cfg.pkg with | some p => p.tries | none => 0
  let before := tries b
  let b := b.checkUnit
  if before < tries b then
    (if b.reg Reg.modePins = 3 then { b with cfg := { b.cfg with refuse := true, ready := false, released := false } }
     else { b with cfg := { b.cfg with refused := true } })
  else b

/-- UNIT_CHECK_END. -/
def execUnitCheckEnd (t : Nat) (s : State) : Host.Outcome State Fault Refusal :=
  s.answer true (s.blk.eventIf t (fun b => b.cfg.checking) Block.unitChecked)

/-! The parallel slave port (R514). -/

/-- One rising PCLK edge, with the levels sampled at it. -/
def Block.parallelEdge (b : Block) (pcsn pvalid : Bool) (w : Nat) : Block :=
  let offered := !pcsn && pvalid
  let wasted := if offered then b.count Reg.pushDiscards 2 else b
  if b.started || (!b.loading && b.cfg.step != .directory) then
    { wasted with cfg := { wasted.cfg with ready := false } }
  else if b.cfg.refuse then
    (if pcsn then { b with cfg := { b.cfg with released := true } }
     else if b.cfg.released then { b with cfg := { b.cfg with refuse := false, released := false, ready := true } }
     else wasted)
  else if b.cfg.ready && offered then
    let (whole, _, b) := b.acceptBytes 4 (bytesOf 2 w)
    { b with cfg := { b.cfg with checking := whole, ready := !whole } }
  else { b with cfg := { b.cfg with ready := !b.cfg.checking } }

/-- PARALLEL_WORD. -/
def execParallelWord (pcsn pvalid : Bool) (w : BitVec 16) (t : Nat) (s : State) : Host.Outcome State Fault Refusal :=
  s.answer true (s.blk.eventIf t (fun b => b.reg Reg.modePins == 3) (fun b => b.parallelEdge pcsn pvalid w.toNat))

/-! Limits (R371). -/

/-- The rows that bring bytes of a package at time `t`. -/
def packageRow (t : Nat) : Instr → Option (State → Host.Outcome State Fault Refusal)
  | .frame l t' => atEdge t t' (execFrame l t')
  | .pushWrite off l t' => atEdge t t' (execPushWrite off l t')
  | .writeStream l t' => atEdge t t' (execWriteStream l t')
  | .writeStreamQ l t' => atEdge t t' (execWriteStreamQ l t')
  | .parallelWord cs v w t' => atEdge t t' (execParallelWord cs v w t')
  | _ => none

/-- Whether the last check of the image passes at the edge of its limit. -/
def State.imageWon (s : State) (t : Nat) : Bool :=
  s.blk.cfg.step == .image && (s.settle (packageRow t)).blk.cfg.step == .starting

/-- Whether a byte of the image comes at the edge of the limit. -/
def State.byteWon (s : State) (t : Nat) : Bool := decide (s.blk.cfg.heard < (s.settle (packageRow t)).blk.cfg.heard)

/-- IMAGE_LIMIT: a device image attempt in a self-read mode passes its limit. -/
def execImageLimit (t : Nat) (s : State) : Host.Outcome State Fault Refusal :=
  s.answer true (s.limit (s.imageWon t) t (s.blk.eventIf t
    (fun b => b.selfRead && b.cfg.step == .image && b.cfg.pkg.isSome &&
      decide (b.cfg.since + ms (b.reg Reg.limitInForceMs) ≤ b.run))
    (fun b => b.packageFailed 14)))

/-- PUSH_LIMIT: no byte of a device image for PUSH_LIMIT_MS. -/
def execPushLimit (t : Nat) (s : State) : Host.Outcome State Fault Refusal :=
  s.answer true (s.limit (s.byteWon t) t (s.blk.eventIf t
    (fun b => b.pushes && b.cfg.step == .image && (b.cfg.pkg.isSome || !b.cfg.unit.isEmpty) &&
      decide (b.cfg.heard + ms (b.reg Reg.pushLimitMs) ≤ b.run))
    (fun b => b.packageFailed 14)))

end Sys2Proof.Machine
end

