-- ==== Sys2Proof/Machine/Lmp.lean ====
section
/-! DEFINITION. The management protocol (R388 to R393, R403, R405): the messages of a transfer, its checks, and the forwarding
of a request to another node. -/

namespace Sys2Proof.Machine

open Sys2Proof

/-! A request. -/

/-- A message received on a transport: its header's fields (Table 12.1) and its body. -/
structure Message where
  via : Via
  hdr : Nat
  body : List Byte
  deriving DecidableEq, Repr

abbrev Message.cmd (m : Message) : Nat := bitsOf m.hdr 7 0
abbrev Message.xid (m : Message) : Nat := bitsOf m.hdr 15 8
abbrev Message.idx (m : Message) : Nat := bitsOf m.hdr 31 16
abbrev Message.sub (m : Message) : Nat := bitsOf m.hdr 39 32
abbrev Message.len (m : Message) : Nat := bitsOf m.hdr 43 40
abbrev Message.last (m : Message) : Bool := m.hdr.testBit 46
abbrev Message.toggle (m : Message) : Bool := m.hdr.testBit 47
abbrev Message.node (m : Message) : Nat := bitsOf m.hdr 59 48

/-- The value of bytes `off` to `off + n - 1` of the body. -/
def Message.field (m : Message) (off n : Nat) : Nat := bytesVal ((m.body.drop off).take n)

/-- The data that follow a data prefix. -/
def Message.data (m : Message) : List Byte := m.body.drop 4

/-- The answer to a message, echoing its transaction, its object and its node. -/
def Message.reply (m : Message) (cmd len : Nat) (last toggle : Bool) (body : List Byte) : List Byte :=
  lmpBytes (lmpHeader cmd m.xid m.idx m.sub len last toggle m.node) body

/-- Whether a message is one of a transfer (R393). -/
def Message.of (m : Message) (x : Xfer) : Bool := m.via == x.via && m.idx == x.idx && m.sub == x.sub && m.xid == x.xid

/-- The commands of Table 12.2 that only a server sends, and the epoch messages. -/
def answerCommands : List Nat := [0x81, 0x82, 0x83, 0x84, 0x85, 0x86, 0x87, 0x88, 0x89, 0x8A, 0x8B]
def epochCommands : List Nat := [0x10, 0x11, 0x12, 0x13, 0x90, 0x91, 0x92, 0x93, 0x94]

/-- Bytes the body of a command must have (Tables 12.2, 12.12), from the header and the body's own COUNT; `none` for a command that is not
listed. A SEG_DATA without a body asks for a segment. -/
def bodyLength (cmd len : Nat) (body : List Byte) : Option Nat :=
  let prefixed := 4 + bytesVal (body.take 2)
  let fixed : List (Nat × Nat) :=
    [(0x01, 0), (0x03, 0), (0x0B, 0), (0x82, 0), (0x84, 0), (0x8B, 0), (0x91, 0), (0x92, 0), (0x94, 0), (0x06, 1), (0x87, 1), (0x09, 2),
     (0x89, 2), (0x04, 4), (0x07, 4), (0x0A, 4), (0x0F, 4), (0x8F, 4), (0x83, 4), (0x86, 4), (0x8A, 4), (0x12, 4), (0x13, 4), (0x10, 8),
     (0x90, 12), (0x11, 16), (0x93, 16)]
  if cmd = 0x02 ∨ cmd = 0x81 then some len
  else if cmd = 0x05 ∨ cmd = 0x85 then some (if body.isEmpty then 0 else prefixed)
  else if cmd = 0x08 ∨ cmd = 0x88 then some prefixed
  else (fixed.find? (fun e => e.1 == cmd)).map (·.2)

/-- Whether the reserved bytes of a body are zero. -/
def Message.bodyZero (m : Message) : Bool :=
  if (m.cmd = 0x05 ∨ m.cmd = 0x85) ∧ !m.body.isEmpty then decide (4 ≤ m.body.length) && m.field 3 1 == 0
  else if m.cmd = 0x08 ∨ m.cmd = 0x88 then decide (4 ≤ m.body.length) && m.field 3 1 == 0
  else if m.cmd = 0x90 ∨ m.cmd = 0x93 then m.field 5 3 == 0
  else if m.cmd = 0x11 then m.field 4 4 == 0
  else true

/-- Whether a message is well formed (R389): no reserved bit, LEN as its command takes it, and a body of the right length. -/
def Message.good (m : Message) : Bool :=
  let lenOk : Bool := if m.cmd = 0x02 ∨ m.cmd = 0x81 then decide (m.len ≤ 8) else m.len == 0
  bitsOf m.hdr 63 60 == 0 && bitsOf m.hdr 45 44 == 0 && lenOk && m.bodyZero &&
    bodyLength m.cmd m.len m.body == some m.body.length

/-- The code with which a message is refused, whatever its transfer (R389). Channel 63 carries the epoch messages and no other channel
does: one that is misplaced is a BAD_MESSAGE (DESIGN CHOICE, log 216). -/
def Message.fault (m : Message) : Option Nat :=
  if (bodyLength m.cmd m.len m.body).isNone then some Abort.unknownCmd
  else if !m.good || ((m.via == .mailbox 63) != epochCommands.contains m.cmd) then some Abort.badMessage
  else none

/-! Answers. -/

/-- A message answered with ABORT (R389, R393). -/
def Block.refuseMessage (b : Block) (m : Message) (code : Nat) : Block :=
  b.lmpAbort m.via m.xid m.idx m.sub m.node code

/-- A message answered with ABORT, which ends the open transfer if it is one of its messages. -/
def Block.breakXfer (b : Block) (m : Message) (code : Nat) : Block :=
  match b.xfer m.via with
  | some x => if m.of x then (b.endXfer m.via).refuseMessage m code else b.refuseMessage m code
  | none => b.refuseMessage m code

/-- The transfer a data message belongs to, of one of the kinds given; else NO_TRANSFER, and the open transfer goes on (R393). -/
def Block.inXfer (b : Block) (m : Message) (kinds : List XferKind) (f : Xfer → Block) : Block :=
  match b.xfer m.via with
  | some x => if m.of x && kinds.contains x.kind then f x else b.refuseMessage m Abort.noTransfer
  | none => b.refuseMessage m Abort.noTransfer

/-- A new transfer of a transport ends the one open there (R403), and is counted. -/
def Block.newXfer (b : Block) (via : Via) : Block := (b.endXfer via).count Reg.lmpTransfers 1

/-- A transfer opened, its answer sent. -/
def Block.openXfer (b : Block) (m : Message) (kind : XferKind) (size : Nat) (buf : List Byte) (blk : Nat)
    (msgs : List (List Byte)) : Block :=
  let x : Xfer := { via := m.via, kind := kind, idx := m.idx, sub := m.sub, xid := m.xid, size := size, buf := buf, blkSize := blk,
                    since := b.run }
  ((b.newXfer m.via).putXfer x).lmpSend m.via msgs

/-! Expedited transfers (R390). -/

/-- READ. -/
def Block.lmpRead (b : Block) (m : Message) : Block :=
  let b := b.endXfer m.via
  match b.dictRead m.idx m.sub with
  | .inl a => b.refuseMessage m a
  | .inr (size, v) =>
    if 8 < size then b.refuseMessage m Abort.useSegmented
    else (b.newXfer m.via).lmpSend m.via [m.reply 0x81 size false false (bytesOf size v)]

/-- WRITE. -/
def Block.lmpWrite (b : Block) (m : Message) : Block :=
  let b := b.endXfer m.via
  let a := b.openWrite m.idx m.sub m.len
  -- an expedited LEN that differs from the object's size is LENGTH, also above a maximum (R390)
  let a := if a = Abort.tooLarge then Abort.length else a
  if a ≠ Abort.none then b.refuseMessage m a
  else
    let r := (b.newXfer m.via).writeObject m.via m.idx m.sub m.len (bytesVal m.body)
    if r.1 = Abort.none then r.2.lmpSend m.via [m.reply 0x82 0 false false []] else r.2.refuseMessage m r.1

/-! Segmented transfers (R390, R391). -/

/-- Data bytes of a segment or of a message of a block (Table 12.4). -/
def segmentBytes : Via → Nat
  | .can _ _ => 52
  | _ => 4084

/-- A data prefix and its data (R389). -/
def dataBody (seq : Nat) (d : List Byte) : List Byte := bytesOf 2 d.length ++ bytesOf 1 seq ++ [0] ++ d

/-- SEG_READ. -/
def Block.segRead (b : Block) (m : Message) : Block :=
  let b := b.endXfer m.via
  match b.dictRead m.idx m.sub with
  | .inl a => b.refuseMessage m a
  | .inr (size, v) => b.openXfer m .segRead size (bytesOf size v) 0 [m.reply 0x83 0 false false (bytesOf 4 size)]

/-- SEG_WRITE. -/
def Block.segWrite (b : Block) (m : Message) : Block :=
  let b := b.endXfer m.via
  let size := m.field 0 4
  let a := b.openWrite m.idx m.sub size
  if a ≠ Abort.none then b.refuseMessage m a
  else b.openXfer m .segWrite size [] 0 [m.reply 0x84 0 false false []]

/-- The last data of a write accepted: the object is written, and the answer sent (R386, R387, R391). -/
def Block.finishWrite (b : Block) (x : Xfer) (m : Message) (answer : List Byte) : Block :=
  let r := (b.endXfer x.via).writeObject x.via x.idx x.sub x.size (bytesVal x.buf)
  if r.1 = Abort.none then r.2.lmpSend m.via [answer] else r.2.refuseMessage m r.1

/-- One segment asked for. -/
def Block.segOut (b : Block) (m : Message) (x : Xfer) : Block :=
  let d := (x.buf.drop x.pos).take (segmentBytes m.via)
  let pos := x.pos + d.length
  let fin := decide (x.size ≤ pos)
  let answer := m.reply 0x85 0 fin m.toggle (dataBody 0 d)
  (if fin then b.endXfer m.via else b.putXfer { x with pos := pos, toggle := some m.toggle, answer := answer }).lmpSend m.via
    [answer]

/-- One segment written. -/
def Block.segIn (b : Block) (m : Message) (x : Xfer) : Block :=
  let buf := x.buf ++ m.data
  let answer := m.reply 0x85 0 false m.toggle []
  if x.size < buf.length ∨ (m.last ∧ buf.length ≠ x.size) then b.breakXfer m Abort.sizeMismatch
  else if m.last then b.finishWrite { x with buf := buf } m answer
  else (b.putXfer { x with buf := buf, toggle := some m.toggle, answer := answer }).lmpSend m.via [answer]

/-- SEG_DATA: a repeat of the last TOGGLE is answered again, any other mismatch aborts. -/
def Block.segData (b : Block) (m : Message) : Block :=
  b.inXfer m [.segRead, .segWrite] (fun x =>
    if (x.kind == .segRead) != m.body.isEmpty then b.breakXfer m Abort.badMessage
    else if x.toggle = some m.toggle then (b.putXfer x).lmpSend m.via [x.answer]
    else if x.toggle.isNone ∧ m.toggle then b.breakXfer m Abort.toggle
    else if x.kind = .segRead then b.segOut m x else b.segIn m x)

/-! Block transfers (R392). -/

/-- Data bytes of each message that the server sends in a block: on a mailbox the one message of a train that a BLK_READ_OK may
precede. -/
def blockBytes : Via → Nat
  | .can _ _ => 52
  | _ => 4068

/-- BLKSIZE that the server gives for a block it receives: on a mailbox a train of one message. -/
def serverBlock : Via → Nat
  | .can _ _ => 127
  | _ => 1

/-- Messages of the block sent from byte `pos` on: at most BLKSIZE, and one in a train. -/
def blockCount (via : Via) (size pos blk : Nat) : Nat :=
  let n := max 1 ((size - pos + blockBytes via - 1) / blockBytes via)
  match via with
  | .can _ _ => min blk n
  | _ => 1

/-- Those messages, and whether the last data is among them. -/
def Block.blockOut (b : Block) (m : Message) (x : Xfer) (first : List (List Byte)) : Block :=
  let w := blockBytes m.via
  let n := blockCount m.via x.size x.pos x.blkSize
  let msg (i : Nat) : List Byte :=
    m.reply 0x88 0 (decide (x.size ≤ x.pos + (i + 1) * w)) false (dataBody (i + 1) ((x.buf.drop (x.pos + i * w)).take w))
  (b.putXfer { x with seq := n, last := decide (x.size ≤ x.pos + n * w) }).lmpSend m.via (first ++ (List.range n).map msg)

/-- A BLKSIZE from 1 to 127. -/
def blkSizeOk (n : Nat) : Bool := decide (1 ≤ n ∧ n ≤ 127)

/-- BLK_READ. -/
def Block.blkRead (b : Block) (m : Message) : Block :=
  let b := b.endXfer m.via
  if !blkSizeOk (m.field 0 1) then b.refuseMessage m Abort.badMessage
  else
    match b.dictRead m.idx m.sub with
    | .inl a => b.refuseMessage m a
    | .inr (size, v) =>
      let x : Xfer := { via := m.via, kind := .blkRead, idx := m.idx, sub := m.sub, xid := m.xid, size := size,
                        buf := bytesOf size v, blkSize := m.field 0 1, since := b.run }
      (b.newXfer m.via).blockOut m x [m.reply 0x86 0 false false (bytesOf 4 size)]

/-- BLK_WRITE. -/
def Block.blkWrite (b : Block) (m : Message) : Block :=
  let b := b.endXfer m.via
  let size := m.field 0 4
  let a := b.openWrite m.idx m.sub size
  if a ≠ Abort.none then b.refuseMessage m a
  else b.openXfer m .blkWrite size [] (serverBlock m.via) [m.reply 0x87 0 false false (bytesOf 1 (serverBlock m.via))]

/-- BLK_DATA: the next message of the block is taken, any other left; the block is acknowledged at its end and at LAST. -/
def Block.blkData (b : Block) (m : Message) : Block :=
  b.inXfer m [.blkWrite] (fun x =>
    let seq := m.field 2 1
    if seq = 0 ∨ x.blkSize < seq then b.breakXfer m Abort.blockSeq
    else
      let next := seq = x.seq + 1 ∧ !x.last
      let x := if next then { x with buf := x.buf ++ m.data, seq := seq, last := m.last } else x
      if x.size < x.buf.length ∨ (x.last ∧ x.buf.length ≠ x.size) then b.breakXfer m Abort.sizeMismatch
      else if seq = x.blkSize ∨ m.last then
        (b.putXfer { x with seq := 0 }).lmpSend m.via
          [m.reply 0x89 0 false false (bytesOf 1 x.seq ++ bytesOf 1 (serverBlock m.via))]
      else { b with lmp := { b.lmp with xfers := x :: (b.endXfer m.via).lmp.xfers } })

/-- BLK_ACK: the server goes on after the last message that arrived; after the last data it sends BLK_END. -/
def Block.blkAck (b : Block) (m : Message) : Block :=
  b.inXfer m [.blkRead] (fun x =>
    let ack := m.field 0 1
    if !blkSizeOk (m.field 1 1) then b.breakXfer m Abort.badMessage
    else if x.seq < ack then b.breakXfer m Abort.blockSeq
    else
      let done := x.last ∧ ack = x.seq
      let x := { x with pos := min x.size (x.pos + ack * blockBytes m.via), blkSize := m.field 1 1 }
      if done then
        (b.putXfer { x with seq := 0 }).lmpSend m.via [m.reply 0x8A 0 false false (bytesOf 4 (crc32c x.buf))]
      else b.blockOut m x [])

/-- BLK_END: the CRC of every data byte is checked, and the object written. -/
def Block.blkEnd (b : Block) (m : Message) : Block :=
  b.inXfer m [.blkWrite] (fun x =>
    if !x.last then b.breakXfer m Abort.sizeMismatch
    else if m.field 0 4 ≠ crc32c x.buf then b.breakXfer m Abort.blockCrc
    else b.finishWrite x m (m.reply 0x8B 0 false false []))

/-- BLK_END_OK: the block read ends. -/
def Block.blkEndOk (b : Block) (m : Message) : Block :=
  b.inXfer m [.blkRead] (fun x => if x.last ∧ x.seq = 0 then (b.endXfer m.via).lmpSilent m.via else b.breakXfer m Abort.noTransfer)

/-- ABORT received: it ends its transfer and is not answered (R393); its code is judged by bits [31:16] (R394). -/
def Block.abortReceived (b : Block) (m : Message) : Block :=
  let b := (b.count Reg.lmpAbortsReceived 1).setReg Reg.lastAbortCode (m.field 0 4 / 65536 * 65536)
  let b := match b.xfer m.via with
    | some x => if m.of x then b.endXfer m.via else b
    | none => b
  b.lmpSilent m.via

/-! Forwarding (R405). -/

/-- A message on its way to a channel of its node: one that is not answered ends its transfer's use of the channel. -/
def Block.sendForward (b : Block) (m : Message) (ch : Nat) (fresh : Bool) : Block :=
  let b := b.endForward m.via
  let bytes := lmpBytes m.hdr m.body
  if m.cmd = 0x0B ∨ m.cmd = 0x0F ∨ m.cmd = 0x8F then (b.lmpSilent m.via).postMessage m.node ch bytes none fresh
  else
    { b with lmp := { b.lmp with forwards := Forward.mk m.via m.node ch m.hdr (some b.run) :: b.lmp.forwards } }.postMessage
      m.node ch bytes (some m.via) fresh

/-- The commands that open a transfer. -/
def opensTransfer (cmd : Nat) : Bool := [0x01, 0x02, 0x03, 0x04, 0x06, 0x07].contains cmd

/-- A new transfer ends the open one of its transport, here or at another node, without an answer (R403). -/
def Block.supersede (b : Block) (m : Message) : Block :=
  if opensTransfer m.cmd then (b.endXfer m.via).endForward m.via else b

/-- A request naming another node. -/
def Block.forward (b : Block) (m : Message) : Block :=
  let b := (b.supersede m).count Reg.fwdRequests 1
  if (b.routeTo m.node).isNone then (b.endForward m.via).refuseMessage m Abort.pathLost
  else
    match b.forwardOf m.via m.node with
    | some f => b.sendForward m f.ch false
    | none => match b.freeChannel m.node 32 with
      | some c => b.sendForward m c true
      | none => b.refuseMessage m Abort.fwdNoChannel

/-- Whether an answer is the last of its transfer: READ_OK, WRITE_OK, ABORT, BLK_END_OK, and the SEG_DATA_OK of the final
segment. -/
def endsTransfer (req rsp : Nat) : Bool :=
  let c := bitsOf rsp 7 0
  c == 0x81 || c == 0x82 || c == 0x8F || c == 0x8B || (c == 0x85 && (rsp.testBit 46 || req.testBit 46))

/-- The messages of a train: each as long as its header and its COUNT say. -/
def splitTrain : Nat → List Byte → List (List Byte)
  | 0, _ => []
  | _, [] => []
  | fuel + 1, x :: xs =>
    let l := x :: xs
    let h := bytesVal (l.take 8)
    let c := bitsOf h 7 0
    let body := l.drop 8
    let n := 8 + (if c = 0x81 then bitsOf h 43 40
      else if c = 0x85 ∨ c = 0x88 then (if body.isEmpty then 0 else 4 + bytesVal (body.take 2))
      else body.length)
    let n := if c = 0x86 then 12 else n
    l.take n :: splitTrain fuel (l.drop (roundUp n 8))

/-- A response returned on the transport of its request: on CAN each of its messages in a frame of its own. -/
def Block.returnForward (b : Block) (f : Forward) (bytes : List Byte) : Block :=
  let b := if endsTransfer f.hdr (bytesVal (bytes.take 8)) then b.endForward f.via
    else { b.endForward f.via with lmp := { (b.endForward f.via).lmp with
             forwards := { f with since := none } :: (b.endForward f.via).lmp.forwards } }
  match f.via with
  | .can _ _ =>
    let ms := splitTrain 512 bytes
    if ms.any (fun x => decide (64 < x.length)) then
      b.abortForward f Abort.badMessage
    else b.lmpSend f.via ms
  | _ => b.lmpSend f.via [bytes]

/-! Serving. -/

/-- What a command does once its message has been found good. -/
def Block.lmpServe (b : Block) (m : Message) : Block :=
  if m.cmd = 0x01 then b.lmpRead m
  else if m.cmd = 0x02 then b.lmpWrite m
  else if m.cmd = 0x03 then b.segRead m
  else if m.cmd = 0x04 then b.segWrite m
  else if m.cmd = 0x05 then b.segData m
  else if m.cmd = 0x06 then b.blkRead m
  else if m.cmd = 0x07 then b.blkWrite m
  else if m.cmd = 0x08 then b.blkData m
  else if m.cmd = 0x09 then b.blkAck m
  else if m.cmd = 0x0A then b.blkEnd m
  else if m.cmd = 0x0B then b.blkEndOk m
  else b.abortReceived m

/-- Whether a message is there to be served: a mailbox channel holds it as the next message of the request it is busy with (R395). -/
def Block.messageHere (b : Block) (m : Message) : Bool :=
  match m.via with
  | .mailbox ch =>
    let x := b.mboxAt ch
    x.busy && decide (x.taken < x.reqLen) && x.next b.node == lmpBytes m.hdr m.body
  | _ => true

/-- A request whose messages have all been served with no answer gets an empty response, unless another node's is awaited. -/
def Block.requestServed (b : Block) (via : Via) : Block :=
  match via with
  | .mailbox ch =>
    let x := b.mboxAt ch
    if x.busy && decide (x.reqLen ≤ x.taken) && x.answer.isNone && !b.lmp.forwards.any (fun f => f.via == via && f.since.isSome) then
      b.lmpSilent via
    else b
  | _ => b

/-- A message on a transport that works and is served (R389, R393, R405): forwarded, refused, or served by `f`. The epoch messages of
channel 63 are served by their own commands. -/
def Block.lmpTake (b : Block) (m : Message) (f : Block → Message → Block) : Block :=
  if !b.viaWorks m.via || !b.served || !b.messageHere m || (m.via == .mailbox 63 && m.fault.isNone) then b
  else
    let b := match m.via with
      | .mailbox ch => b.takeRequest ch
      | _ => b
    let b :=
      if m.node ≠ b.node ∧ m.via ≠ .mailbox 63 then b.forward m
      else match m.fault with
        | some code => b.breakXfer m code
        | none =>
          if answerCommands.contains m.cmd then b.refuseMessage m Abort.noTransfer
          else if m.cmd = 0x0F ∨ m.cmd = 0x8F then b.abortReceived m
          else f (b.supersede m) m
    b.requestServed m.via

/-- A message on a transport. -/
def Block.lmpMessage (b : Block) (m : Message) : Block := b.lmpTake m Block.lmpServe

/-- The header of a row's message: its CMD is the row's, unless the header names a command that no row has. -/
def rowHeader (cmd hdr : Nat) : Nat :=
  if [0x01, 0x02, 0x03, 0x04, 0x05, 0x06, 0x07, 0x08, 0x09, 0x0A, 0x0B, 0x0F].contains (bitsOf hdr 7 0) then putBits hdr 7 0 cmd else hdr

/-- A command of the protocol as a row of the table: the message with that command at time `t`. -/
def lmpEvent (cmd : Nat) (via : Via) (hdr : BitVec 64) (body : List Byte) (t : Nat) (f : Block → Message → Block) (s : State) :
    Host.Outcome State Fault Refusal :=
  let m : Message := ⟨via, rowHeader cmd hdr.toNat, body⟩
  s.answer (wfVia via) (s.blk.event t (fun b => b.lmpTake m f))

/-- LMP_READ. -/
def execLmpRead (via : Via) (hdr : BitVec 64) (body : List Byte) (t : Nat) (s : State) : Host.Outcome State Fault Refusal :=
  lmpEvent 0x01 via hdr body t Block.lmpRead s

/-- LMP_WRITE. -/
def execLmpWrite (via : Via) (hdr : BitVec 64) (body : List Byte) (t : Nat) (s : State) : Host.Outcome State Fault Refusal :=
  lmpEvent 0x02 via hdr body t Block.lmpWrite s

/-- SEG_READ. -/
def execSegRead (via : Via) (hdr : BitVec 64) (body : List Byte) (t : Nat) (s : State) : Host.Outcome State Fault Refusal :=
  lmpEvent 0x03 via hdr body t Block.segRead s

/-- SEG_WRITE. -/
def execSegWrite (via : Via) (hdr : BitVec 64) (body : List Byte) (t : Nat) (s : State) : Host.Outcome State Fault Refusal :=
  lmpEvent 0x04 via hdr body t Block.segWrite s

/-- SEG_DATA. -/
def execSegData (via : Via) (hdr : BitVec 64) (body : List Byte) (t : Nat) (s : State) : Host.Outcome State Fault Refusal :=
  lmpEvent 0x05 via hdr body t Block.segData s

/-- BLK_READ. -/
def execBlkRead (via : Via) (hdr : BitVec 64) (body : List Byte) (t : Nat) (s : State) : Host.Outcome State Fault Refusal :=
  lmpEvent 0x06 via hdr body t Block.blkRead s

/-- BLK_WRITE. -/
def execBlkWrite (via : Via) (hdr : BitVec 64) (body : List Byte) (t : Nat) (s : State) : Host.Outcome State Fault Refusal :=
  lmpEvent 0x07 via hdr body t Block.blkWrite s

/-- BLK_DATA. -/
def execBlkData (via : Via) (hdr : BitVec 64) (body : List Byte) (t : Nat) (s : State) : Host.Outcome State Fault Refusal :=
  lmpEvent 0x08 via hdr body t Block.blkData s

/-- BLK_ACK. -/
def execBlkAck (via : Via) (hdr : BitVec 64) (body : List Byte) (t : Nat) (s : State) : Host.Outcome State Fault Refusal :=
  lmpEvent 0x09 via hdr body t Block.blkAck s

/-- BLK_END. -/
def execBlkEnd (via : Via) (hdr : BitVec 64) (body : List Byte) (t : Nat) (s : State) : Host.Outcome State Fault Refusal :=
  lmpEvent 0x0A via hdr body t Block.blkEnd s

/-- BLK_END_OK. -/
def execBlkEndOk (via : Via) (hdr : BitVec 64) (body : List Byte) (t : Nat) (s : State) : Host.Outcome State Fault Refusal :=
  lmpEvent 0x0B via hdr body t Block.blkEndOk s

/-- ABORT. -/
def execAbort (via : Via) (hdr : BitVec 64) (body : List Byte) (t : Nat) (s : State) : Host.Outcome State Fault Refusal :=
  lmpEvent 0x0F via hdr body t Block.abortReceived s

/-- The rows by which a message of the protocol comes at time `t`. -/
def messageRow (t : Nat) : Instr → Option (State → Host.Outcome State Fault Refusal)
  | .lmpRead v h l t' => atEdge t t' (execLmpRead v h l t')
  | .lmpWrite v h l t' => atEdge t t' (execLmpWrite v h l t')
  | .segRead v h l t' => atEdge t t' (execSegRead v h l t')
  | .segWrite v h l t' => atEdge t t' (execSegWrite v h l t')
  | .segData v h l t' => atEdge t t' (execSegData v h l t')
  | .blkRead v h l t' => atEdge t t' (execBlkRead v h l t')
  | .blkWrite v h l t' => atEdge t t' (execBlkWrite v h l t')
  | .blkData v h l t' => atEdge t t' (execBlkData v h l t')
  | .blkAck v h l t' => atEdge t t' (execBlkAck v h l t')
  | .blkEnd v h l t' => atEdge t t' (execBlkEnd v h l t')
  | .blkEndOk v h l t' => atEdge t t' (execBlkEndOk v h l t')
  | .abort v h l t' => atEdge t t' (execAbort v h l t')
  | _ => none

/-- Whether the message that a transfer waits for comes at the edge of the limit: the transfer goes on or ends there. -/
def State.messageWon (s : State) (via : Via) (t : Nat) : Bool :=
  match s.blk.xfer via, (s.settle (messageRow t)).blk.xfer via with
  | some x, some y => x.since != y.since
  | some _, none => true
  | none, _ => false

/-- LMP_STALL (R393). -/
def execLmpStall (via : Via) (t : Nat) (s : State) : Host.Outcome State Fault Refusal :=
  s.answer (wfVia via) (s.limit (s.messageWon via t) t (s.blk.event t (fun b =>
    match b.xfer via with
    | some x => if x.since + ms (b.reg Reg.lmpStallMs) ≤ b.run then b.abortXfer x Abort.stalled else b
    | none => b)))

/-- The message of a transport, by its number, whose response has been read from a channel of a node. -/
def Block.courierReady (b : Block) (via : Via) (node ch id : Nat) : Option Courier :=
  b.lmp.couriers.find? (fun c => c.via == some via && c.node == node && c.ch == ch && c.id == id && c.stage == .ready)

/-- FORWARD_RESPONSE (R405): a response visible at the edge of the limit is delivered (R26). -/
def execForwardResponse (via : Via) (node ch id t : Nat) (s : State) : Host.Outcome State Fault Refusal :=
  s.answer (wfVia via && wfNode node && wfMbox ch) (s.blk.event t (fun b =>
    match b.forwardOf via node, b.courierReady via node ch id with
    | some f, some c => match f.since with
      | some w => if f.ch = ch ∧ b.run ≤ w + ms (b.reg Reg.fwdLimitMs) then ((b.dropCourier c).returnForward f c.response).launchAll else b
      | none => b
    | _, _ => b))

/-- Whether the response to a forwarded message is visible at the edge of the limit. -/
def State.responseWon (s : State) (via : Via) (t : Nat) : Bool :=
  let u := (s.settle (fun d => match d with
    | .forwardResponse v node ch id t' => atEdge t t' (execForwardResponse v node ch id t')
    | _ => none)).blk
  let waits (b : Block) : Bool := b.lmp.forwards.any (fun f => f.via == via && f.since.isSome)
  waits s.blk && !waits u

/-- FWD_TIMEOUT (R405). -/
def execFwdTimeout (via : Via) (t : Nat) (s : State) : Host.Outcome State Fault Refusal :=
  s.answer (wfVia via) (s.limit (s.responseWon via t) t (s.blk.event t (fun b =>
    match b.lmp.forwards.find? (fun f => f.via == via) with
    | some f => match f.since with
      | some w => if w + ms (b.reg Reg.fwdLimitMs) ≤ b.run then b.abortForward f Abort.fwdTimeout else b
      | none => b
    | none => b)))

/-! CAN frames (R402, R403). -/

/-- The message a frame holds: its padding, which is zero, removed. -/
def frameMessage (port source : Nat) (bytes : List Byte) : Message :=
  let hdr := bytesVal (bytes.take 8)
  let body := bytes.drop 8
  let n := (bodyLength (bitsOf hdr 7 0) (bitsOf hdr 43 40) body).getD body.length
  let fits : Bool := bytes.length == canLength (8 + n) && (body.drop n).all (· == 0)
  ⟨.can port source, hdr, if fits then body.take n else body⟩

/-- A frame received: it is ignored unless it is an FD frame with an extended identifier, and a request to this node (R402). Any frame
received without an error lowers REC. -/
def Block.canFrame (b : Block) (port : Nat) (form : CanForm) (id : Nat) (bytes : List Byte) : Block :=
  if !b.canWorks port then b
  else
    let b := b.canReceived port
    if form ≠ .fdExtended ∨ id.testBit 0 ∨ bitsOf id 28 25 ≠ 3 ∨ bitsOf id 24 13 ≠ b.node then b.count (Reg.framesIgnored port) 1
    else
      let b := b.count (Reg.framesRx port) 1
      let m := frameMessage port (bitsOf id 12 1) bytes
      if bytes.length < 8 then b.refuseMessage m Abort.badMessage else b.lmpMessage m

/-- LMP_REQ. -/
def execLmpReq (port : Nat) (id : CanId) (bytes : List Byte) (t : Nat) (s : State) : Host.Outcome State Fault Refusal :=
  s.answer (wfPort port) (s.blk.event t (fun b => b.canFrame port id.form id.id.toNat bytes))

end Sys2Proof.Machine
end

