-- ==== Sys2Proof/Machine/Ports.lean ====
section
/-! DEFINITION. The CAN ports' errors and heartbeat (R402, R404), the USB4 port and its endpoint (R397 to R401), and the JTAG
port (R517 to R519). -/

namespace Sys2Proof.Machine

open Sys2Proof

/-! CAN. -/

/-- The port stops driving the bus and begins recovery at once. -/
def Block.busOff (b : Block) (port : Nat) : Block := (b.count (Reg.busOffs port) 1).setReg (Reg.busState port) 2

/-- CAN_BUS_ERROR (R404): the counters after the error; error passive from 128 of either on, bus-off from a TEC of 256 on. -/
def execCanBusError (port tec rec t : Nat) (s : State) : Host.Outcome State Fault Refusal :=
  s.answer (wfPort port) (s.blk.eventIf t (fun b => b.canWorks port) (fun b =>
    let b := (b.setRegs [(Reg.tec port, min tec 255), (Reg.rec port, min rec 255)]).canState port
    if 255 < tec then b.busOff port else b))

/-- BUS_OFF (R404). -/
def execBusOff (port t : Nat) (s : State) : Host.Outcome State Fault Refusal :=
  s.answer (wfPort port) (s.blk.eventIf t (fun b => b.canWorks port) (fun b => b.busOff port))

/-- BUS_OFF_RECOVERY (R404): error active again, both counters at 0. -/
def execBusOffRecovery (port t : Nat) (s : State) : Host.Outcome State Fault Refusal :=
  s.answer (wfPort port) (s.blk.eventIf t (fun b => b.reg (Reg.busState port) == 2) (fun b =>
    b.setRegs [(Reg.busState port, 0), (Reg.tec port, 0), (Reg.rec port, 0)]))

/-- Whether a heartbeat of a port is due: HEARTBEAT_MS since the last. -/
def Block.heartbeatDue (b : Block) (p : Nat) : Bool :=
  let last := b.lmp.heartbeat.look p
  b.canWorks p && b.served && b.reg (Reg.heartbeatMs p) != 0 &&
    (last == 0 || decide (last - 1 + ms (b.reg (Reg.heartbeatMs p)) ≤ b.run))

/-- HEARTBEAT (R402): CFG_STATE, the timestamp and three zero bytes. The manual names no TARGET: it is a free value. -/
def execHeartbeat (port t : Nat) (s : State) : Host.Outcome State Fault Refusal :=
  s.answer (wfPort port) (s.blk.eventIf t (fun b => b.heartbeatDue port) (fun b =>
    let r := b.draw
    let b := { r.2 with lmp := { r.2.lmp with heartbeat := r.2.lmp.heartbeat.put port (r.2.run + 1) } }
    b.canSend port 5 (r.1 % 4096) (bytesOf 1 (b.reg Reg.cfgState) ++ bytesOf 8 b.ts ++ bytesOf 3 0)))

/-! USB4 and the endpoint. -/

/-- Whether the port may connect (R401, Table 11.12). -/
def Block.usbAllowed (b : Block) : Bool :=
  b.reg Reg.usb4Enable == 1 && (b.started || b.reg Reg.modePins == 4 || b.fuses.paths.testBit 0) && b.reg Reg.usb4State != 2

/-- USB4_CONNECT (R397): the link at a generation, the tunnel up, and what the host enables of the endpoint. -/
def execUsb4Connect (gen : Nat) (bme msix : Bool) (s : State) : Host.Outcome State Fault Refusal :=
  s.answer (decide (2 ≤ gen ∧ gen ≤ 4))
    (if s.blk.clocked && s.blk.usbAllowed then
       { s.blk.setRegs [(Reg.usb4State, 2), (Reg.usb4Gen, gen), (Reg.pcieUp, 1), (Reg.msixEnabled, b2n msix)] with
         lmp := { s.blk.lmp with bme := bme } }
     else s.blk)

/-- USB4_DISCONNECT (R401): the host side drops the link. -/
def execUsb4Disconnect (s : State) : Host.Outcome State Fault Refusal :=
  s.answer true (if s.blk.reg Reg.usb4State = 0 then s.blk else s.blk.usb4Drop)

/-- VECTOR_UNMASK (R399): the pending message, if there is one, is sent. -/
def execVectorUnmask (v : Nat) (s : State) : Host.Outcome State Fault Refusal :=
  s.answer (wfVector v) (if s.blk.reg Reg.pcieUp = 1 then s.blk.maskVector v false else s.blk)

/-- BAR_WRITE_ERROR (R400): counted and logged, and no PCIe error message sent. A write that leaves as a transaction is counted when its
completion comes; this is the error of a write whose completion is no flit (a doorbell, a mailbox register). -/
def execBarWriteError (off status t : Nat) (s : State) : Host.Outcome State Fault Refusal :=
  s.answer true (s.blk.eventIf t (fun b => b.reg Reg.pcieUp == 1 && status % 16 != Status.ok) (fun b =>
    b.barWriteError off status))

/-! JTAG (R517 to R519). -/

/-- Cells of the boundary register. -/
abbrev boundaryCells : Nat := 1637

/-- The identification register: DIE_STEP of L0 in its bits [31:28]. -/
def Block.idcodeWord (b : Block) : Nat :=
  nthD b.fuses.dieStep 0 0 % 16 * 2 ^ 28 + 0x0907 * 2 ^ 12 + 0x6F2 * 2 + 1

/-- The block with its TAP changed; the port needs no clock of the device, and PORn low holds it in reset (R518). -/
def Block.tap (b : Block) (f : Jtag → Jtag) : Block := if b.clk.mode == .por then b else { b with jtag := f b.jtag }

/-- An instruction that drives the pins from the boundary register: it takes effect only where R518 lets it control pins, and
acts as BYPASS elsewhere. The levels it drives are sent outside. -/
def Block.drivePins (b : Block) (code bits : Nat) : Block :=
  let b := b.tap (fun j => { j with ir := code, shift := 0 })
  if b.pinsHeld then
    (b.tap (fun j => { j with boundary := bits % 2 ^ boundaryCells, shift := bits % 2 ^ boundaryCells })).emit .pin 3
      [code, bits % 2 ^ boundaryCells]
  else b

/-- An instruction that controls pins and selects the bypass register. -/
def Block.holdPins (b : Block) (code bits : Nat) : Block :=
  let b := b.tap (fun j => { j with ir := code, shift := 0 })
  if b.pinsHeld then b.emit .pin 3 [code, bits] else b

/-- EXTEST. -/
def execExtest (bits : Nat) (s : State) : Host.Outcome State Fault Refusal := s.answer true (s.blk.drivePins 0x00 bits)

/-- EXTEST_PULSE. -/
def execExtestPulse (bits : Nat) (s : State) : Host.Outcome State Fault Refusal := s.answer true (s.blk.drivePins 0x0C bits)

/-- EXTEST_TRAIN. -/
def execExtestTrain (bits : Nat) (s : State) : Host.Outcome State Fault Refusal := s.answer true (s.blk.drivePins 0x0D bits)

/-- CLAMP: the pins stay at what the boundary register holds. -/
def execClamp (s : State) : Host.Outcome State Fault Refusal := s.answer true (s.blk.holdPins 0x04 s.blk.jtag.boundary)

/-- HIGHZ: the outputs float. -/
def execHighz (s : State) : Host.Outcome State Fault Refusal := s.answer true (s.blk.holdPins 0x05 0)

/-- IDCODE. -/
def execIdcode (s : State) : Host.Outcome State Fault Refusal :=
  s.answer true (s.blk.tap (fun j => { j with ir := 0x01, shift := s.blk.idcodeWord }))

/-- SAMPLE/PRELOAD: the pins are captured, and the boundary register loaded. -/
def execSamplePreload (pins bits : Nat) (s : State) : Host.Outcome State Fault Refusal :=
  s.answer true (s.blk.tap (fun _ => Jtag.mk 0x02 (bits % 2 ^ boundaryCells) (pins % 2 ^ boundaryCells)))

/-- BYPASS. -/
def execBypass (s : State) : Host.Outcome State Fault Refusal :=
  s.answer true (s.blk.tap (fun j => { j with ir := 0xFF, shift := 0 }))

/-- TRSTn: Test-Logic-Reset, which selects the identification register (IEEE 1149.1). -/
def execTrstn (s : State) : Host.Outcome State Fault Refusal :=
  s.answer true { s.blk with jtag := { s.blk.jtag with ir := 0x01 } }

end Sys2Proof.Machine
end

