-- ==== Sys2Proof/Machine/Dispatch.lean ====
section
/-! DEFINITION. One arm per command: the meaning of each. -/

namespace Sys2Proof.Machine

open Sys2Proof

def exec (i : Instr) (s : State) : Host.Outcome State Fault Refusal :=
  match i with
  | .registerWrite via idx sub len val => Sys2Proof.Machine.execRegisterWrite via idx sub len val s
  | .globalAccess ini addr size write data fromLink t => Sys2Proof.Machine.execGlobalAccess ini addr size write data fromLink t s
  | .lateCompletion ini tag status beats => Sys2Proof.Machine.execLateCompletion ini tag status beats s
  | .fabricEdge t => Sys2Proof.Machine.execFabricEdge t s
  | .regionReset r v => Sys2Proof.Machine.execRegionReset r v s
  | .load who r slot src kernel image sig map => Sys2Proof.Machine.execLoad who r slot src kernel image sig map s
  | .loadEngineStart die => Sys2Proof.Machine.execLoadEngineStart die s
  | .loadEnd r slot t => Sys2Proof.Machine.execLoadEnd r slot t s
  | .prefetch who r slot => Sys2Proof.Machine.execPrefetch who r slot s
  | .prefetchEnd r t => Sys2Proof.Machine.execPrefetchEnd r t s
  | .switch who rs => Sys2Proof.Machine.execSwitch who rs s
  | .switchEdge r t => Sys2Proof.Machine.execSwitchEdge r t s
  | .writeBack r t => Sys2Proof.Machine.execWriteBack r t s
  | .clear who r slot => Sys2Proof.Machine.execClear who r slot s
  | .clearEnd r slot t => Sys2Proof.Machine.execClearEnd r slot t s
  | .copy who r slot fromR fromSlot => Sys2Proof.Machine.execCopy who r slot fromR fromSlot s
  | .copyEnd r slot t => Sys2Proof.Machine.execCopyEnd r slot t s
  | .captureReq r v => Sys2Proof.Machine.execCaptureReq r v s
  | .captureEdge r t => Sys2Proof.Machine.execCaptureEdge r t s
  | .captureEnd r t => Sys2Proof.Machine.execCaptureEnd r t s
  | .pinMask r v => Sys2Proof.Machine.execPinMask r v s
  | .borderMap r slot map => Sys2Proof.Machine.execBorderMap r slot map s
  | .memoryRequest r tag write line mask data t => Sys2Proof.Machine.execMemoryRequest r tag write line mask data t s
  | .memoryCompletion r tag t => Sys2Proof.Machine.execMemoryCompletion r tag t s
  | .streamOutPacket r ch beats t => Sys2Proof.Machine.execStreamOutPacket r ch beats t s
  | .streamInPacket r sb beats taken t => Sys2Proof.Machine.execStreamInPacket r sb beats taken t s
  | .doneEnd r w t => Sys2Proof.Machine.execDoneEnd r w t s
  | .doneYield r w t => Sys2Proof.Machine.execDoneYield r w t s
  | .donePhase r w t => Sys2Proof.Machine.execDonePhase r w t s
  | .regionNap r t => Sys2Proof.Machine.execRegionNap r t s
  | .regionSleep r t => Sys2Proof.Machine.execRegionSleep r t s
  | .regionWakeEnd r t => Sys2Proof.Machine.execRegionWakeEnd r t s
  | .runEnd run t => Sys2Proof.Machine.execRunEnd run t s
  | .shootdownCmd v => Sys2Proof.Machine.execShootdownCmd v s
  | .bankWipe bank => Sys2Proof.Machine.execBankWipe bank s
  | .frameWipe frame => Sys2Proof.Machine.execFrameWipe frame s
  | .wipeComplete t => Sys2Proof.Machine.execWipeComplete t s
  | .patrolVisit t => Sys2Proof.Machine.execPatrolVisit t s
  | .repairWalkEnd bank t => Sys2Proof.Machine.execRepairWalkEnd bank t s
  | .retireBank bank t => Sys2Proof.Machine.execRetireBank bank t s
  | .counterClear bank v => Sys2Proof.Machine.execCounterClear bank v s
  | .bankRetire bank t => Sys2Proof.Machine.execBankRetire bank t s
  | .dmaProd ch v => Sys2Proof.Machine.execDmaProd ch v s
  | .dmaDescriptor ch t => Sys2Proof.Machine.execDmaDescriptor ch t s
  | .dmaDescriptorEnd ch t => Sys2Proof.Machine.execDmaDescriptorEnd ch t s
  | .dmaResume ch => Sys2Proof.Machine.execDmaResume ch s
  | .dmaAbort ch => Sys2Proof.Machine.execDmaAbort ch s
  | .dmaReset ch => Sys2Proof.Machine.execDmaReset ch s
  | .dmaEnable ch v => Sys2Proof.Machine.execDmaEnable ch v s
  | .kernelUpdate k => Sys2Proof.Machine.execKernelUpdate k s
  | .sqProd ring v => Sys2Proof.Machine.execSqProd ring v s
  | .cqCons ring v => Sys2Proof.Machine.execCqCons ring v s
  | .intake ring t => Sys2Proof.Machine.execIntake ring t s
  | .completionRecord run t => Sys2Proof.Machine.execCompletionRecord run t s
  | .notBeforeDue t => Sys2Proof.Machine.execNotBeforeDue t s
  | .dispatchEvaluation k t => Sys2Proof.Machine.execDispatchEvaluation k t s
  | .startEdge run t => Sys2Proof.Machine.execStartEdge run t s
  | .reserve k prio t => Sys2Proof.Machine.execReserve k prio t s
  | .preemption run t => Sys2Proof.Machine.execPreemption run t s
  | .preemptCancel run t => Sys2Proof.Machine.execPreemptCancel run t s
  | .runAbort run t => Sys2Proof.Machine.execRunAbort run t s
  | .thiefRound k t => Sys2Proof.Machine.execThiefRound k t s
  | .runRetired run t => Sys2Proof.Machine.execRunRetired run t s
  | .scarabTrap k addr t => Sys2Proof.Machine.execScarabTrap k addr t s
  | .scarabDrain k => Sys2Proof.Machine.execScarabDrain k s
  | .scarabHalted k t => Sys2Proof.Machine.execScarabHalted k t s
  | .scarabRestart k t => Sys2Proof.Machine.execScarabRestart k t s
  | .proposalPop v => Sys2Proof.Machine.execProposalPop v s
  | .place run anchor t => Sys2Proof.Machine.execPlace run anchor t s
  | .steal run target t => Sys2Proof.Machine.execSteal run target t s
  | .preempt run t => Sys2Proof.Machine.execPreempt run t s
  | .sample k entry die t => Sys2Proof.Machine.execSample k entry die t s
  | .epochEnd t => Sys2Proof.Machine.execEpochEnd t s
  | .poolAdd frame => Sys2Proof.Machine.execPoolAdd frame s
  | .poolAddEnd t => Sys2Proof.Machine.execPoolAddEnd t s
  | .poolRemove frame => Sys2Proof.Machine.execPoolRemove frame s
  | .migrationStart k t => Sys2Proof.Machine.execMigrationStart k t s
  | .migrationStepDone m t => Sys2Proof.Machine.execMigrationStepDone m t s
  | .migrationAbandon m cause t => Sys2Proof.Machine.execMigrationAbandon m cause t s
  | .migrationTimeout m t => Sys2Proof.Machine.execMigrationTimeout m t s
  | .hmigGo v t => Sys2Proof.Machine.execHmigGo v t s
  | .hmigCancel m t => Sys2Proof.Machine.execHmigCancel m t s
  | .propPop v => Sys2Proof.Machine.execPropPop v s
  | .drainScan bank t => Sys2Proof.Machine.execDrainScan bank t s
  | .read flit t => Sys2Proof.Machine.execRead flit t s
  | .write flit t => Sys2Proof.Machine.execWrite flit t s
  | .cas flit t => Sys2Proof.Machine.execCas flit t s
  | .wdata sb beats t => Sys2Proof.Machine.execWdata sb beats t s
  | .rdata sb beats t => Sys2Proof.Machine.execRdata sb beats t s
  | .stream sb beats t => Sys2Proof.Machine.execStream sb beats t s
  | .wcomp flit t => Sys2Proof.Machine.execWcomp flit t s
  | .rcomp flit t => Sys2Proof.Machine.execRcomp flit t s
  | .sack flit t => Sys2Proof.Machine.execSack flit t s
  | .ledger flit t => Sys2Proof.Machine.execLedger flit t s
  | .shootdown hdr entry => Sys2Proof.Machine.execShootdown hdr entry s
  | .migFence hdr entry => Sys2Proof.Machine.execMigFence hdr entry s
  | .migLift hdr entry => Sys2Proof.Machine.execMigLift hdr entry s
  | .seamFence hdr => Sys2Proof.Machine.execSeamFence hdr s
  | .trackerArm hdr frame => Sys2Proof.Machine.execTrackerArm hdr frame s
  | .trackerTake hdr => Sys2Proof.Machine.execTrackerTake hdr s
  | .trackerDisarm hdr => Sys2Proof.Machine.execTrackerDisarm hdr s
  | .frameReq hdr => Sys2Proof.Machine.execFrameReq hdr s
  | .release hdr frame => Sys2Proof.Machine.execRelease hdr frame s
  | .trackerArmed hdr t => Sys2Proof.Machine.execTrackerArmed hdr t s
  | .trackerBits hdr bits t => Sys2Proof.Machine.execTrackerBits hdr bits t s
  | .frameGrant hdr frame t => Sys2Proof.Machine.execFrameGrant hdr frame t s
  | .hdrDiscard station net t => Sys2Proof.Machine.execHdrDiscard station net t s
  | .stationGate station t => Sys2Proof.Machine.execStationGate station t s
  | .statsClear v => Sys2Proof.Machine.execStatsClear v s
  | .detectPass l t => Sys2Proof.Machine.execDetectPass l t s
  | .eqPass l t => Sys2Proof.Machine.execEqPass l t s
  | .cdrPass l t => Sys2Proof.Machine.execCdrPass l t s
  | .alignPass l found t => Sys2Proof.Machine.execAlignPass l found t s
  | .polarityPass l t => Sys2Proof.Machine.execPolarityPass l t s
  | .orderPass lk t => Sys2Proof.Machine.execOrderPass lk t s
  | .deskewPass lk arrivals t => Sys2Proof.Machine.execDeskewPass lk arrivals t s
  | .fecPass l t => Sys2Proof.Machine.execFecPass l t s
  | .laneUp l t => Sys2Proof.Machine.execLaneUp l t s
  | .stageFail l t => Sys2Proof.Machine.execStageFail l t s
  | .codeword l syms t => Sys2Proof.Machine.execCodeword l syms t s
  | .train l hdr blk t => Sys2Proof.Machine.execTrain l hdr blk t s
  | .idle l hdr blk t => Sys2Proof.Machine.execIdle l hdr blk t s
  | .eios l blk t => Sys2Proof.Machine.execEios l blk t s
  | .keepalive lk blk t => Sys2Proof.Machine.execKeepalive lk blk t s
  | .cdrLoss l t => Sys2Proof.Machine.execCdrLoss l t s
  | .signalLoss l t => Sys2Proof.Machine.execSignalLoss l t s
  | .alignmentLoss l t => Sys2Proof.Machine.execAlignmentLoss l t s
  | .trainingBurst burst t => Sys2Proof.Machine.execTrainingBurst burst t s
  | .laneEn l v t => Sys2Proof.Machine.execLaneEn l v t s
  | .laneRestart l t => Sys2Proof.Machine.execLaneRestart l t s
  | .step l t => Sys2Proof.Machine.execStep l t s
  | .test l t => Sys2Proof.Machine.execTest l t s
  | .testStop l t => Sys2Proof.Machine.execTestStop l t s
  | .eyeGo l v => Sys2Proof.Machine.execEyeGo l v s
  | .eyeCountEnd l errors t => Sys2Proof.Machine.execEyeCountEnd l errors t s
  | .req lk c t => Sys2Proof.Machine.execReq lk c t s
  | .headW lk c t => Sys2Proof.Machine.execHeadW lk c t s
  | .mask lk c t => Sys2Proof.Machine.execMask lk c t s
  | .dataW lk c t => Sys2Proof.Machine.execDataW lk c t s
  | .dataWP lk c t => Sys2Proof.Machine.execDataWP lk c t s
  | .abortW lk c t => Sys2Proof.Machine.execAbortW lk c t s
  | .headD lk c t => Sys2Proof.Machine.execHeadD lk c t s
  | .dataD lk c t => Sys2Proof.Machine.execDataD lk c t s
  | .dataDP lk c t => Sys2Proof.Machine.execDataDP lk c t s
  | .tailD lk c t => Sys2Proof.Machine.execTailD lk c t s
  | .rsp lk c t => Sys2Proof.Machine.execRsp lk c t s
  | .null lk c t => Sys2Proof.Machine.execNull lk c t s
  | .snpK lk c t => Sys2Proof.Machine.execSnpK lk c t s
  | .snpA lk c t => Sys2Proof.Machine.execSnpA lk c t s
  | .ack lk blk t => Sys2Proof.Machine.execAck lk blk t s
  | .nak lk blk t => Sys2Proof.Machine.execNak lk blk t s
  | .init lk blk t => Sys2Proof.Machine.execInit lk blk t s
  | .lanes lk blk t => Sys2Proof.Machine.execLanes lk blk t s
  | .flush lk blk t => Sys2Proof.Machine.execFlush lk blk t s
  | .flushAck lk blk t => Sys2Proof.Machine.execFlushAck lk blk t s
  | .flushStart lk v t => Sys2Proof.Machine.execFlushStart lk v t s
  | .timeReq lk blk t frac turn => Sys2Proof.Machine.execTimeReq lk blk t frac turn s
  | .timeRsp lk blk t frac => Sys2Proof.Machine.execTimeRsp lk blk t frac s
  | .idleReq lk blk t => Sys2Proof.Machine.execIdleReq lk blk t s
  | .idleAck lk blk t => Sys2Proof.Machine.execIdleAck lk blk t s
  | .ackTimer lk t => Sys2Proof.Machine.execAckTimer lk t s
  | .nakRepeat lk t => Sys2Proof.Machine.execNakRepeat lk t s
  | .replayTimeout lk t => Sys2Proof.Machine.execReplayTimeout lk t s
  | .keepaliveTimer lk t => Sys2Proof.Machine.execKeepaliveTimer lk t s
  | .keepaliveTimeout lk t => Sys2Proof.Machine.execKeepaliveTimeout lk t s
  | .signalLossTimeout lk t => Sys2Proof.Machine.execSignalLossTimeout lk t s
  | .linkIdleTimer lk t => Sys2Proof.Machine.execLinkIdleTimer lk t s
  | .idleKeepaliveExit lk t => Sys2Proof.Machine.execIdleKeepaliveExit lk t s
  | .idleExitTimeout lk t => Sys2Proof.Machine.execIdleExitTimeout lk t s
  | .holdoffExpiry node lk t => Sys2Proof.Machine.execHoldoffExpiry node lk t s
  | .adaptSwitch node t => Sys2Proof.Machine.execAdaptSwitch node t s
  | .nodeLost node t => Sys2Proof.Machine.execNodeLost node t s
  | .nodeId v => Sys2Proof.Machine.execNodeId v s
  | .timeInterval t frac => Sys2Proof.Machine.execTimeInterval t frac s
  | .timeRspTimeout t => Sys2Proof.Machine.execTimeRspTimeout t s
  | .frame bytes t => Sys2Proof.Machine.execFrame bytes t s
  | .pushWrite off bytes t => Sys2Proof.Machine.execPushWrite off bytes t s
  | .imageLimit t => Sys2Proof.Machine.execImageLimit t s
  | .pushLimit t => Sys2Proof.Machine.execPushLimit t s
  | .globalStart t => Sys2Proof.Machine.execGlobalStart t s
  | .pkgContextInstall t => Sys2Proof.Machine.execPkgContextInstall t s
  | .pkgFwInstallA t => Sys2Proof.Machine.execPkgFwInstallA t s
  | .pkgFwInstallB t => Sys2Proof.Machine.execPkgFwInstallB t s
  | .pkgUcodeStage t => Sys2Proof.Machine.execPkgUcodeStage t s
  | .pkgUcodeLoad t => Sys2Proof.Machine.execPkgUcodeLoad t s
  | .packageEnd t => Sys2Proof.Machine.execPackageEnd t s
  | .fuseProgramSlot t => Sys2Proof.Machine.execFuseProgramSlot t s
  | .fuseRevoke t => Sys2Proof.Machine.execFuseRevoke t s
  | .fuseSetImageKey t => Sys2Proof.Machine.execFuseSetImageKey t s
  | .fuseRollback t => Sys2Proof.Machine.execFuseRollback t s
  | .fuseSetMgmtPaths t => Sys2Proof.Machine.execFuseSetMgmtPaths t s
  | .fuseDone t => Sys2Proof.Machine.execFuseDone t s
  | .attestGo v t => Sys2Proof.Machine.execAttestGo v t s
  | .attestDone t => Sys2Proof.Machine.execAttestDone t s
  | .lmpRead via hdr body t => Sys2Proof.Machine.execLmpRead via hdr body t s
  | .lmpWrite via hdr body t => Sys2Proof.Machine.execLmpWrite via hdr body t s
  | .segRead via hdr body t => Sys2Proof.Machine.execSegRead via hdr body t s
  | .segWrite via hdr body t => Sys2Proof.Machine.execSegWrite via hdr body t s
  | .segData via hdr body t => Sys2Proof.Machine.execSegData via hdr body t s
  | .blkRead via hdr body t => Sys2Proof.Machine.execBlkRead via hdr body t s
  | .blkWrite via hdr body t => Sys2Proof.Machine.execBlkWrite via hdr body t s
  | .blkData via hdr body t => Sys2Proof.Machine.execBlkData via hdr body t s
  | .blkAck via hdr body t => Sys2Proof.Machine.execBlkAck via hdr body t s
  | .blkEnd via hdr body t => Sys2Proof.Machine.execBlkEnd via hdr body t s
  | .blkEndOk via hdr body t => Sys2Proof.Machine.execBlkEndOk via hdr body t s
  | .abort via hdr body t => Sys2Proof.Machine.execAbort via hdr body t s
  | .lmpStall via t => Sys2Proof.Machine.execLmpStall via t s
  | .msgLen ini ch v => Sys2Proof.Machine.execMsgLen ini ch v s
  | .rspDone ini ch v => Sys2Proof.Machine.execRspDone ini ch v s
  | .mailboxResponse ch t => Sys2Proof.Machine.execMailboxResponse ch t s
  | .lmpReq port id bytes t => Sys2Proof.Machine.execLmpReq port id bytes t s
  | .heartbeat port t => Sys2Proof.Machine.execHeartbeat port t s
  | .busOff port t => Sys2Proof.Machine.execBusOff port t s
  | .forwardResponse via node ch id t => Sys2Proof.Machine.execForwardResponse via node ch id t s
  | .fwdTimeout via t => Sys2Proof.Machine.execFwdTimeout via t s
  | .barWriteError off status t => Sys2Proof.Machine.execBarWriteError off status t s
  | .usb4Enable via v => Sys2Proof.Machine.execUsb4Enable via v s
  | .commitGo v t => Sys2Proof.Machine.execCommitGo v t s
  | .deviceCommit t => Sys2Proof.Machine.execDeviceCommit t s
  | .unitReply u code abort t => Sys2Proof.Machine.execUnitReply u code abort t s
  | .commitWindow t => Sys2Proof.Machine.execCommitWindow t s
  | .epochApply t => Sys2Proof.Machine.execEpochApply t s
  | .commitRetry t => Sys2Proof.Machine.execCommitRetry t s
  | .prepare epoch groups coord t => Sys2Proof.Machine.execPrepare epoch groups coord t s
  | .prepared node epoch reply code t => Sys2Proof.Machine.execPrepared node epoch reply code t s
  | .apply epoch applyAt t => Sys2Proof.Machine.execApply epoch applyAt t s
  | .abortEpoch epoch t => Sys2Proof.Machine.execAbortEpoch epoch t s
  | .query node epoch => Sys2Proof.Machine.execQuery node epoch s
  | .queryOk epoch outcome applyAt t => Sys2Proof.Machine.execQueryOk epoch outcome applyAt t s
  | .applyWait t => Sys2Proof.Machine.execApplyWait t s
  | .resolveApply t => Sys2Proof.Machine.execResolveApply t s
  | .resolveDiscard t => Sys2Proof.Machine.execResolveDiscard t s
  | .fabricDiv v t => Sys2Proof.Machine.execFabricDiv v t s
  | .throttleDecay t => Sys2Proof.Machine.execThrottleDecay t s
  | .wakeRequest rail unit prio t => Sys2Proof.Machine.execWakeRequest rail unit prio t s
  | .wakeGrant t => Sys2Proof.Machine.execWakeGrant t s
  | .wgGrant v => Sys2Proof.Machine.execWgGrant v s
  | .hostWakeLimit rail unit t => Sys2Proof.Machine.execHostWakeLimit rail unit t s
  | .hibernate v t => Sys2Proof.Machine.execHibernate v t s
  | .wakeSource src unit t => Sys2Proof.Machine.execWakeSource src unit t s
  | .stop cause rails t => Sys2Proof.Machine.execStop cause rails t s
  | .stopRestart t => Sys2Proof.Machine.execStopRestart t s
  | .powerOnReset => Sys2Proof.Machine.execPowerOnReset s
  | .porRelease mode nid rails => Sys2Proof.Machine.execPorRelease mode nid rails s
  | .rstnLow t => Sys2Proof.Machine.execRstnLow t s
  | .deviceResetRelease mode t => Sys2Proof.Machine.execDeviceResetRelease mode t s
  | .deviceReset v t => Sys2Proof.Machine.execDeviceReset v t s
  | .dieReset layer t => Sys2Proof.Machine.execDieReset layer t s
  | .drainWindowEnd t => Sys2Proof.Machine.execDrainWindowEnd t s
  | .dieRelease t => Sys2Proof.Machine.execDieRelease t s
  | .dieReady t => Sys2Proof.Machine.execDieReady t s
  | .fenceLower t => Sys2Proof.Machine.execFenceLower t s
  | .thermalSample raws t => Sys2Proof.Machine.execThermalSample raws t s
  | .sampleInForce t => Sys2Proof.Machine.execSampleInForce t s
  | .thermalTrip sensor t => Sys2Proof.Machine.execThermalTrip sensor t s
  | .weevilVisit seam group visits t => Sys2Proof.Machine.execWeevilVisit seam group visits t s
  | .exhaustionWindowEnd t => Sys2Proof.Machine.execExhaustionWindowEnd t s
  | .bondTest visits t => Sys2Proof.Machine.execBondTest visits t s
  | .bondRetire t => Sys2Proof.Machine.execBondRetire t s
  | .hostBondLimit seam group t => Sys2Proof.Machine.execHostBondLimit seam group t s
  | .ladybirdVisit die k t => Sys2Proof.Machine.execLadybirdVisit die k t s
  | .latchRefresh t => Sys2Proof.Machine.execLatchRefresh t s
  | .ladybirdTakeover die stalled t => Sys2Proof.Machine.execLadybirdTakeover die stalled t s
  | .ladybirdsDown die t => Sys2Proof.Machine.execLadybirdsDown die t s
  | .ledgerTimeout ini tag t => Sys2Proof.Machine.execLedgerTimeout ini tag t s
  | .logClear v => Sys2Proof.Machine.execLogClear v s
  | .fwSwitch v t => Sys2Proof.Machine.execFwSwitch v t s
  | .fwHandoverEnd t => Sys2Proof.Machine.execFwHandoverEnd t s
  | .writeStream bytes t => Sys2Proof.Machine.execWriteStream bytes t s
  | .writeStreamQ bytes t => Sys2Proof.Machine.execWriteStreamQ bytes t s
  | .readStatus => Sys2Proof.Machine.execReadStatus s
  | .readNext => Sys2Proof.Machine.execReadNext s
  | .parallelWord pcsn pvalid w t => Sys2Proof.Machine.execParallelWord pcsn pvalid w t s
  | .unitCheckEnd t => Sys2Proof.Machine.execUnitCheckEnd t s
  | .extest bits => Sys2Proof.Machine.execExtest bits s
  | .idcode => Sys2Proof.Machine.execIdcode s
  | .samplePreload pins bits => Sys2Proof.Machine.execSamplePreload pins bits s
  | .clamp => Sys2Proof.Machine.execClamp s
  | .highz => Sys2Proof.Machine.execHighz s
  | .extestPulse bits => Sys2Proof.Machine.execExtestPulse bits s
  | .extestTrain bits => Sys2Proof.Machine.execExtestTrain bits s
  | .bypass => Sys2Proof.Machine.execBypass s
  | .trstn => Sys2Proof.Machine.execTrstn s
  | .powerBondAlarm seam t => Sys2Proof.Machine.execPowerBondAlarm seam t s
  | .crcFailure lk t => Sys2Proof.Machine.execCrcFailure lk t s
  | .exitWindowExpiry l t => Sys2Proof.Machine.execExitWindowExpiry l t s
  | .checkerLock l t => Sys2Proof.Machine.execCheckerLock l t s
  | .checkerLockLoss l bits errors t => Sys2Proof.Machine.execCheckerLockLoss l bits errors t s
  | .canBusError port tec rec t => Sys2Proof.Machine.execCanBusError port tec rec t s
  | .busOffRecovery port t => Sys2Proof.Machine.execBusOffRecovery port t s
  | .usb4Connect gen bme msix => Sys2Proof.Machine.execUsb4Connect gen bme msix s
  | .usb4Disconnect => Sys2Proof.Machine.execUsb4Disconnect s
  | .vectorUnmask v => Sys2Proof.Machine.execVectorUnmask v s
  | .packageHeader bytes t => Sys2Proof.Machine.execPackageHeader bytes t s
  | .resetTakesEffect t => Sys2Proof.Machine.execResetTakesEffect t s
  | .epochAcknowledgement node epoch applied t => Sys2Proof.Machine.execEpochAcknowledgement node epoch applied t s

end Sys2Proof.Machine
end

