-- ==== Sys2Proof/Safety.lean ====
section
/-! DEFINITION. What a run of the machine is, and when it is safe. -/

namespace Sys2Proof

/-- Whether a command is an event that a limit waits for, or that is judged first where it falls at the same edge (R26, R27, R29). -/
def Instr.awaited : Instr → Bool
  | .frame .. | .pushWrite .. | .writeStream .. | .writeStreamQ .. | .parallelWord .. | .unitReply .. | .prepared ..
  | .apply .. | .abortEpoch .. | .queryOk .. | .wcomp .. | .rcomp .. | .rdata .. | .sack .. | .trackerArmed ..
  | .trackerBits .. | .frameGrant .. | .tailD .. | .rsp .. | .snpA .. | .init .. | .idleExitTimeout ..
  | .keepaliveTimeout .. | .signalLossTimeout .. | .flushStart .. | .bondRetire .. | .detectPass .. | .eqPass ..
  | .cdrPass .. | .alignPass .. | .polarityPass .. | .orderPass .. | .deskewPass .. | .fecPass .. | .laneUp ..
  | .trainingBurst .. | .req .. | .headW .. | .mask .. | .dataW .. | .dataWP .. | .abortW .. | .headD .. | .dataD ..
  | .dataDP .. | .null .. | .snpK .. | .keepalive .. | .ack .. | .timeRsp .. | .lmpRead .. | .lmpWrite .. | .segRead ..
  | .segWrite .. | .segData .. | .blkRead .. | .blkWrite .. | .blkData .. | .blkAck .. | .blkEnd .. | .blkEndOk ..
  | .abort .. | .forwardResponse .. | .migrationStepDone .. | .startEdge .. | .doneEnd .. | .runEnd .. | .preemption ..
  | .preemptCancel .. | .runRetired .. | .copyEnd .. | .wgGrant .. => true
  | _ => false

end Sys2Proof

namespace Sys2Proof.Machine

open Sys2Proof

/-- Reachable in steps, each of which answered a next state. -/
inductive Reaches : State → State → Prop where
  | refl (s : State) : Reaches s s
  | tail {s t u : State} : Reaches s t → step t = .next u → Reaches s u

/-- A step that neither faults nor refuses. -/
def stepsOn (s : State) : Prop := ∃ t, step s = .next t

/-- Every command waiting names units that the device has. -/
def State.wellPending (s : State) : Prop := ∀ c ∈ s.pending, Instr.wf c = true

/-- The state after a command: the same commands still wait, and the block is `b`. -/
def State.becomes (s : State) (b : Block) : State := { s with blk := b }

/-- The block as an engine's work finds it: no access of that work has yet met a wipe (R155). -/
def Block.unstalled (b : Block) : Block := { b with mem := { b.mem with stalled := false } }

/-- Whether an engine's work meets no line that is being wiped, so that it falls now (R155, R156). -/
def Block.fallsNow (b : Block) (f : Block → Block) : Bool := !(f b.unstalled).mem.stalled

end Sys2Proof.Machine
end

