-- ==== Sys2Proof/Certificates/Slice0/Obligations.lean ====
section
/-! DEFINITION. The statements for the provers. Those whose name ends in Completes say, for every command of a family, the
conditions on the state and the operands under which it has its own effect, and the state it then answers; `b` is the block at the
time of the command. -/

open Sys2Proof Sys2Proof.Machine

/-! The machine as a whole. -/

/-- A step with a command in front of the queue is that command's meaning with the rest of the queue. -/
def Obligations.StepRunsFront : Prop :=
  ∀ (c : Instr) (rest : List Instr) (b : Block), step { pending := c :: rest, blk := b } = exec c { pending := rest, blk := b }

/-- With no command waiting the block idles to the next edge of REFCLK, a multiple of 10 ns (the model's choice, log entry 3);
no design, memory or link changes by that. -/
def Obligations.IdleStep : Prop :=
  ∀ (b : Block), ∃ u, step { pending := [], blk := b } = .next { pending := [], blk := u } ∧
    u.clk.now = (b.clk.now / 288 + 1) * 288 ∧ u.mem = b.mem ∧ u.ctx = b.ctx ∧ u.rgn = b.rgn ∧ u.link = b.link ∧ u.net = b.net

/-- Right after power-on reset no command waits, PORn is low, every register reads its default, and nothing has been sent. -/
def Obligations.ResetState : Prop :=
  State.reset.pending = [] ∧ State.reset.blk.clk.mode = .por ∧ State.reset.blk.outbox = [] ∧
    (∀ k, State.reset.blk.reg k = regDefault 1 k) ∧ State.reset.blk.mem.cells = [] ∧ State.reset.blk.mem.lines = []

/-- Every command answers a next state: none faults, and none is refused. One whose operands name no unit of the device changes nothing (the
model's choice, log entry 11), but for the host's writes of a record that is not there, which are answered with an error (R387). -/
def Obligations.EveryCommandAnswers : Prop :=
  ∀ (c : Instr) (s : State), (∃ b, exec c s = .next (s.becomes b)) ∧
    ((match c with
      | .regionReset .. | .load .host .. | .prefetch .host .. | .switch .host .. | .clear .host .. | .copy .host .. | .captureReq ..
      | .pinMask .. | .borderMap .. | .bankWipe .. | .frameWipe .. | .counterClear .. | .dmaProd .. | .dmaResume .. | .dmaAbort ..
      | .dmaReset .. | .dmaEnable .. | .sqProd .. | .cqCons .. | .runAbort .. | .scarabDrain .. | .scarabRestart .. | .place ..
      | .steal .. | .preempt .. | .poolAdd .. | .poolRemove .. | .laneEn .. | .laneRestart .. | .step .. | .test .. | .testStop ..
      | .eyeGo .. | .flushStart .. => False
      | _ => True) → Instr.wf c = false → exec c s = .next s)

/-- No command touches the queue, so commands are taken first in, first out. What a command does to the block does not depend on the
commands that wait behind it, but for a limit, which gives way to the event it waits for when that is visible at the same edge (R26), and
for what R26, R29 and R197 judge in the same way: it depends on them only while one of them is an event that something awaits. -/
def Obligations.QueueKept : Prop :=
  ∀ (c : Instr) (b : Block) (p q : List Instr) (u : State), exec c { pending := p, blk := b } = .next u →
    u.pending = p ∧
    ((∀ d ∈ p, d.awaited = false) → exec c { pending := [], blk := b } = .next { pending := [], blk := u.blk }) ∧
    ((match c with
      | .imageLimit .. | .pushLimit .. | .commitWindow .. | .applyWait .. | .exhaustionWindowEnd .. | .hostBondLimit ..
      | .ledgerTimeout .. | .stageFail .. | .idleExitTimeout .. | .nakRepeat .. | .replayTimeout .. | .keepaliveTimeout ..
      | .signalLossTimeout .. | .timeRspTimeout .. | .lmpStall .. | .fwdTimeout .. | .migrationTimeout .. | .preemptCancel ..
      | .drainWindowEnd .. | .hostWakeLimit .. | .reserve .. | .flushStart .. => False
      | _ => True) → exec c { pending := q, blk := b } = .next { pending := q, blk := u.blk })

/-- Every waiting command being well formed (log entry 11, the model's choice) is kept by every step. -/
def Obligations.WellPendingKept : Prop :=
  ∀ (s u : State), s.wellPending → step s = .next u → u.wellPending

/-- Every command waiting at reset is well formed, as none waits. -/
def Obligations.WellPendingAtReset : Prop := State.reset.wellPending

/-- A run of any length, from any state, never stops, and takes the waiting commands one by one, in order; where they are all well formed
(log entry 11, the model's choice), so are those that still wait. -/
def Obligations.SafeRun : Prop :=
  ∀ (n : Nat) (s : State), ∃ u, Host.Core.run Sys2Proof.core n s = .next u ∧ Reaches s u ∧
    u.pending = s.pending.drop n ∧ (s.wellPending → u.wellPending)

/-- A register just written reads as written, every other as before, and a write of a register changes no memory. -/
def Obligations.RegisterFile : Prop :=
  ∀ (b : Block) (k j v : Nat), (b.setReg k v).reg j = (if j = k then v else b.reg j) ∧ (b.setReg k v).mem = b.mem

/-! Memory. -/

/-- Every write and read of memory, by lines or by bytes, every wipe, and the commands of scrubbing and of the banks keep the memory arrays
in canonical form: patrol, repair walk, retirement and the counters. -/
def Obligations.MemoryKeepsForm : Prop :=
  (∀ (b : Block), b.mem.wf = true →
    (∀ l d m p i, (b.writeLine l d m p i).2.mem.wf = true) ∧ (∀ l, (b.readLine l).2.2.mem.wf = true) ∧
    (∀ a n v, (b.writeBytes a n v).2.mem.wf = true) ∧ (∀ a n, (b.readBytes a n).2.2.mem.wf = true) ∧
    (∀ f u, (b.wipeLines f u).mem.wf = true)) ∧
  (∀ (s u : State) (t bank : Nat), s.blk.mem.wf = true →
    (exec (.patrolVisit t) s = .next u → u.blk.mem.wf = true) ∧
    (exec (.repairWalkEnd bank t) s = .next u → u.blk.mem.wf = true) ∧
    (exec (.retireBank bank t) s = .next u → u.blk.mem.wf = true) ∧
    (∀ v, exec (.counterClear bank v) s = .next u → u.blk.mem.wf = true) ∧
    (exec (.bankRetire bank t) s = .next u → u.blk.mem.wf = true))

/-- A write of a line changes no byte of the arrays outside the line's eight column words of ten bytes. A whole line just written reads back
as written, with its poison, whatever was stored before and whichever of the 79 positions is repaired; every other line reads as before. -/
def Obligations.LineWritten : Prop :=
  (∀ (b : Block) (l d m a : Nat) (p : Bool) (i : Option Nat), a < 80 * l ∨ 80 * l + 80 ≤ a →
    (b.writeLine l d m p i).2.mem.cell a = b.mem.cell a) ∧
  (∀ (b : Block) (l d : Nat) (p : Bool) (i : Option Nat), d < 2 ^ 512 → (∀ bank, bank < 128 → b.reg (Reg.repair bank) % 128 < 79) →
    let u := (b.writeLine l d fullMask p i).2
    (u.readLine l).1 = d ∧ (u.readLine l).2.1 = p ∧
    ∀ k, k ≠ l → (u.readLine k).1 = (b.readLine k).1 ∧ (u.readLine k).2.1 = (b.readLine k).2.1)

/-- Every code word of DT79 decodes clean to its data (R146: every codeword gives S1 = S3 = 0 and Sp = 0). -/
def Obligations.Dt79Clean : Prop :=
  ∀ d, d < 2 ^ 64 → dtS1 (dtEncode d) = 0 ∧ dtS3 (dtEncode d) = 0 ∧ dtSp (dtEncode d) = false ∧
    dtDecode (dtEncode d) = .clean ∧ dtData (dtEncode d) = d

/-- DT79 finds and mends every pattern of one or two wrong bits among the 79 of a code word. -/
def Obligations.Dt79Corrects : Prop :=
  ∀ d, d < 2 ^ 64 →
    (∀ j, j < 79 → dtDecode (dtEncode d ^^^ 2 ^ j) = .single j ∧
      (DtOutcome.single j).apply (dtEncode d ^^^ 2 ^ j) = dtEncode d) ∧
    (∀ j k, j < k → k < 79 → dtDecode (dtEncode d ^^^ 2 ^ j ^^^ 2 ^ k) = .double j k ∧
      (DtOutcome.double j k).apply (dtEncode d ^^^ 2 ^ j ^^^ 2 ^ k) = dtEncode d)

/-! Contexts and regions. -/

/-- LOAD, PREFETCH, SWITCH, CLEAR and COPY, ordered by a scarab or a relocation, are submitted; ordered by the host through CMD_OP and
not aborted, they set CMD_STATUS in progress and are submitted (R66, R71, R78, R83, R84, R97). -/
def Obligations.ContextOrdersComplete : Prop :=
  ∀ (s : State) (r slot : Nat), wfRegion r = true → wfSlot slot = true →
    (s.blk.clocked = true → ∀ w, w ≠ .host →
      (∀ src kernel image sig map, exec (.load w r slot src kernel image sig map) s = .next (s.becomes (s.blk.ctxSubmit
        { kind := .load, who := w, region := r, phys := s.blk.phys r, slot, src, kernel, image, sig, map }))) ∧
      exec (.prefetch w r slot) s = .next (s.becomes (s.blk.ctxSubmit
        { kind := .prefetch, who := w, region := r, phys := s.blk.phys r, slot })) ∧
      exec (.clear w r slot) s = .next (s.becomes (s.blk.ctxSubmit
        { kind := .clear, who := w, region := r, phys := s.blk.phys r, slot })) ∧
      (∀ fromR fromSlot, wfSlot fromSlot = true → exec (.copy w r slot fromR fromSlot) s = .next (s.becomes (s.blk.ctxSubmit
        { kind := .copy, who := w, region := r, phys := s.blk.phys r, slot, fromUnit := fromR, fromSlot }))) ∧
      (∀ rs, rs.all wfRegion = true → exec (.switch w rs) s = .next (s.becomes (s.blk.requestSwitch
        { regions := rs, who := w, run := rs.head?.bind s.blk.runOf })))) ∧
    (s.blk.served = true →
      (∀ src kernel image sig map b, s.blk.writePlain [(Reg.cmdSlot r, slot), (Reg.cmdSrc r, src), (Reg.cmdKernel r, kernel),
          (Reg.cmdImage r, image), (Reg.cmdBorderSig r, sig)] = (0, b) → Abort.first (b.cmdChecks (Reg.cmdOp r) 1 r) = 0 →
        exec (.load .host r slot src kernel image sig map) s =
          .next (s.becomes (((b.setReg (Reg.cmdStatus r) 128).ctxSubmit (b.cmdOpOf r .load)).result 0))) ∧
      (∀ b, s.blk.writePlain [(Reg.cmdSlot r, slot)] = (0, b) → Abort.first (b.cmdChecks (Reg.cmdOp r) 2 r) = 0 →
        exec (.prefetch .host r slot) s =
          .next (s.becomes (((b.setReg (Reg.cmdStatus r) 128).ctxSubmit (b.cmdOpOf r .prefetch)).result 0))) ∧
      (∀ b, s.blk.writePlain [(Reg.cmdSlot r, slot)] = (0, b) → Abort.first (b.cmdChecks (Reg.cmdOp r) 4 r) = 0 →
        exec (.clear .host r slot) s =
          .next (s.becomes (((b.setReg (Reg.cmdStatus r) 128).ctxSubmit (b.cmdOpOf r .clear)).result 0))) ∧
      (∀ fromR fromSlot b, wfSlot fromSlot = true → s.blk.writePlain [(Reg.cmdSlot r, slot), (Reg.cmdFromRegion r, fromR),
          (Reg.cmdFromSlot r, fromSlot)] = (0, b) → Abort.first (b.cmdChecks (Reg.cmdOp r) 5 r) = 0 →
        exec (.copy .host r slot fromR fromSlot) s =
          .next (s.becomes (((b.setReg (Reg.cmdStatus r) 128).ctxSubmit (b.cmdOpOf r .copy)).result 0))) ∧
      (Abort.first (s.blk.cmdChecks (Reg.cmdOp r) 3 r) = 0 → exec (.switch .host [r]) s =
        .next (s.becomes
            (((s.blk.setReg (Reg.cmdStatus r) 128).requestSwitch { regions := [r], who := .host, run := none }).result 0))))

/-- A load engine takes the first operation of its queue, unless it must wait for a write-back or for an operation before it; loads,
prefetches, write-backs, clears and copies end (R66, R75, R76, R79 to R84). A clear that ends leaves its slot cleared and reports OK. -/
def Obligations.ContextEnginesComplete : Prop :=
  ∀ (s : State) (t r slot : Nat) (b : Block), s.blk.at t = b → b.clocked = true → wfRegion r = true → wfSlot slot = true →
    (∀ die op rest, s.blk.clocked = true → wfDie die = true → s.blk.ctx.engineQueue.look die = op :: rest →
      let taken := { s.blk with ctx := { s.blk.ctx with engineQueue := s.blk.ctx.engineQueue.put die rest } }
      (s.blk.ctxFenced op = false → (s.blk.ctx.running.look die).length < s.blk.enginesUp die → s.blk.waitsWriteBack op = false →
        s.blk.orderWaits op = false → exec (.loadEngineStart die) s = .next (s.becomes ((taken.startEngine op).serve op.phys))) ∧
      (s.blk.ctxFenced op = true → exec (.loadEngineStart die) s =
        .next (s.becomes ((taken.ctxDone op Status.seamFence).serve op.phys)))) ∧
    (∀ op, b.runningOp .load r slot = some op → exec (.loadEnd r slot t) s = .next (s.becomes (b.loadEnd r slot))) ∧
    (∀ op, b.runningOp .clear r slot = some op →
      exec (.clearEnd r slot t) s = .next (s.becomes ((b.clearSlot r op.phys slot).endEngine op Status.ok))) ∧
    (∀ op, b.runningOp .copy r slot = some op → exec (.copyEnd r slot t) s = .next (s.becomes (b.copyEnd r slot))) ∧
    (∀ op, b.ctx.prefetch.look (b.phys r) = some op → exec (.prefetchEnd r t) s = .next (s.becomes (b.prefetchEnd r))) ∧
    (∀ k, b.ctx.writeBack.look (b.phys r) = some k → exec (.writeBack r t) s = .next (s.becomes (b.writeBackEnd r)))

/-- Captures are requested, taken at their edge and end with the state in the buffer; PIN_MASK and a border map are written, and a
region reset falls due (R38, R91 to R95, R98, R113). The writes change nothing else. -/
def Obligations.CaptureAndMapsComplete : Prop :=
  ∀ (s : State) (t r : Nat) (b : Block), s.blk.at t = b → b.clocked = true → wfRegion r = true →
    (∀ v, s.blk.served = true → (s.blk.writeCaptureReq r v).1 = 0 → s.blk.reg (Reg.powerState r) ≠ 3 →
      s.blk.beingRetired r = false → s.blk.fenced (ctxPath (dieOf r)) = false → exec (.captureReq r v) s = .next (s.becomes
          (({ s.blk with ctx := { s.blk.ctx with captureDue := s.blk.ctx.captureDue.put r true } }.setReg (Reg.captureStatus r) 1).result 0))) ∧
    (b.captureDueNow r = true → exec (.captureEdge r t) s = .next (s.becomes (b.captureEdge r))) ∧
    (∀ slot c bits, b.ctx.captureTaken.look r = some (slot, c, bits) → exec (.captureEnd r t) s = .next (s.becomes
        ({ b with ctx := { b.ctx with captureTaken := b.ctx.captureTaken.put r none } }.setRegs [(Reg.captureStatus r, 2),
        (Reg.captureSlot r, slot), (Reg.captureTime r, c / 288), (Reg.captureData r, bits)]))) ∧
    (∀ v, s.blk.served = true → (s.blk.writePinMask r v).1 = 0 →
      exec (.pinMask r v) s = .next (s.becomes ((s.blk.setReg (Reg.pinMask r) v).result 0))) ∧
    (∀ slot map, s.blk.served = true → wfSlot slot = true → (s.blk.writeBorderMap r slot map).1 = 0 →
      exec (.borderMap r slot map) s = .next (s.becomes ((s.blk.setMap (s.blk.phys r) slot map).result 0))) ∧
    (∀ v, s.blk.served = true → (s.blk.writeRegionReset r v).1 = 0 → exec (.regionReset r v) s = .next (s.becomes
        ({ s.blk with rgn := { s.blk.rgn with resetDue := s.blk.rgn.resetDue.put r true } }.result 0)))

/-- A fabric edge is taken once at each edge of the fabric clock; a region naps, sleeps and wakes (R36, R126, R428). A region that
naps or sleeps shows it in POWER_STATE, and one that sleeps loses both planes. -/
def Obligations.RegionPowerCompletes : Prop :=
  ∀ (s : State) (t r : Nat) (b : Block), s.blk.at t = b → b.clocked = true → wfRegion r = true →
    (b.fabricEdgeAt b.clock = true → exec (.fabricEdge t) s = .next (s.becomes (b.fabricEdge))) ∧
    (b.napDue r = true → exec (.regionNap r t) s = .next (s.becomes ((b.setReg (Reg.powerState r) 2).refreshBorders))) ∧
    (b.sleepDue r = true →
      exec (.regionSleep r t) s = .next (s.becomes ((b.regionSleeps r).refreshBorders.hibernateRest))) ∧
    (b.wakeEndDue r = true → exec (.regionWakeEnd r t) s = .next (s.becomes ((b.wakeEnd r).refreshBorders)))

/-- The output X1 and the raw LUT result P of a cell: bit 32 + i of LUT_TABLE, and bit 32·I5 + i, or bit i with SPLIT = 1, where i is the
number of the inputs I0 to I4 (R34), on every path to them that is no loop (R49). A flip-flop takes its set or reset value, else its D input when its clock is enabled, else it holds,
as long as the segments it depends on obey R46 to R49 (R36). -/
def Obligations.CellComputes : Prop :=
  (∀ (b : Block) (fuel p c : Nat) (path : List (Nat × Nat × Node)),
     let i (m : Node) (k : Nat) : Nat := b2n (b.evalFrom fuel ((p, c, m) :: path) p c (.input k)).v
     let n (m : Node) : Nat := 16 * i m 4 + 8 * i m 3 + 4 * i m 2 + 2 * i m 1 + i m 0
     let tbl := b.activeRec p c
     (path.contains (p, c, .x1) = false → (b.evalFrom (fuel + 1) path p c .x1).v = tbl.testBit (32 + n .x1)) ∧
     (path.contains (p, c, .p) = false → tbl.testBit 184 = false →
       (b.evalFrom (fuel + 1) path p c .p).v = tbl.testBit (32 * i .p 5 + n .p)) ∧
     (path.contains (p, c, .p) = false → tbl.testBit 184 = true → (b.evalFrom (fuel + 1) path p c .p).v = tbl.testBit (n .p))) ∧
  (∀ (b : Block) (p c n : Nat), n < 2 →
     let w := b.activeRec p c
     let o := 6 * n
     ((b.ceSr p c).1.after tImux).unfit b.clk.fabricDiv = false → ((b.ceSr p c).2.after tImux).unfit b.clk.fabricDiv = false →
     (b.dInput p c n).unfit b.clk.fabricDiv = false →
     b.nextQ p c n = (if w.testBit (193 + o) ∧ (b.ceSr p c).2.v then w.testBit (194 + o)
       else if w.testBit (192 + o) = false ∨ (b.ceSr p c).1.v then (b.dInput p c n).v
       else w.testBit (222 + n), false))

/-- A cell record that a load accepts passes its check unchanged, and any single wrong bit of its data or parity is mended (R55, R58, R59). -/
def Obligations.RecordMends : Prop :=
  ∀ (w n : Nat), w < 2 ^ 256 → recordLoads w = true → n < 254 →
    checkRecord w true = ⟨w, false, false, false, none⟩ ∧
    checkRecord (w ^^^ 2 ^ n) true = ⟨w, true, false, false, some n⟩

/-! Memory commands, rings and runs. -/

/-- The memory commands, not aborted, have their effects: shootdown, wipes, patrol, column repair, retirement and the counters
(R143, R155 to R164). -/
def Obligations.MemoryCommandsComplete : Prop :=
  ∀ (s : State) (t : Nat) (b : Block), s.blk.at t = b → b.clocked = true →
    (∀ v, s.blk.served = true → (s.blk.writeShootdown v).1 = 0 → exec (.shootdownCmd v) s = .next (s.becomes
        (((s.blk.setReg Reg.shootdownStatus 128).snpCommand snpShootdown 368 0 127 15 s.blk.node 0 [s.blk.reg Reg.shootdownEntry]
        (s.blk.reg Reg.shootdownEntry) 32).result 0))) ∧
    (∀ bank, s.blk.served = true → wfBank bank = true → (s.blk.wipeCommand bank).1 = 0 →
      exec (.bankWipe bank) s = .next (s.becomes ((s.blk.wipeCommand bank).2.result 0)) ∧
      (s.blk.wipeCommand bank).2.mem.wipe = some (false, bank)) ∧
    (∀ frame, s.blk.served = true → wfFrame frame = true → (s.blk.wipeCommand (2 ^ 31 + frame)).1 = 0 →
      exec (.frameWipe frame) s = .next (s.becomes ((s.blk.wipeCommand (2 ^ 31 + frame)).2.result 0)) ∧
      (s.blk.wipeCommand (2 ^ 31 + frame)).2.mem.wipe = some (true, frame)) ∧
    (b.mem.wipe.isSome = true → exec (.wipeComplete t) s = .next (s.becomes
        (({ b with mem := { b.mem with wipe := none } }.setReg Reg.wipeStatus Status.ok).afterWipe))) ∧
    (b.patrolFree = true → exec (.patrolVisit t) s = .next (s.becomes (b.patrolVisit))) ∧
    (∀ bank, wfBank bank = true → (b.reg (Reg.repair bank)).testBit 14 = true → (b.reg (Reg.repair bank)).testBit 15 = false →
      b.bankRetired bank = false → exec (.repairWalkEnd bank t) s = .next (s.becomes (b.repairWalk bank))) ∧
    (∀ bank, b.served = true → (b.writeRetireBank bank).1 = 0 → b.reg (Reg.bankState bank) ≠ 2 →
      exec (.retireBank bank t) s = .next (s.becomes ((b.setBankState bank 2).result 0))) ∧
    (∀ bank v, s.blk.served = true → wfBank bank = true → (s.blk.writeCounterClear bank v).1 = 0 → s.blk.reg (Reg.bankState bank) = 0 →
      exec (.counterClear bank v) s = .next (s.becomes
          ((s.blk.setRegs [(Reg.ce1 bank, 0), (Reg.ce2 bank, 0), (Reg.ue bank, 0), (Reg.cePass bank, 0)]).result 0))) ∧
    (∀ bank, wfBank bank = true → b.retireDue bank = true → exec (.bankRetire bank t) s = .next (s.becomes (b.retireBank bank)))

/-- An accepted advance of a ring writes the index and clears the refusal; a pending entry is taken in, where its bytes are not being wiped;
the delay list is looked at on a tick. A design's END, YIELD and PHASE are delivered to its run's scarab when its anchor's bridge presents
the word; once the set has drained, a run whose end is known is ENDING, and its completion record goes to ring CRING, to the completion
ring of its own ring pair with MALFORMED where that is off, or nowhere (R30, R125, R184 to R187, R203, R204). -/
def Obligations.RingsComplete : Prop :=
  ∀ (s : State) (t ring v : Nat) (b : Block), s.blk.at t = b → b.clocked = true → wfRing ring = true →
    (let x := s.blk.ring ring
     let n := 2 ^ s.blk.reg (Reg.sqLog2 ring)
     s.blk.clocked = true → s.blk.reg (Reg.enable ring) ≠ 0 →
      advanceRefused n x.prod v ((x.cons + n - x.prod % n + n - 1) % n) = false →
      exec (.sqProd ring v) s = .next (s.becomes
          ((s.blk.setRing ring { x with prod := v, dbRefused := false }).emit .completion 0 [0]))) ∧
    (let x := s.blk.ring ring
     let n := 2 ^ s.blk.reg (Reg.cqLog2 ring)
     s.blk.clocked = true → s.blk.reg (Reg.enable ring) ≠ 0 →
      advanceRefused n x.cqCons v ((x.cqProd + n - x.cqCons % n) % n) = false →
      exec (.cqCons ring v) s = .next (s.becomes
          ((s.blk.setRing ring { x with cqCons := v, cqRefused := false }).emit .completion 0 [0]))) ∧
    ((b.servant (b.reg (Reg.intakeScarab ring))).isSome = true → b.started = true → b.reg (Reg.enable ring) ≠ 0 →
      (b.ring ring).cons ≠ (b.ring ring).prod → b.freeEntry.isSome = true →
      b.fallsNow (·.intake ring) = true → exec (.intake ring t) s = .next (s.becomes (b.unstalled.intake ring))) ∧
    (∀ run st result, wfRun run = true → (b.runAt run).state = .ending → (b.runAt run).done = some (st, result) →
      b.fallsNow (·.completionRecord run) = true →
      let x := b.runAt run
      (b.reg (Reg.enable x.cring) = 1 →
        exec (.completionRecord run t) s = .next (s.becomes (b.unstalled.writeRecord run x.cring st result))) ∧
      (b.reg (Reg.enable x.cring) ≠ 1 → x.boot = true → exec (.completionRecord run t) s = .next (s.becomes (b.unstalled.freeRun run))) ∧
      (b.reg (Reg.enable x.cring) ≠ 1 → x.boot = false → b.reg (Reg.enable x.ring) = 1 →
        exec (.completionRecord run t) s = .next (s.becomes (b.unstalled.writeRecord run x.ring Status.malformed result))) ∧
      (b.reg (Reg.enable x.cring) ≠ 1 → x.boot = false → b.reg (Reg.enable x.ring) ≠ 1 → exec (.completionRecord run t) s =
        .next (s.becomes ((b.unstalled.freeRun run).count (Reg.cqWriteErrors x.ring) 1)))) ∧
    (∀ r x (w : BitVec 32), wfRegion r = true → b.donePresented r w.toNat = true → b.runOf r = some x →
      b.reg (Reg.spanAnchor r) = r → b.bridgeOff r = false → b.fenced (riserPath (dieOf r)) = false → b.riserGone r = false →
      (b.runAt x).done = none → (b.runAt x).retiring = none →
      let run := b.runAt x
      (∀ st, doneAsk w.toNat = .finish st → exec (.doneEnd r w t) s = .next (s.becomes
        (run.set.foldl (fun b r => b.setSwitchPending r true)
          (b.setRun x { run with done := some (st, bitsOf w.toNat 15 0) })))) ∧
      (doneAsk w.toNat = .yield → run.state ≠ .preempting → exec (.doneYield r w t) s = .next (s.becomes
        (run.set.foldl (fun b r => b.setSwitchPending r true) (b.setRun x { run with
          state := .preempting, yielded := true, pendingFrom := b.run, nextSlots := [] })))) ∧
      (∀ n, doneAsk w.toNat = .phase n → run.state ≠ .preempting →
        let k := (b.servant run.home).getD run.home
        let desc := (b.kernelDesc k run.kernel).2.1
        let c := (b.kernelDesc k run.kernel).2.2
        (n < kPhases desc → exec (.donePhase r w t) s = .next (s.becomes ((run.set.foldl (fun b r => b.setSwitchPending r true)
          (c.setRun x { c.runAt x with state := .switching, nextPhase := n, nextSlots := [] })).tryPhase k x))) ∧
        (kPhases desc ≤ n → exec (.donePhase r w t) s =
          .next (s.becomes (c.drainTo x Status.malformed (bitsOf w.toNat 15 0)))))) ∧
    (∀ run st res, wfRun run = true → (b.runAt run).done = some (st, res) → (b.runAt run).active? = true → b.drained run = true →
      (b.runAt run).retiring = none →
      exec (.runEnd run t) s = .next (s.becomes (b.finish run
        (if (b.runAt run).poisoned && (st == Status.ok || st == Status.malformed) then Status.poison else st) res))) ∧
    (b.clock % tick = 0 → exec (.notBeforeDue t) s = .next (s.becomes (b.notBeforeDue)))

/-- When the run table has no free entry, intake of a ring pauses, leaves its page (SQ_CONS in it) unchanged and counts the pause once; the
free entry that intake takes is the one of the lowest index (R186). -/
def Obligations.IntakePauses : Prop :=
  ∀ (b : Block) (n k : Nat), b.servant (b.reg (Reg.intakeScarab n)) = some k → b.started = true → b.reg (Reg.enable n) ≠ 0 →
    (b.ring n).cons ≠ (b.ring n).prod →
    (b.freeEntry = none → b.disp.paused.contains n = false →
      (b.intake n).ring n = b.ring n ∧ (b.intake n).disp.paused = n :: b.disp.paused ∧
      (b.intake n).reg Reg.intakeStalls = satAdd (b.reg Reg.intakeStalls) 1 (2 ^ 32 - 1)) ∧
    (b.freeEntry = none → b.disp.paused.contains n = true → b.intake n = b) ∧
    (∀ x, b.freeEntry = some x → (b.runAt x).state = .free ∧ ∀ y, y < x → (b.runAt y).state ≠ .free)

/-- Placement: a scarab that runs evaluates its lists and reserves; a run starts and a span switches at an edge that meets the conditions of
its rule; a run that yielded or that the host preempts is PREEMPTED once drained; a qualifying run that a reservation wants is preempted,
first staging the preempting run's contexts; and a preemption whose limit has passed is cancelled, unless the start edge is visible (R68 to
R72, R191 to R204, R214). An evaluation, a reservation or a preemption whose bytes are being wiped waits (R155). -/
def Obligations.PlacementCompletes : Prop :=
  ∀ (s : State) (t : Nat) (b : Block), s.blk.at t = b → b.clocked = true →
    (∀ k, wfScarab k = true → b.started = true → b.scarabRuns k = true → b.fallsNow (·.evaluate k) = true →
      exec (.dispatchEvaluation k t) s = .next (s.becomes (b.unstalled.evaluate k))) ∧
    (∀ k prio, wfScarab k = true → prio < 8 → b.scarabRuns k = true →
      let freed := (s.settle (freeRow t)).blk.at t
      b.fallsNow (·.reserve freed k prio) = true →
      exec (.reserve k prio t) s = .next (s.becomes (b.unstalled.reserve freed k prio))) ∧
    (∀ run, wfRun run = true → b.startTaken run = true → exec (.startEdge run t) s = .next (s.becomes
        ((b.kernelDesc (b.actor (b.runAt run).home) (b.runAt run).kernel).2.2.startRun run
        (b.kernelDesc (b.actor (b.runAt run).home) (b.runAt run).kernel).2.1))) ∧
    (∀ r q, wfRegion r = true → b.switchTaken r = true → b.switchOf r = some q →
      let c := ((q.regions.foldl (b.switchRegion q) b).endSwitch q Status.ok).refreshBorders
      (q.run = none → exec (.switchEdge r t) s = .next (s.becomes c)) ∧
      (∀ x, q.run = some x → (c.runAt x).state = .switching → (c.runAt x).nextSlots ≠ [] →
        exec (.switchEdge r t) s = .next (s.becomes ((c.phaseDone x).refreshBorders))) ∧
      (∀ x, q.run = some x → (c.runAt x).state ≠ .switching ∨ (c.runAt x).nextSlots = [] →
        exec (.switchEdge r t) s = .next (s.becomes c))) ∧
    (∀ run, wfRun run = true → (b.runAt run).state = .preempting → (b.runAt run).done = none → (b.runAt run).retiring = none →
      b.drained run = true → b.fallsNow (·.preemption run) = true →
      ((b.runAt run).yielded = true →
        exec (.preemption run t) s = .next (s.becomes ((b.unstalled.park run true).refreshBorders))) ∧
      ((b.runAt run).yielded = false → (b.runAt run).hostPreempt = true →
        let c := ((b.unstalled.park run false).count Reg.preemptions 1).refreshBorders
        (c.disp.hcmd = none → exec (.preemption run t) s = .next (s.becomes c)) ∧
        (∀ h, c.disp.hcmd = some h → h.kind = 3 → h.run = run → exec (.preemption run t) s = .next (s.becomes
          (({ c with disp := { c.disp with hcmd := none } }.setReg Reg.hcmdStatus Status.ok).trace (c.actor (c.runAt run).home) .hostCmd
            (some run) {}))))) ∧
    (∀ run q k, wfRun run = true → (b.runAt run).state = .running → b.clock % tick = 0 → b.fmode fnPlacement = 0 →
      b.unstalled.reservationOver run = some q → b.unstalled.servant (b.unstalled.runAt q.run).home = some k →
      b.unstalled.qualifies k run q.run = true → b.fallsNow (·.preemption run) = true →
      ((b.runAt q.run).state = .ready ∨ (b.runAt q.run).state = .preempted) →
      ((b.runAt q.run).staging = true → (b.runAt q.run).set = q.set → b.unstalled.staged q.run = true →
        exec (.preemption run t) s = .next (s.becomes (b.unstalled.raisePreempt k q.run q.set
          ((b.unstalled.holders q.set).filter (fun y => b.unstalled.qualifies k y q.run))))) ∧
      ((b.runAt q.run).staging = true → (b.runAt q.run).set = q.set → b.unstalled.staged q.run = false →
        q.set.any b.unstalled.staging = false →
        exec (.preemption run t) s = .next (s.becomes (b.unstalled.stagePreempt k q.run q.set))) ∧
      ((b.runAt q.run).staging = false →
        exec (.preemption run t) s = .next (s.becomes (b.unstalled.stagePreempt k q.run q.set)))) ∧
    (∀ run, wfRun run = true → s.leaveWon run t = false →
      (b.cancelDue run = true → b.hostLate run = false →
        (∀ x, (b.runAt run).preemptor = some x →
          let e := ((b.victimsOf x).foldl Block.resumeVictim b).unclaim x
          let c := (e.count Reg.preemptCancels 1).trace (e.actor (b.runAt run).home) .preemptCancel (some run)
            { region := (b.runAt run).anchor }
          let d := (c.setRun x { c.runAt x with staging := false }).clearAnchor x
          exec (.preemptCancel run t) s = .next (s.becomes (d.listHead x (if (d.runAt x).started then .preempted else .ready)))) ∧
        ((b.runAt run).preemptor = none →
          let e := b.resumeVictim run
          exec (.preemptCancel run t) s = .next (s.becomes ((e.count Reg.preemptCancels 1).trace (e.actor (b.runAt run).home)
            .preemptCancel (some run) { region := (b.runAt run).anchor })))) ∧
      (b.hostLate run = true →
        let c := if b.cancelDue run then b.cancelPreempt run else b
        exec (.preemptCancel run t) s = .next (s.becomes
          (({ c with disp := { c.disp with hcmd := none } }.setReg Reg.hcmdStatus Status.timeout).trace (c.actor (c.runAt run).home) .hostCmd
            (some run) { status := Status.timeout }))))

/-- The commands over scarabs and the host's over runs, not aborted, have their effects; a scarab traps, halts and restarts, and a run
that a retirement ends is ended (R206 to R214). -/
def Obligations.ScarabCommandsComplete : Prop :=
  ∀ (s : State) (t : Nat) (b : Block), s.blk.at t = b → b.clocked = true →
    (∀ run, b.served = true → wfRun run = true → (b.writeRunAbort run).1 = 0 →
      exec (.runAbort run t) s = .next (s.becomes ((b.writeRunAbort run).2.result 0))) ∧
    (∀ run st, wfRun run = true → (b.runAt run).retiring = some st → (st = Status.seamFence → b.draining = false) →
      ((b.runAt run).state = .preempted ∨ (b.runAt run).active? = true ∧ b.drained run = true) →
      b.fallsNow (·.runRetired run) = true →
      ((∀ e, (b.runAt run).done = some e → e.1 ≠ Status.abortedByHost) →
        exec (.runRetired run t) s = .next (s.becomes (b.unstalled.endAttempt run st))) ∧
      (∀ res, (b.runAt run).done = some (Status.abortedByHost, res) →
        exec (.runRetired run t) s = .next (s.becomes (b.unstalled.finish run Status.abortedByHost res)))) ∧
    (∀ k, wfScarab k = true → b.clock % tick = 0 → b.isThief k = true → exec (.thiefRound k t) s = .next (s.becomes
        (b.thiefRounds k))) ∧
    (∀ k addr, wfScarab k = true → b.reg (Reg.scarabState k) ≤ 1 → exec (.scarabTrap k addr t) s = .next (s.becomes
        (b.scarabTrap k addr))) ∧
    (∀ k, s.blk.served = true → wfScarab k = true → (s.blk.writeControl k 1).1 = 0 →
      exec (.scarabDrain k) s = .next (s.becomes ((s.blk.writeControl k 1).2.result 0))) ∧
    (∀ k, wfScarab k = true → b.haltDue k = true → exec (.scarabHalted k t) s = .next (s.becomes (b.setReg (Reg.scarabState k) 2))) ∧
    (∀ k, b.served = true → wfScarab k = true → (b.writeControl k 2).1 = 0 →
      exec (.scarabRestart k t) s = .next (s.becomes ((b.writeControl k 2).2.result 0))) ∧
    (∀ k, s.blk.served = true → (s.blk.writeKernelUpdate k).1 = 0 →
      exec (.kernelUpdate k) s = .next (s.becomes ((s.blk.writeKernelUpdate k).2.result 0))) ∧
    (∀ v, s.blk.served = true → (s.blk.writeProposalPop v).1 = 0 →
      exec (.proposalPop v) s = .next (s.becomes ((s.blk.writeProposalPop v).2.result 0))) ∧
    (∀ run anchor, b.served = true → wfRun run = true → (b.unstalled.hostCmd 1 run anchor).1 = 0 →
      b.fallsNow (·.host (·.hostCmd 1 run anchor)) = true →
      exec (.place run anchor t) s = .next (s.becomes ((b.unstalled.hostCmd 1 run anchor).2.result 0))) ∧
    (∀ run target, b.served = true → wfRun run = true → (b.hostCmd 2 run target).1 = 0 →
      exec (.steal run target t) s = .next (s.becomes ((b.hostCmd 2 run target).2.result 0))) ∧
    (∀ run, b.served = true → wfRun run = true → (b.unstalled.hostCmd 3 run 0).1 = 0 →
      b.fallsNow (·.host (·.hostCmd 3 run 0)) = true →
      exec (.preempt run t) s = .next (s.becomes ((b.unstalled.hostCmd 3 run 0).2.result 0)))

/-! The memory ports, migration, the networks and DMA. -/

/-- The region bridge: the oldest request that has passed at it is taken up, and one that reuses an open tag is counted in TAG_REUSE and
discarded; a completion that has come is presented on a fabric edge that no capture freezes, one in a fabric cycle, and its tag is free
from the next edge; a stream-out packet that waits whole is forwarded while a tag is free; a stream-in packet is taken in when it arrives
in its turn, and is done when the design has taken its last beat (R93, R118 to R123, R133). -/
def Obligations.BridgeCompletes : Prop :=
  ∀ (s : State) (t r : Nat) (b : Block), s.blk.at t = b → b.clocked = true → wfRegion r = true →
    (∀ tag write line (mask : BitVec 64) (data : BitVec 512) (w : Nat) rest, wfTag tag = true → line < 2 ^ 24 →
      b.rgn.passed.look r = w :: rest → wireRequest r w = ⟨r, tag, write, line, mask.toNat, data.toNat⟩ →
      let c := { b with rgn := { b.rgn with passed := b.rgn.passed.put r rest } }
      (c.tagBusy r tag = true → exec (.memoryRequest r tag write line mask data t) s =
        .next (s.becomes (c.count (Reg.tagReuse r) 1))) ∧
      (c.tagBusy r tag = false → exec (.memoryRequest r tag write line mask data t) s = .next (s.becomes
        ((((c.setTag r tag { isOpen := true, write := write }).ledgerOpen r tag (b2n write) (c.node * 2 ^ 52) 0 0 1).sampleRequest
          ⟨r, tag, write, line, mask.toNat, data.toNat⟩).performFor ⟨r, tag, write, line, mask.toNat, data.toNat⟩)))) ∧
    (∀ tag st d, wfTag tag = true → (b.tagAt r tag).done = some (st, d) → b.clk.lastEdge = some b.clock →
      b.rgn.edgeAt.look r = some b.clock → b.rgn.frozenEdge.look r ≠ some b.clock → (b.rgn.bf.look r).testBit 512 = false →
      exec (.memoryCompletion r tag t) s = .next (s.becomes (b.presentCompletion r tag st d)) ∧
      ((b.presentCompletion r tag st d).tagAt r tag).isOpen = false) ∧
    (∀ ch x (xs : List (BitVec 256)), wfChannel ch = true → b.rgn.outDone.look r = some (ch, (x :: xs).map (·.toNat)) →
      b.streamTag r = true →
      exec (.streamOutPacket r ch (x :: xs) t) s = .next (s.becomes
        (Block.streamOut { b with rgn := { b.rgn with outDone := b.rgn.outDone.put r none } } r ch
          ((x :: xs).map (·.toNat))))) ∧
    (∀ (sb : BitVec 128) x xs, b.delivers 1 sb.toNat = true → exec (.streamInPacket r sb (x :: xs) 0 t) s =
      .next (s.becomes (b.streamArrivesIn r sb.toNat (x :: xs)))) ∧
    (∀ (sb : BitVec 128) x xs q, b.rgn.inPacket.look r = some q → q.sb = sb.toNat → q.taken = q.beats.length → q.taken ≠ 0 →
      exec (.streamInPacket r sb (x :: xs) q.taken t) s = .next (s.becomes (b.streamInDone r q)))

/-- Samples reach their scarab, epochs end, frames enter and leave the pool by the host's command, proposals are popped; a migration
starts, steps, times out or is abandoned or cancelled, and a draining bank is scanned (R220 to R240); work whose bytes are being wiped
waits, and a limit gives way to the step it waits for (R26, R155). -/
def Obligations.MigrationCompletes : Prop :=
  ∀ (s : State) (t : Nat) (b : Block), s.blk.at t = b → b.clocked = true →
    (∀ k entry die, wfScarab k = true → wfDie die = true → entry < 2 ^ 64 →
      exec (.sample k entry die t) s = .next (s.becomes (b.sample k entry die))) ∧
    (b.epochDue = true → exec (.epochEnd t) s = .next (s.becomes (b.epochWork))) ∧
    (∀ frame, s.blk.served = true → wfFrame frame = true → (s.blk.poolCommand frame 1).1 = 0 →
      exec (.poolAdd frame) s = .next (s.becomes ((s.blk.poolCommand frame 1).2.result 0))) ∧
    (∀ frame, s.blk.served = true → wfFrame frame = true → (s.blk.poolCommand frame 2).1 = 0 →
      exec (.poolRemove frame) s = .next (s.becomes ((s.blk.poolCommand frame 2).2.result 0))) ∧
    (∀ v, s.blk.served = true → (s.blk.writePropPop v).1 = 0 →
      exec (.propPop v) s = .next (s.becomes ((s.blk.writePropPop v).2.result 0))) ∧
    (∀ k r m, wfScarab k = true → b.nextReady k = some r → b.outranked r = false → b.freeSlot = some m → b.fallsNow (·.migrationStart k) = true →
      exec (.migrationStart k t) s = .next (s.becomes (b.unstalled.migrationStart k))) ∧
    (∀ m j cause, wfMig m = true → b.jobAt m = some j → b.reg (Reg.mslotState m) ≠ 0 → b.reg (Reg.mslotState m) < 8 →
      b.fallsNow (·.abandon m (abandonStatus cause)) = true →
      exec (.migrationAbandon m cause t) s = .next (s.becomes (b.unstalled.abandon m (abandonStatus cause)))) ∧
    (∀ m, wfMig m = true → b.migLimitDue m = true → s.switchWon m t = false →
      exec (.migrationTimeout m t) s = .next (s.becomes (b.abandon m Status.timeout))) ∧
    (∀ m, b.served = true → (b.writeHmigCancel m).1 = 0 →
      exec (.hmigCancel m t) s = .next (s.becomes ((b.writeHmigCancel m).2.result 0))) ∧
    (∀ m j, wfMig m = true → b.jobAt m = some j → b.fallsNow (·.stepDone m) = true →
      exec (.migrationStepDone m t) s = .next (s.becomes (b.unstalled.stepDone m))) ∧
    (∀ v, b.served = true → (b.unstalled.writeHmigGo v).1 = 0 → b.fallsNow (·.host (·.writeHmigGo v)) = true →
      exec (.hmigGo v t) s = .next (s.becomes ((b.unstalled.writeHmigGo v).2.result 0))) ∧
    (∀ bank, wfBank bank = true → b.reg (Reg.bankState bank) = 2 → b.fallsNow (·.drainScan bank) = true →
      exec (.drainScan bank t) s = .next (s.becomes (b.unstalled.drainScan bank)))

/-- Flits and packets that arrive in their turn under their operation have their effects, whatever their fields (R254 to R270, R483). -/
def Obligations.ArrivalsComplete : Prop :=
  ∀ (s : State) (t : Nat) (b : Block), s.blk.at t = b → b.clocked = true →
    (∀ flit : BitVec 64,
      b.delivers 2 flit.toNat = true →
      (rOp flit.toNat = 0 → exec (.wcomp flit t) s = .next (s.becomes (b.completionFlit flit.toNat))) ∧
      (rOp flit.toNat = 1 → exec (.rcomp flit t) s = .next (s.becomes (b.completionFlit flit.toNat))) ∧
      (rOp flit.toNat = 2 → exec (.sack flit t) s = .next (s.becomes (b.sackFlit flit.toNat))) ∧
      (rOp flit.toNat = 3 → rDst flit.toNat = 368 → exec (.ledger flit t) s = .next (s.becomes (b.ledgerFlit flit.toNat)))) ∧
    (∀ flit : BitVec 128,
      (b.reqComes 0 flit.toNat = true → exec (.read flit t) s = .next (s.becomes (b.reqArrives flit.toNat))) ∧
      (b.reqComes 1 flit.toNat = true → exec (.write flit t) s = .next (s.becomes (b.reqArrives flit.toNat))) ∧
      (b.reqComes 2 flit.toNat = true → exec (.cas flit t) s = .next (s.becomes (b.reqArrives flit.toNat)))) ∧
    (∀ (sb : BitVec 128) (beats : List Beat),
      (b.datComes 0 sb.toNat beats.length = true → exec (.wdata sb beats t) s = .next (s.becomes (b.wdataArrives sb.toNat beats))) ∧
      (b.datComes 1 sb.toNat beats.length = true → exec (.rdata sb beats t) s = .next (s.becomes (b.rdataArrives sb.toNat beats))) ∧
      (b.datComes 2 sb.toNat beats.length = true → exec (.stream sb beats t) s = .next (s.becomes
          (b.streamArrives sb.toNat beats)))) ∧
    (∀ ini addr size write data fromLink, wfInitiator ini = true → addr < 2 ^ 64 → 0 < size →
      exec (.globalAccess ini addr size write data fromLink t) s = .next (s.becomes
          (b.globalAccess ini addr size write data fromLink)))

/-- A late completion, one of a tag that is not open, is discarded: the ledger, the memory, the contexts and the networks stand as they are.
It is counted in LATE_COMPLETIONS and, at every LOG_MIN_SEVERITY that lets a warning in, logged with the late count and status, and with
the ledger's count and status; above that the log stands as it is. -/
def Obligations.LateCompletion : Prop :=
  ∀ (s : State) (ini tag status beats : Nat), s.blk.clocked = true → wfInitiator ini = true → tag < 1024 →
    (s.blk.ledgerAt ini tag).state ≠ .opened →
    ∃ u, exec (.lateCompletion ini tag status beats) s = .next u ∧ u.pending = s.pending ∧ u.blk.ledger = s.blk.ledger ∧
      u.blk.mem = s.blk.mem ∧ u.blk.ctx = s.blk.ctx ∧ u.blk.rgn = s.blk.rgn ∧ u.blk.net = s.blk.net ∧
      u.blk.reg Reg.lateCompletions = satAdd (s.blk.reg Reg.lateCompletions) 1 (regTop Reg.lateCompletions) ∧
      (s.blk.reg Reg.logMinSeverity ≤ 1 → ∃ e, u.blk.health.log.head? = some e ∧ e.code = 0x0403 ∧ e.srcNum = ini ∧
        e.time = s.blk.ts ∧ bitsOf e.data 6 0 = beats % 128 ∧ bitsOf e.data 11 8 = Status.received (status % 16) ∧
        bitsOf e.data 31 16 = tag ∧ bitsOf e.data 38 32 = (s.blk.ledgerAt ini tag).beatsDone % 128 ∧
        bitsOf e.data 47 44 = (s.blk.ledgerAt ini tag).status % 16) ∧
      (1 < s.blk.reg Reg.logMinSeverity → u.blk.health.log = s.blk.health.log)

/-- Of several local causes that end a transaction at one edge, the status is the first present in the order RETIRED, SEAM_FENCE,
PATH_LOST, FLUSHED, ABORTED_BY_HOST, TIMEOUT. -/
def Obligations.CauseOrder : Prop :=
  ∀ cs : List Nat, cs ≠ [] → (∀ c ∈ cs, c ∈ [8, 5, 4, 3, 9, 6]) →
    Status.first cs = [8, 5, 4, 3, 9, 6].find? (fun c => cs.contains c)

/-- Commands and answers of the SNP network that come in their turn under their operation have their effects, whatever their fields
(R257 to R259, R266, R269); a header discarded is counted and logged, a station gates, and statistics are cleared. -/
def Obligations.SnoopCompletes : Prop :=
  ∀ (s : State) (t : Nat) (b : Block), s.blk.at t = b → b.clocked = true →
    (∀ (h : BitVec 64) (x : Nat), s.blk.clocked = true → s.blk.net.noc.inTurn 3 h.toNat = true →
      let a := s.blk.arrived 3 h.toNat
      (sOp h.toNat = snpShootdown → exec (.shootdown h x) s = .next (s.becomes (a.shootdown h.toNat x))) ∧
      (sOp h.toNat = snpMigFence → exec (.migFence h x) s = .next (s.becomes (a.migFence h.toNat x))) ∧
      (sOp h.toNat = snpMigLift → exec (.migLift h x) s = .next (s.becomes (a.migLift h.toNat x))) ∧
      (sOp h.toNat = snpSeamFence → exec (.seamFence h) s = .next (s.becomes (a.seamFence h.toNat))) ∧
      (sOp h.toNat = snpTrackerArm → x < 2 ^ 64 → exec (.trackerArm h x) s = .next (s.becomes (a.trackerArm h.toNat x))) ∧
      (sOp h.toNat = snpTrackerTake → exec (.trackerTake h) s = .next (s.becomes (a.trackerTake h.toNat))) ∧
      (sOp h.toNat = snpTrackerDisarm → exec (.trackerDisarm h) s = .next (s.becomes (a.trackerDisarm h.toNat))) ∧
      (sOp h.toNat = snpFrameReq → exec (.frameReq h) s = .next (s.becomes (a.frameReq h.toNat))) ∧
      (sOp h.toNat = snpRelease → x < 2 ^ 64 → exec (.release h x) s = .next (s.becomes (a.release h.toNat x)))) ∧
    (∀ h : BitVec 64, b.delivers 3 h.toNat = true →
      (sOp h.toNat = snpTrackerArmed → exec (.trackerArmed h t) s = .next (s.becomes (b.trackerArmed h.toNat))) ∧
      (∀ bits : BitVec 256, sOp h.toNat = snpTrackerBits →
        exec (.trackerBits h bits t) s = .next (s.becomes (b.trackerBitsCame h.toNat bits.toNat))) ∧
      (∀ frame, sOp h.toNat = snpFrameGrant → frame < 2 ^ 64 →
        exec (.frameGrant h frame t) s = .next (s.becomes (b.frameGrant h.toNat frame)))) ∧
    (∀ f, b.mig.adding = some f → b.reg (Reg.bankState (bankOfFrame f)) = 0 → exec (.poolAddEnd t) s = .next (s.becomes
        ((({ b with mig := { b.mig with adding := none } }.poolAdd f).setReg Reg.poolStatus Status.ok).afterWipe.packageUnread))) ∧
    (∀ station net, wfStation station = true → wfNet net = true → exec (.hdrDiscard station net t) s =
      .next (s.becomes (({ b with net := { b.net with noc := b.noc.discard station net } }.count Reg.hdrDiscards 1).logEvent 0x0404 0
        (370 + station) net))) ∧
    (∀ station, wfStation station = true → b.gateDue station = true →
      exec (.stationGate station t) s = .next (s.becomes (b.modNoc (fun n => { n with gated := station :: n.gated })))) ∧
    (∀ v, s.blk.served = true → (s.blk.writeStatsClear v).1 = 0 →
      exec (.statsClear v) s = .next (s.becomes ((s.blk.writeStatsClear v).2.result 0)))

/-- An accepted advance of a DMA ring writes the index; a descriptor is taken, and ends when its transfer is over, unless its
bytes are being wiped (R155); RESUME, ABORT and RESET
act on the states they apply to, and DMA_ENABLE is written (R169 to R173). -/
def Obligations.DmaCompletes : Prop :=
  ∀ (s : State) (t c : Nat) (b : Block), s.blk.at t = b → b.clocked = true → wfDma c = true →
    (∀ v, let x := s.blk.dmaAt c
      let n := s.blk.dmaSize c
      s.blk.clocked = true → s.blk.reg (Reg.dmaEnable c) ≠ 0 →
      advanceRefused n x.prodRd v ((x.cons + n - x.prodRd % n + n - 1) % n) = false →
      exec (.dmaProd c v) s = .next (s.becomes ((s.blk.setDma c { x with prodRd := v, refused := false }).emit .completion 0 [0]))) ∧
    (b.dmaTakes c = true → b.fallsNow (·.takeDescriptor c) = true →
      exec (.dmaDescriptor c t) s = .next (s.becomes (b.unstalled.takeDescriptor c))) ∧
    (∀ j, (b.dmaAt c).job = some j → j.over = true → b.fallsNow (·.descriptorEnd c) = true →
      exec (.dmaDescriptorEnd c t) s = .next (s.becomes
        (b.unstalled.endDescriptor c j.desc j.status (doneBytes j.desc j.committed)))) ∧
    (s.blk.served = true →
      ((s.blk.writeDmaCmd c 1).1 = 0 → exec (.dmaResume c) s = .next (s.becomes ((s.blk.setReg (Reg.dmaState c) 1).result 0))) ∧
      ((s.blk.writeDmaCmd c 2).1 = 0 → exec (.dmaAbort c) s = .next (s.becomes ((s.blk.stopDma c).result 0))) ∧
      ((s.blk.writeDmaCmd c 3).1 = 0 → exec (.dmaReset c) s = .next (s.becomes
          ((s.blk.setDma c { s.blk.dmaAt c with cons := 0, prodRd := 0, refused := false, dbCount := 0 }).result 0))) ∧
      ((s.blk.writeDmaEnable c 1).1 = 0 → exec (.dmaEnable c 1) s = .next (s.becomes ((s.blk.setReg (Reg.dmaEnable c) 1).result 0))))

/-- A write of MSG_LEN by the channel's writer is accepted, and sets BUSY and clears the refusal, when the channel is free and the value
in range; else it completes with ACCESS_DENIED and shows the refusal. RSP_DONE clears RSP_READY. An answer placed in RESPONSE clears BUSY, sets
RSP_READY and sends the message of MBOX_VECTOR on channels 0 to 31 (R395, R396). -/
def Obligations.MailboxCompletes : Prop :=
  ∀ (s : State) (ini ch v : Nat), wfInitiator ini = true → wfMbox ch = true →
    (s.blk.clocked = true → mboxWriter ch ini = true →
      let x := s.blk.mboxAt ch
      (x.busy = false → x.ready = false → 8 ≤ v → v ≤ 4096 → exec (.msgLen ini ch v) s = .next (s.becomes
          ((s.blk.setMbox ch { x with busy := true, refused := false, reqLen := v, taken := 0, answer := none }).emit .completion 0 [0]))) ∧
      (x.busy = true ∨ x.ready = true ∨ v < 8 ∨ 4096 < v → exec (.msgLen ini ch v) s = .next (s.becomes
          ((s.blk.setMbox ch { x with refused := true }).emit .completion 0 [7]))) ∧
      exec (.rspDone ini ch 1) s = .next (s.becomes ((s.blk.setMbox ch { x with ready := false }).emit .completion 0 [0]))) ∧
    (∀ (t : Nat) (b : Block) (bytes : List Byte), s.blk.at t = b → b.served = true → (b.mboxAt ch).answer = some bytes →
      (b.mboxAt ch).ready = false →
      let x := { b.mboxAt ch with busy := false, ready := true, rspLen := bytes.length, response := bytesVal bytes, answer := none }
      exec (.mailboxResponse ch t) s = .next (s.becomes
          (if ch < 32 then (b.setMbox ch x).msix ((b.setMbox ch x).reg Reg.mboxVector) else b.setMbox ch x)))

/-! Lanes and links. -/

/-- Each stage of a lane's bring-up passes when its condition holds and its time has run, and the lane enters the next; a stage that
reaches its limit fails, unless it passes at that edge (R26); blocks, but for the first two after alignment (R279), eye counts and the
pattern checker are taken as they come (R278 to R307). -/
def Obligations.LaneStagesComplete : Prop :=
  ∀ (s : State) (t l : Nat) (b : Block), s.blk.at t = b → b.clocked = true → wfLane l = true →
    (b.inStage l lDetect = true → b.steadyFor l = true →
      exec (.detectPass l t) s = .next (s.becomes
        (((b.setReg (Reg.signal l) 1).modLink (b.linkOf l) (fun x => { x with darkSince := 0 })).enterLane l lEq))) ∧
    (b.inStage l lEq = true → exec (.eqPass l t) s = .next (s.becomes (b.enterLane l lCdr))) ∧
    (b.inStage l lCdr = true → b.steadyFor l = true → exec (.cdrPass l t) s = .next (s.becomes (b.enterLane l lAlign))) ∧
    (∀ found inv, b.inStage l lAlign = true → alignedBy (b.reg (Reg.rate l)) found = some inv →
      let c := (b.setReg (Reg.polarityInv l) (b2n inv)).noteAligned (b.linkOf l)
      exec (.alignPass l found t) s = .next (s.becomes ((c.setLane l { c.laneAt l with skip := 2 }).enterLane l lPolarity))) ∧
    (b.inStage l lPolarity = true → exec (.polarityPass l t) s = .next (s.becomes (b.enterLane l lOrder))) ∧
    (∀ lk, wfLink lk = true → b.startsLink lk = true → (b.enabledLanes lk).all b.orderKnown = true →
      exec (.orderPass lk t) s = .next (s.becomes (b.orderPass lk))) ∧
    (∀ lk arrivals, wfLink lk = true → b.startsLink lk = true → arrivals.length = b.linkWidth lk →
      (b.lanesOf lk).any (fun l => b.inStage l lDeskew) = true →
      exec (.deskewPass lk arrivals t) s = .next (s.becomes (b.deskewPass lk arrivals))) ∧
    (b.inStage l lFec = true → (b.laneAt l).locked = false → 3 ≤ (b.laneAt l).goodWords →
      exec (.fecPass l t) s = .next (s.becomes ((b.setLane l { b.laneAt l with locked := true }).enterLane l lFec))) ∧
    (1 ≤ b.laneState l → b.laneState l ≤ 8 → b.stageAge l (us (b.reg Reg.stageLimitUs)) = true → s.stageWon l t = false →
      exec (.stageFail l t) s = .next (s.becomes (b.failStage l))) ∧
    (∀ hdr blk, b.laneAligned l = true → (b.laneAt l).framed = false → (b.laneAt l).skip = 0 → (b.laneAt l).marked = false →
      exec (.train l hdr blk t) s = .next (s.becomes (b.rxBlock l hdr.toNat blk.toNat)) ∧
      (badBlock hdr.toNat blk.toNat = true → exec (.idle l hdr blk t) s = .next (s.becomes (b.count Reg.badBlocks 1))) ∧
      (badBlock hdr.toNat blk.toNat = false → exec (.idle l hdr blk t) s = .next (s.becomes b))) ∧
    (∀ hdr blk, b.laneAligned l = true → (b.laneAt l).framed = false → (b.laneAt l).skip ≠ 0 →
      let c := b.setLane l { b.laneAt l with skip := (b.laneAt l).skip - 1 }
      exec (.train l hdr blk t) s = .next (s.becomes c) ∧ exec (.idle l hdr blk t) s = .next (s.becomes c)) ∧
    (∀ v, s.blk.served = true → (s.blk.writeEyeGo l v).1 = 0 →
      exec (.eyeGo l v) s = .next (s.becomes ((s.blk.writeEyeGo l v).2.result 0))) ∧
    (∀ errors, b.eyeDue l = true → exec (.eyeCountEnd l errors t) s = .next (s.becomes
        (((b.setReg (Reg.eyeErrors l) (min errors (2 ^ 64 - 1))).setReg (Reg.eyeStatus l) Status.ok).setLane l
        { b.laneAt l with eye := none }))) ∧
    (b.laneState l = lTest → b.reg (Reg.testLock l) = 0 → exec (.checkerLock l t) s = .next (s.becomes
        ((b.setRegs [(Reg.testLock l, 1), (Reg.testBits l, 0), (Reg.testErrors l, 0)]).setLane l
          { b.laneAt l with lockedAt := b.run }))) ∧
    (∀ bits errors, b.laneState l = lTest → b.reg (Reg.testLock l) = 1 → exec (.checkerLockLoss l bits errors t) s = .next (s.becomes
        (((b.count (Reg.testBits l) bits).count (Reg.testErrors l) errors).setReg (Reg.testLock l) 0)))

/-- What happens to a lane of a link: it comes up, delivers a code word, leaves UP for the causes of Table 9.8, and is commanded by the
host; the link then sends what it may (R286, R299, R303 to R306). -/
def Obligations.LaneLinkEventsComplete : Prop :=
  ∀ (s : State) (t l : Nat) (b : Block), s.blk.at t = b → b.clocked = true → wfLane l = true →
    (let lk := s.blk.linkOf l
     let c := b.settleLink lk
     b.startsLink lk = true →
      (c.laneUpDue l = true → exec (.laneUp l t) s = .next (s.becomes ((c.laneUp l).pumpLink lk))) ∧
      (∀ syms, syms.length = 544 → syms.all (fun y => decide (y < 1024)) = true → c.laneAligned l = true →
        exec (.codeword l syms t) s = .next (s.becomes ((c.codeword l syms).pumpLink lk))) ∧
      (∀ blk : BitVec 128, c.laneState l = lUp → (c.laneAt l).marked = false → blk.toNat = 0x4B * 2 ^ 120 →
        exec (.eios l blk t) s = .next (s.becomes ((c.leaveUp l (fun b => b.enterLane l lIdle)).pumpLink lk))) ∧
      (3 ≤ c.laneState l ∧ c.laneState l ≤ 9 ∨ c.laneState l = lTest → exec (.cdrLoss l t) s = .next (s.becomes ((c.cdrLost l).pumpLink lk))) ∧
      (c.reg (Reg.signal l) = 1 ∨ c.laneState l = lDetect → exec (.signalLoss l t) s = .next (s.becomes ((c.signalLost l).pumpLink lk))) ∧
      (c.laneState l = lUp → exec (.alignmentLoss l t) s =
        .next (s.becomes ((c.leaveUp l (fun b => (b.clearRx l).enterLane l lAlign)).pumpLink lk))) ∧
      (c.laneState l = lIdle → c.linkState (c.linkOf l) ≠ kIdle ∨ 0 < (c.linkAt (c.linkOf l)).leaving →
        exec (.exitWindowExpiry l t) s = .next (s.becomes (((c.clearRx l).enterLane l lAlign).pumpLink lk)))) ∧
    (∀ lk, wfLink lk = true → b.startsLink lk = true → (b.settleLink lk).linkState lk = kIdle →
      ((b.settleLink lk).lanesOf lk).any (fun l => (b.settleLink lk).laneState l == lIdle) = true →
      ∀ found arrivals, exec (.trainingBurst ⟨lk, found, arrivals⟩ t) s =
        .next (s.becomes (((b.settleLink lk).burst lk found arrivals).pumpLink lk))) ∧
    (b.served = true →
      (∀ v, (b.writeLaneEn l v).1 = 0 → exec (.laneEn l v t) s =
        .next (s.becomes (((b.writeLaneEn l v).2.result 0).linkEvent (s.blk.linkOf l) t id))) ∧
      ((b.writeLaneCmd l 1).1 = 0 → exec (.laneRestart l t) s =
        .next (s.becomes (((b.writeLaneCmd l 1).2.result 0).linkEvent (s.blk.linkOf l) t id))) ∧
      ((b.writeLaneCmd l 2).1 = 0 → exec (.step l t) s =
        .next (s.becomes (((b.writeLaneCmd l 2).2.result 0).linkEvent (s.blk.linkOf l) t id))) ∧
      ((b.writeLaneCmd l 3).1 = 0 → exec (.test l t) s =
        .next (s.becomes (((b.writeLaneCmd l 3).2.result 0).linkEvent (s.blk.linkOf l) t id))) ∧
      ((b.writeLaneCmd l 4).1 = 0 → exec (.testStop l t) s =
        .next (s.becomes (((b.writeLaneCmd l 4).2.result 0).linkEvent (s.blk.linkOf l) t id))))

/-- A container of an ACTIVE link whose CRC holds and no block of which has an error mark, that is the next in sequence and breaks no rule of the protocol, is accepted, and its
content has the effect of its type; the link then sends what it may (R315 to R319, R325, R326). -/
def Obligations.ContainersComplete : Prop :=
  ∀ (s : State) (t lk : Nat) (w : BitVec 576) (b : Block), s.blk.at t = b → b.clocked = true → wfLink lk = true →
    b.startsLink lk = true → (b.settleLink lk).linkState lk = kActive → cCrc w.toNat = containerCrc w.toNat →
    (b.settleLink lk).linkMarked lk = false → ((b.settleLink lk).linkAt lk).expect = cSeq w.toNat →
    ((b.settleLink lk).acceptContainer lk w.toNat).protoError lk w.toNat = false →
    let a := (b.settleLink lk).acceptContainer lk w.toNat
    let c := w.toNat
    (cKind c = .req → exec (.req lk w t) s = .next (s.becomes ((a.rxReqContainer lk c).pumpLink lk))) ∧
    (cKind c = .headW → exec (.headW lk w t) s = .next (s.becomes ((a.rxHeadW lk c).pumpLink lk))) ∧
    (cKind c = .mask → exec (.mask lk w t) s = .next (s.becomes ((a.rxMask lk c).pumpLink lk))) ∧
    (cKind c = .dataW → exec (.dataW lk w t) s = .next (s.becomes ((a.rxDataW lk c false).pumpLink lk))) ∧
    (cKind c = .dataWP → exec (.dataWP lk w t) s = .next (s.becomes ((a.rxDataW lk c true).pumpLink lk))) ∧
    (cKind c = .abortW → exec (.abortW lk w t) s = .next (s.becomes ((a.rxAbortW lk).pumpLink lk))) ∧
    (cKind c = .headD → exec (.headD lk w t) s = .next (s.becomes ((a.rxHeadD lk c).pumpLink lk))) ∧
    (cKind c = .dataD → exec (.dataD lk w t) s = .next (s.becomes ((a.rxDataD lk c false).pumpLink lk))) ∧
    (cKind c = .dataDP → exec (.dataDP lk w t) s = .next (s.becomes ((a.rxDataD lk c true).pumpLink lk))) ∧
    (cKind c = .tailD → exec (.tailD lk w t) s = .next (s.becomes ((a.rxTailD lk c).pumpLink lk))) ∧
    (cKind c = .rsp → exec (.rsp lk w t) s = .next (s.becomes ((a.rxRspContainer lk c).pumpLink lk))) ∧
    (cKind c = .null → exec (.null lk w t) s = .next (s.becomes (a.pumpLink lk))) ∧
    (cKind c = .snpK → exec (.snpK lk w t) s = .next (s.becomes ((a.rxSnpK lk c).pumpLink lk))) ∧
    (cKind c = .snpA → exec (.snpA lk w t) s = .next (s.becomes ((a.rxSnpA lk c).pumpLink lk)))

/-- A control block of its type whose CRC16 holds and whose reserved bits are zero, on a link with a lane up, has its effect; the link
then sends what it may (R320, R322, R327, R336 to R342, R351); it lies in no block with an error mark, or a copy of it does not (R286). -/
def Obligations.ControlBlocksComplete : Prop :=
  ∀ (s : State) (t lk : Nat) (w : BitVec 128) (b : Block), s.blk.at t = b → b.clocked = true → wfLink lk = true →
    b.startsLink lk = true → ((b.settleLink lk).upLanes lk).isEmpty = false → crc16Ok w.toNat = true →
    w.toNat &&& kReserved (kType w.toNat) = 0 → (b.settleLink lk).controlMarked lk (kType w.toNat) = false →
    let c := b.settleLink lk
    let x := w.toNat
    (kType x = 0x60 → exec (.ack lk w t) s = .next (s.becomes ((c.rxAck lk x).pumpLink lk))) ∧
    (kType x = 0x61 → c.linkState lk = kActive →
      exec (.nak lk w t) s = .next (s.becomes ((c.replay lk (some (bitsOf x 119 108))).pumpLink lk))) ∧
    (kType x = 0x62 → exec (.init lk w t) s = .next (s.becomes ((c.rxInit lk x).pumpLink lk))) ∧
    (kType x = 0x63 → exec (.lanes lk w t) s = .next (s.becomes ((c.rxLanes lk x).pumpLink lk))) ∧
    (kType x = 0x64 → bitsOf x 119 118 ≠ 2 → c.linkState lk = kActive →
      exec (.flush lk w t) s = .next (s.becomes ((c.rxFlush lk (bitsOf x 119 118)).pumpLink lk))) ∧
    (kType x = 0x65 → exec (.flushAck lk w t) s = .next (s.becomes ((c.rxFlushAck lk (bitsOf x 119 118)).pumpLink lk))) ∧
    (kType x = 0x33 → exec (.keepalive lk w t) s =
      .next (s.becomes ((c.modLink lk (fun y => { y with lastRx := c.run })).pumpLink lk))) ∧
    (kType x = 0x68 → c.mayIdle lk = true →
      exec (.idleReq lk w t) s = .next (s.becomes (((c.sendControl lk 0x69 0).goIdle lk).pumpLink lk))) ∧
    (kType x = 0x69 → (c.linkAt lk).idleAsked = true → c.linkState lk = kActive →
      exec (.idleAck lk w t) s = .next (s.becomes ((c.goIdle lk).pumpLink lk))) ∧
    (∀ frac turn, kType x = 0x66 → c.linkState lk = kActive →
      exec (.timeReq lk w t frac turn) s = .next (s.becomes ((c.rxTimeReq lk x frac turn).pumpLink lk))) ∧
    (∀ frac, kType x = 0x67 → c.isParent lk = true → c.linkState lk = kActive →
      exec (.timeRsp lk w t frac) s = .next (s.becomes ((c.rxTimeRsp x frac).pumpLink lk)))

/-- The times of a link run out on the conditions the manual gives: a failed CRC, idle entry and exit, acknowledgements, replays,
keep-alives and the loss of the partner (R325 to R342), unless what a limit waits for is visible at its edge (R26). -/
def Obligations.LinkTimersComplete : Prop :=
  ∀ (s : State) (t lk : Nat) (b : Block), s.blk.at t = b → b.clocked = true → wfLink lk = true → b.startsLink lk = true →
    let c := b.settleLink lk
    let x := c.linkAt lk
    (c.linkState lk = kActive → exec (.crcFailure lk t) s = .next (s.becomes ((c.crcFailed lk).pumpLink lk))) ∧
    (c.idleReqDue lk = true → exec (.linkIdleTimer lk t) s = .next (s.becomes
        (((c.sendControl lk 0x68 0).modLink lk (fun y => { y with idleAsked := true, askedAt := c.run })).pumpLink lk))) ∧
    (c.linkState lk = kIdle → x.since + ms 1 ≤ c.run →
      exec (.idleKeepaliveExit lk t) s = .next (s.becomes ((c.leaveIdle lk).pumpLink lk))) ∧
    (c.linkState lk = kIdle → 0 < x.leaving → x.leaving + us 30 ≤ c.run + 1 →
      s.exitWon lk t = false → exec (.idleExitTimeout lk t) s = .next (s.becomes ((c.partnerLost lk 5).pumpLink lk))) ∧
    (0 < x.accepted → x.acceptedAt + 14400 ≤ c.run → c.linkState lk = kActive →
      exec (.ackTimer lk t) s = .next (s.becomes ((c.sendAck lk).pumpLink lk))) ∧
    (x.discarding = true → c.linkState lk = kActive → x.nakAt + us 2 ≤ c.run →
      s.orderWon lk t = false → exec (.nakRepeat lk t) s = .next (s.becomes ((c.sendNak lk).pumpLink lk))) ∧
    (x.replay.isEmpty = false → c.linkState lk = kActive → x.progressAt + us 4 ≤ c.run →
      s.ackWon lk t = false → exec (.replayTimeout lk t) s = .next (s.becomes ((c.replay lk none).pumpLink lk))) ∧
    (c.linkState lk = kActive → x.lastTx + us 10 ≤ c.run →
      exec (.keepaliveTimer lk t) s = .next (s.becomes ((c.sendKeepalive lk).pumpLink lk))) ∧
    (c.holdsLink lk = true → c.linkState lk ≠ kIdle → x.lastRx + us 30 ≤ c.run →
      s.heardWon lk t = false → exec (.keepaliveTimeout lk t) s = .next (s.becomes ((c.partnerLost lk 2).pumpLink lk))) ∧
    (c.holdsLink lk = true → c.linkState lk ≠ kIdle → 0 < x.darkSince → x.darkSince + us 4 ≤ c.run + 1 →
      (c.enabledLanes lk).all (fun l => c.reg (Reg.signal l) == 0) = true →
      s.lightWon lk t = false → exec (.signalLossTimeout lk t) s = .next (s.becomes ((c.partnerLost lk 1).pumpLink lk))) ∧
    (∀ v, b.served = true → (b.writeFlush (s.losesPartner lk t) lk v).1 = 0 →
      exec (.flushStart lk v t) s = .next (s.becomes (((b.writeFlush (s.losesPartner lk t) lk v).2.result 0).linkEvent lk t id)))

/-- Routes and swarm time: a hold-off ends, CUR moves, a node is declared lost, NODE_ID is written, time is asked for, and an answer to
that question is given up after 100 µs (R347 to R353). -/
def Obligations.SwarmCompletes : Prop :=
  ∀ (s : State) (t : Nat) (b : Block), s.blk.at t = b → b.clocked = true →
    (∀ node lk, wfNode node = true → wfLink lk = true → 0 < b.link.holdoff.look (512 * node + lk) →
      b.link.holdoff.look (512 * node + lk) ≤ b.run → exec (.holdoffExpiry node lk t) s = .next (s.becomes
          ({ b with link := { b.link with holdoff := b.link.holdoff.put (512 * node + lk) 0 } }.routesChanged))) ∧
    (∀ node, wfNode node = true → exec (.adaptSwitch node t) s = .next (s.becomes (b.adaptSwitch node))) ∧
    (∀ node, wfNode node = true → b.nodeLostDue node = true → exec (.nodeLost node t) s = .next (s.becomes (b.nodeLost node))) ∧
    (∀ v, s.blk.served = true → (s.blk.writeNodeId v).1 = 0 →
      exec (.nodeId v) s = .next (s.becomes ((s.blk.writeNodeId v).2.result 0))) ∧
    (∀ frac, b.link.time.lastAsk + us (b.reg Reg.timeIntervalUs) ≤ b.run →
      exec (.timeInterval t frac) s = .next (s.becomes (b.timeInterval frac))) ∧
    (∀ id at', b.link.time.sent = some (id, at') → at' + us 100 ≤ b.run → s.timeWon t = false → exec (.timeRspTimeout t) s = .next (s.becomes
        ({ b with link := { b.link with time := { b.link.time with sent := none } } })))

/-! Power, heat, commits and health. -/

/-- Wakes are asked for, granted on a REFCLK edge and named by the host, and age; the fabric divider is written and falls due at the next
cricket tick (R420, R428 to R433). -/
def Obligations.GovernorCompletes : Prop :=
  ∀ (s : State) (t : Nat) (b : Block), s.blk.at t = b → b.clocked = true →
    (b.clock % refclk = 0 → exec (.wakeGrant t) s = .next (s.becomes (b.governor))) ∧
    (∀ r prio, wfRegion r = true → prio < 8 → b.started = true → b.isRetired r = false →
      exec (.wakeRequest 0 r prio t) s = .next (s.becomes (b.wakeRegion r prio))) ∧
    (∀ l prio, wfLane l = true → prio < 8 → b.started = true → b.laneState l = lOff → (b.laneAt l).waking = false →
      b.reg (Reg.laneEn l) = 1 ∨ b.reg (Reg.wakeEn l) = 1 →
      exec (.wakeRequest 1 l prio t) s = .next (s.becomes (b.wakeLane l false))) ∧
    (∀ v, s.blk.served = true → (s.blk.writeWgGrant v).1 = 0 → exec (.wgGrant v) s = .next (s.becomes
        (let x := (bitsOf v 10 10, bitsOf v 9 0)
         { s.blk with wg := { s.blk.wg with named := x :: s.blk.wg.named.filter (fun n => !(n == x)) } }.result 0))) ∧
    (∀ rail unit, wfRail rail = true → (if rail = 0 then wfRegion unit else wfLane unit) = true → b.fmode fnWake = 1 →
      s.grantWon rail unit = false →
      exec (.hostWakeLimit rail unit t) s = .next (s.becomes (b.ageWake rail unit))) ∧
    (∀ v, b.served = true → (b.writeFabricDiv v).1 = 0 → exec (.fabricDiv v t) s = .next (s.becomes
        ({ b.setRegs [(Reg.fabricDiv, v), (Reg.fabricHz, 28800000000 / v)] with
        clk := { b.clk with divDue := some (tickAfter b.clock, v) } }.result 0)))

/-- A sample is taken every 100 µs and comes into force when due, and the throttle requests decay at a cricket tick (R450 to R459). -/
def Obligations.ThermalCompletes : Prop :=
  ∀ (s : State) (t : Nat) (b : Block), s.blk.at t = b → b.clocked = true →
    (∀ raws, raws.length = 448 → b.clock % (100 * tick) = 0 → exec (.thermalSample raws t) s = .next (s.becomes
        (b.takeSample raws))) ∧
    (∀ due raws, b.therm.pending = some (due, raws) → due ≤ b.clock →
      exec (.sampleInForce t) s = .next (s.becomes (b.sampleInForce raws))) ∧
    (b.clock % tick = 0 → b.clk.lastTick ≠ b.cricket → exec (.throttleDecay t) s = .next (s.becomes
        ((List.range 64).foldl Block.decayArea { b with clk := { b.clk with lastTick := b.cricket } })))

/-- A throttle target above the warning level, and a warning level below the target, each within its range, is aborted with CONDITION
and changes nothing (R457). -/
def Obligations.ThermalLevels : Prop :=
  ∀ (b : Block) (via : Via) (v : Nat), v < 2 ^ 32 →
    (checkValue Reg.target v = 0 → b.ireg Reg.warn < signedOf 32 v →
      b.dictWrite via 0x9000 0x03 4 v = (Abort.condition, b)) ∧
    (checkValue Reg.warn v = 0 → signedOf 32 v < b.ireg Reg.target →
      b.dictWrite via 0x9000 0x02 4 v = (Abort.condition, b))

/-- Commits: the host starts one, a unit's reply counts, the windows end, the change applies at its edge; a device change begins; the
messages of a swarm commit are received; a doubt is resolved (R407 to R417). -/
def Obligations.CommitsComplete : Prop :=
  ∀ (s : State) (t : Nat) (b : Block), s.blk.at t = b → b.clocked = true →
    (∀ v, b.served = true → (b.writeCommitGo v).1 = 0 → exec (.commitGo v t) s = .next (s.becomes ((b.writeCommitGo v).2.result 0))) ∧
    (∀ c, b.commit.run = some c → ∀ u code, wfUnit u = true → b.unitAbsent u = false → c.unitSince.isSome = true → c.part = false →
      replyOf (b.reg Reg.unitReplies) u = rcAwaited →
      (let d := b.setReg Reg.unitReplies (putReply (b.reg Reg.unitReplies) u rcStaged)
       exec (.unitReply u rcStaged code t) s = .next (s.becomes (if d.unitsStaged = true then d.allStaged c else d))) ∧
      (b.shadowed u = false → exec (.unitReply u rcRefused code t) s = .next (s.becomes
          ((b.setReg Reg.unitReplies (putReply (b.reg Reg.unitReplies) u rcRefused)).decideAbort c false u (refusalCode rcRefused code))))) ∧
    (s.repliesWon t = false →
      let heard := (s.settle (replyRow t)).blk
      (∀ c, b.commit.run = some c → b.windowOver c.unitSince 100 = true →
        exec (.commitWindow t) s = .next (s.becomes (b.unitWindow c heard))) ∧
      (∀ c, b.commit.run = some c → b.windowOver c.unitSince 100 = false →
        b.windowOver c.nodeSince (b.reg Reg.swarmWindowUs) = true →
        exec (.commitWindow t) s = .next (s.becomes (b.nodeWindow c heard)))) ∧
    (∀ c, b.applyDue = some c → exec (.epochApply t) s = .next (s.becomes (b.epochApply c))) ∧
    (b.commit.run = none → ∀ x rest, b.commit.waiting = x :: rest → exec (.deviceCommit t) s = .next (s.becomes
        ({ b with commit := { b.commit with waiting := rest } }.beginDevice x))) ∧
    (b.commit.run = none → ∀ x due rest, b.commit.retry = (x, due) :: rest → due ≤ b.run → exec (.commitRetry t) s = .next (s.becomes
        ({ b with commit := { b.commit with retry := rest } }.beginDevice x))) ∧
    (let d := b.epochAnswer 0x10 none
     ∀ epoch groups coord, wfNode coord = true → d.commit.run = none → d.reg Reg.lastEpoch < epoch →
      exec (.prepare epoch groups coord t) s = .next (s.becomes
          ((d.beginCommit.setRegs [(Reg.partEpoch, epoch), (Reg.partCoord, coord)]).prepareUnits
          { epoch := epoch, groups := groups, part := true }))) ∧
    (∀ node epoch reply code, wfNode node = true →
      exec (.prepared node epoch reply code t) s = .next (s.becomes (b.prepared node epoch reply code))) ∧
    (∀ epoch applyAt c, b.holdsEpoch epoch = some c → exec (.apply epoch applyAt t) s = .next (s.becomes
        ((b.epochAnswer 0x11 (some (0x91, []))).applyHeld c applyAt false))) ∧
    (let d := b.epochAnswer 0x12 (some (0x92, []))
     ∀ epoch c, d.commit.run = some c → c.part = true → c.epoch = epoch → c.applyAt = none →
      exec (.abortEpoch epoch t) s = .next (s.becomes (d.discardHeld c))) ∧
    (∀ node epoch, wfNode node = true → s.blk.served = true → exec (.query node epoch) s = .next (s.becomes
        (s.blk.query node epoch))) ∧
    (∀ epoch applyAt c, b.holdsEpoch epoch = some c → c.applyAt = none → exec (.queryOk epoch 3 applyAt t) s = .next (s.becomes
        ((b.epochMessage (b.reg Reg.partCoord) 0x92 [epoch]).discardHeld c))) ∧
    (b.askDue = true → s.outcomeWon t = false → exec (.applyWait t) s = .next (s.becomes (b.askCoordinator))) ∧
    (b.served = true → b.reg Reg.partState = 2 → ∀ c, b.commit.run = some c →
      exec (.resolveApply t) s = .next (s.becomes
          (((b.count Reg.resolves 1).applyHeld c ((b.count Reg.resolves 1).epochAfter 0) false).result 0)) ∧
      exec (.resolveDiscard t) s = .next (s.becomes (((b.count Reg.resolves 1).discardHeld c).result 0))) ∧
    (∀ node epoch applied, wfNode node = true →
      exec (.epochAcknowledgement node epoch applied t) s = .next (s.becomes (b.epochAck node epoch applied)))

/-- A device runs one commit at a time: a COMMIT_GO in another commit is aborted with COMMIT_BUSY and changes nothing, a change of the
device waits, and one that aborts is due again 100 µs later and is then begun again. -/
def Obligations.OneCommitAtATime : Prop :=
  ∀ (s : State) (t : Nat) (b : Block), s.blk.at t = b → b.clocked = true →
    (∀ c, b.commit.run = some c → b.served = true → exec (.commitGo 1 t) s = .next (s.becomes (b.result Abort.commitBusy))) ∧
    (∀ c, b.commit.run = some c → exec (.deviceCommit t) s = .next (s.becomes b) ∧ exec (.commitRetry t) s = .next (s.becomes b)) ∧
    (∀ c x nodes first code, c.change = some x →
      (b.decideAbort c nodes first code).commit.retry = b.commit.retry ++ [(x, b.run + us 100)]) ∧
    (∀ x due rest, b.commit.run = none → b.commit.retry = (x, due) :: rest → due ≤ b.run → exec (.commitRetry t) s = .next (s.becomes
        ({ b with commit := { b.commit with retry := rest } }.beginDevice x)))

/-- Visits, tests, limits and changes of the bonds; the ladybirds and their latches; the ledgers' limit; the log and the hand-over of
the stewards (R465 to R489). A limit gives way to the event it waits for at the same edge (R26). -/
def Obligations.HealthCompletes : Prop :=
  ∀ (s : State) (t : Nat) (b : Block), s.blk.at t = b → b.clocked = true →
    (∀ seam group visits, wfSeam seam = true → group < seamGroups seam → b.groupIdle seam group = true →
      exec (.weevilVisit seam group visits t) s = .next (s.becomes (b.weevilVisit seam group visits))) ∧
    (∀ visits, b.served = true → (b.writeBondTest visits).1 = 0 →
      exec (.bondTest visits t) s = .next (s.becomes ((b.writeBondTest visits).2.result 0))) ∧
    (b.clock % tick = 0 → exec (.exhaustionWindowEnd t) s = .next (s.becomes (b.windowEnd (s.completionSeen t)))) ∧
    (b.served = true → b.writeBondRetire.1 = 0 → exec (.bondRetire t) s = .next (s.becomes (b.writeBondRetire.2.result 0))) ∧
    (∀ seam group x, wfSeam seam = true → b.awaitsHost seam group = some x → x.e0 + ms (b.reg Reg.hostBondLimitMs) ≤ b.run →
      s.bondWon seam group t = false → exec (.hostBondLimit seam group t) s = .next (s.becomes (b.actOn x))) ∧
    (∀ seam, wfSeam seam = true → exec (.powerBondAlarm seam t) s = .next (s.becomes (b.powerBondAlarm seam)) ∧
      (b.powerBondAlarm seam).reg (Reg.powerBondAlarms seam) = satAdd (b.reg (Reg.powerBondAlarms seam)) 1
        (regTop (Reg.powerBondAlarms seam))) ∧
    (∀ die k, wfDie die = true → k < 2 → (b.ladybird die k).stalledAt = 0 → (b.ladybird die k).down = false →
      b.dieHeld (2 + 3 * die) = false → exec (.ladybirdVisit die k t) s = .next (s.becomes (b.ladybirdVisit die k))) ∧
    (b.clock % (1000000 * tick) = 0 → exec (.latchRefresh t) s = .next (s.becomes (b.latchRefresh))) ∧
    (∀ die k, wfDie die = true → k < 2 → (b.ladybird die k).stalledAt = 0 → (b.ladybird die (1 - k)).stalledAt = 0 →
      exec (.ladybirdTakeover die k t) s = .next (s.becomes (b.takeover die k))) ∧
    (∀ die, wfDie die = true → (b.ladybird die 0).down = false →
      exec (.ladybirdsDown die t) s = .next (s.becomes (b.ladybirdsDown die))) ∧
    (∀ ini tag, wfInitiator ini = true → tag < 1024 → (ini < 256 ∨ 320 ≤ ini) → (b.ledgerAt ini tag).state = .opened →
      (b.ledgerAt ini tag).openAt + us (b.ledgerAt ini tag).limit ≤ b.run → s.ledgerWon ini tag t = false →
      exec (.ledgerTimeout ini tag t) s = .next (s.becomes (b.ledgerTimeout ini tag))) ∧
    (∀ ini tag e, 256 ≤ ini → ini < 320 → tag < 1024 → (b.octetLedger (ini - 256))[tag]? = some e → e.since + us e.limit ≤ b.run →
      s.ledgerWon ini tag t = false → exec (.ledgerTimeout ini tag t) s = .next (s.becomes
        (((((b.closeEgress e).octetAnswer (ini - 256) e Status.timeout e.beats).count Reg.ledgerTimeouts 1).ledgerReport ini tag
          Status.timeout e.beats).retryOctet (ini - 256)))) ∧
    (s.blk.served = true → exec (.logClear 1) s = .next (s.becomes
        ({ s.blk with health := { s.blk.health with log := [] } }.result 0))) ∧
    (∀ v, b.served = true → (b.writeFwSwitch v).1 = 0 → exec (.fwSwitch v t) s = .next (s.becomes ((b.writeFwSwitch v).2.result 0))) ∧
    (∀ h, b.health.handOver = some h → exec (.fwHandoverEnd t) s = .next (s.becomes
        (({ b.setRegs [(Reg.fwActive, h.slot), (Reg.fwSwitchStatus, Status.ok), (Reg.stewardsUp, 15)] with
          health := { b.health with handOver := none } }.count Reg.handovers 1).logEvent 0x0604 0 368 (h.slot + b2n h.cold * 2 ^ 8))))

/-- An event of a coalescing code with the source of the newest entry of its code, within LOG_COALESCE_MS of its TIME, increments that
entry's REPEAT and writes no new entry; with LOG_COALESCE_MS = 0 every event makes an entry of its own. -/
def Obligations.LogCoalesces : Prop :=
  ∀ (b : Block) (code kind num data : Nat) (e : LogEntry), logCoalesces code = true →
    b.health.log.find? (fun x => x.code == code) = some e →
    (b.reg Reg.logCoalesceMs ≠ 0 → e.srcKind = kind → e.srcNum = num → b.ts - e.time ≤ b.reg Reg.logCoalesceMs * 100000 →
      (b.logEvent code kind num data).health.log.length = b.health.log.length ∧
      (b.logEvent code kind num data).health.log.map (·.seq) = b.health.log.map (·.seq) ∧
      { e with rep := satAdd e.rep 1 0xFFFF } ∈ (b.logEvent code kind num data).health.log ∧
      (b.logEvent code kind num data).regs = b.regs) ∧
    (b.reg Reg.logCoalesceMs = 0 → b.logEvent code kind num data = b.logNew code kind num data)

/-! Configuration, trust, resets and the ports. -/

/-- The run-time package commands and the fuse and attestation commands, not aborted, have their effects, and each ends as it reports
(R370, R378 to R383). -/
def Obligations.PackagesAndFusesComplete : Prop :=
  ∀ (s : State) (t : Nat) (b : Block), s.blk.at t = b → b.clocked = true →
    (b.served = true →
      ((b.writePkgCmd 1).1 = 0 → exec (.pkgContextInstall t) s = .next (s.becomes ((b.installJob 1 2).result 0))) ∧
      ((b.writePkgCmd 2).1 = 0 → b.reg Reg.fwActive ≠ 0 → exec (.pkgFwInstallA t) s = .next (s.becomes
          ((b.installJob 2 3).result 0))) ∧
      ((b.writePkgCmd 3).1 = 0 → b.reg Reg.fwActive ≠ 1 → exec (.pkgFwInstallB t) s = .next (s.becomes
          ((b.installJob 3 3).result 0))) ∧
      ((b.writePkgCmd 4).1 = 0 → exec (.pkgUcodeStage t) s = .next (s.becomes ((b.installJob 4 4).result 0))) ∧
      ((b.writePkgCmd 5).1 = 0 → exec (.pkgUcodeLoad t) s = .next (s.becomes ((b.writePkgCmd 5).2.result 0))) ∧
      ((b.fuseOrder 1).1 = 0 → exec (.fuseProgramSlot t) s = .next (s.becomes ((b.fuseOrder 1).2.result 0))) ∧
      ((b.fuseOrder 2).1 = 0 → exec (.fuseRevoke t) s = .next (s.becomes ((b.fuseOrder 2).2.result 0))) ∧
      ((b.fuseOrder 3).1 = 0 → exec (.fuseSetImageKey t) s = .next (s.becomes ((b.fuseOrder 3).2.result 0))) ∧
      ((b.fuseOrder 4).1 = 0 → exec (.fuseRollback t) s = .next (s.becomes ((b.fuseOrder 4).2.result 0))) ∧
      ((b.fuseOrder 5).1 = 0 → exec (.fuseSetMgmtPaths t) s = .next (s.becomes ((b.fuseOrder 5).2.result 0))) ∧
      (b.reg Reg.attestStatus < 128 → exec (.attestGo 1 t) s = .next (s.becomes
          (({ b with cfg := { b.cfg with attest := some (bytesVal b.reportBytes) } }.setReg Reg.attestStatus 0x80).result 0)))) ∧
    (∀ j, b.cfg.pkgJob = some j → j.unread = false → exec (.packageEnd t) s = .next (s.becomes (b.packageEnd)) ∧ b.packageEnd.cfg.pkgJob = none) ∧
    (∀ op slot v, b.cfg.fuseJob = some (op, slot, v) → exec (.fuseDone t) s = .next (s.becomes
        ({ b with fuses := b.fuses.blow op slot v, cfg := { b.cfg with fuseJob := none, fuseLen := 64 } }.setRegs
        [(Reg.fuseStatus, 0), (Reg.fuseValue, 0), (Reg.fuseAuth, 0)]))) ∧
    (∀ r, b.cfg.attest = some r → exec (.attestDone t) s = .next (s.becomes
        ({ b.draw.2 with cfg := { b.cfg with attest := none } }.setRegs
        [(Reg.report, r + 2 ^ (8 * 0x200) * (b.draw.1 % 2 ^ 4096)), (Reg.attestStatus, 0)])))

/-- Configuration: headers, frames and the bytes of a stream are taken while the step loads, limits run out, the design starts, and the
slave ports answer (R359 to R377, R510 to R515). -/
def Obligations.ConfigurationCompletes : Prop :=
  ∀ (s : State) (t : Nat) (b : Block), s.blk.at t = b → b.clocked = true →
    (∀ bytes, b.cfg.step = .directory → exec (.packageHeader bytes t) s = .next (s.becomes (b.takeDirectory bytes))) ∧
    (∀ bytes, b.cfg.step ≠ .directory → b.loading = true → b.cfg.pkg = none → exec (.packageHeader bytes t) s = .next (s.becomes
        ({ b.firstByte with cfg := { b.firstByte.cfg with heard := b.run } }.takeHeader bytes))) ∧
    (∀ bytes p, b.cfg.pkg = some p → b.loading = true → exec (.frame bytes t) s = .next (s.becomes
        ({ b with cfg := { b.cfg with heard := b.run } }.takeUnit p bytes))) ∧
    (∀ off bytes, off + bytes.length ≤ 2 ^ 24 → exec (.pushWrite off bytes t) s = .next (s.becomes (b.pushWrite off bytes))) ∧
    (b.selfRead = true → b.cfg.step = .image → b.cfg.pkg.isSome = true → b.cfg.since + ms (b.reg Reg.limitInForceMs) ≤ b.run →
      s.imageWon t = false → exec (.imageLimit t) s = .next (s.becomes (b.packageFailed 14))) ∧
    (b.pushes = true → b.cfg.step = .image → (b.cfg.pkg.isSome = true ∨ b.cfg.unit ≠ []) →
      b.cfg.heard + ms (b.reg Reg.pushLimitMs) ≤ b.run → s.byteWon t = false → exec (.pushLimit t) s = .next (s.becomes (b.packageFailed 14))) ∧
    (b.cfg.step = .starting → b.clock % tick = 0 → b.cfg.since + us 1 ≤ b.run →
      exec (.globalStart t) s = .next (s.becomes (b.globalStart))) ∧
    (b.cfg.checking = true → exec (.unitCheckEnd t) s = .next (s.becomes (b.unitChecked))) ∧
    (∀ pcsn pvalid w, b.reg Reg.modePins = 3 →
      exec (.parallelWord pcsn pvalid w t) s = .next (s.becomes (b.parallelEdge pcsn pvalid w.toNat))) ∧
    (∀ bytes, exec (.writeStream bytes t) s = .next (s.becomes (b.streamBytes bytes)) ∧
      exec (.writeStreamQ bytes t) s = .next (s.becomes (b.streamBytes bytes))) ∧
    (s.blk.clocked = true → s.blk.reg Reg.modePins = 2 →
      exec .readStatus s = .next (s.becomes
          ({ s.blk.emit .port 2 [s.blk.serialStatus, s.blk.reg Reg.cfgState, s.blk.reg Reg.failCode, 0] with
          cfg := { s.blk.cfg with refused := false } })) ∧
      exec .readNext s = .next (s.becomes (s.blk.emit .port 2 ((bytesOf 8 (s.blk.reg Reg.pushNext)).map (·.toNat)))))

/-- Stops, trips, restarts, Hibernate and the resets of the whole device happen on the conditions the manual gives, and each brings the
block to the state of its rule (R434 to R443, R462). -/
def Obligations.DeviceResetsComplete : Prop :=
  ∀ (s : State) (t : Nat) (b : Block), s.blk.at t = b →
    (∀ cause rails, 1 ≤ cause → cause ≤ 4 → b.clk.mode ≠ .por →
      exec (.stop cause rails t) s = .next (s.becomes (b.declareStop cause rails)) ∧
      (b.declareStop cause rails).halted = true ∧ (b.declareStop cause rails).reg Reg.lastStopCause = cause) ∧
    (∀ k, wfSensor k = true → b.clk.mode ≠ .por → b.reg (Reg.suspect k) = 0 →
      exec (.thermalTrip k t) s = .next (s.becomes (b.trip k)) ∧ (b.trip k).reg Reg.lastStopCause = 4 ∧
      (b.clk.stop = none → b.trip k =
        ((b.count Reg.trips 1).setReg Reg.lastTripSensor k).declareStop 4 (b.reg Reg.railsInRange))) ∧
    (∀ st, b.clk.stop = some st → st.last + ms 1 ≤ b.clk.now → exec (.stopRestart t) s = .next (s.becomes (b.stopRestart))) ∧
    (b.served = true → b.hibernateBarred = false → exec (.hibernate 1 t) s = .next (s.becomes (b.enterHibernate.result 0))) ∧
    (∀ src unit, src ≤ 5 → (src ≠ 0 ∨ wfLane unit = true) → b.wakes src unit = true →
      exec (.wakeSource src unit t) s = .next (s.becomes (b.wakeDevice src unit))) ∧
    (exec .powerOnReset s = .next (s.becomes ({ fuses := s.blk.fuses, outbox := s.blk.lanesSilent.outbox, free := s.blk.free }))) ∧
    (∀ mode nid rails, mode < 8 → wfNode nid = true → s.blk.clk.mode = .por →
      exec (.porRelease mode nid rails) s = .next (s.becomes (s.blk.porRelease mode nid rails))) ∧
    (b.clk.mode ≠ .por → b.clk.stop = none → exec (.rstnLow t) s = .next (s.becomes (b.resetDevice 1))) ∧
    (∀ mode, mode < 8 → b.releaseDue = true →
      exec (.deviceResetRelease mode t) s = .next (s.becomes (b.deviceRelease mode))) ∧
    (b.served = true → b.clk.resetDue = none → exec (.deviceReset 0xA5 t) s = .next (s.becomes
        ({ b with clk := { b.clk with resetDue := some (b.run + us 100, 2) } }.result 0))) ∧
    (∀ due cause, b.clocked = true → b.clk.resetDue = some (due, cause) → due ≤ b.run →
      exec (.resetTakesEffect t) s = .next (s.becomes (b.resetDevice cause)))

/-- A die-level reset: the command raises the fence, and the drain window, the hold, the clearing and the lowering follow one another
(R444 to R448), the window's edge as log entry 136 deduces it; DIE_RESET of layer 0 resets the device. -/
def Obligations.DieResetCompletes : Prop :=
  ∀ (s : State) (t : Nat) (b : Block), s.blk.at t = b → b.clocked = true →
    (b.served = true → b.clk.dieReset = none → b.commit.run = none →
      (∀ layer, 1 ≤ layer → layer ≤ 6 → exec (.dieReset layer t) s = .next (s.becomes ((b.raiseFence layer).result 0))) ∧
      exec (.dieReset 0 t) s = .next (s.becomes ((b.resetDevice 3).result 0))) ∧
    (∀ x, b.clk.dieReset = some x →
      (x.step = .draining → b.clock % tick = 0 → x.fenceAt + us (b.reg Reg.drainWindowUs) + ns 50 ≤ b.run →
        exec (.drainWindowEnd t) s = .next (s.becomes (b.drainWindowEnd (s.completionSeen t)))) ∧
      (x.step = .held → x.stepAt + us (b.reg Reg.dieResetHoldUs) ≤ b.run →
        exec (.dieRelease t) s = .next (s.becomes ((b.dieStep .released).setReg (Reg.layerState x.layer) 2))) ∧
      (x.step = .released → x.stepAt + us 2 ≤ b.run → exec (.dieReady t) s = .next (s.becomes
          (x.targets.foldl (fun b e => b.clearSlot e.1 e.2.1 e.2.2) (b.dieStep .ready)))) ∧
      (x.step = .ready → x.stepAt < b.run → b.clock % tick = 0 →
        exec (.fenceLower t) s = .next (s.becomes (b.fenceLower)) ∧ b.fenceLower.clk.dieReset = none))

/-- While a stop is in force FAULTn and ALERTn are asserted, the CAN outputs are recessive, the USB4 port is disconnected and AUXCLK does
not run; nothing clocked happens, and the design, its memories and the links keep their state. A stop declared while one is in force
changes no register but LAST_STOP_CAUSE and the rails shown. -/
def Obligations.StopOutputs : Prop :=
  ∀ (b : Block) (cause rails : Nat),
    let u := b.declareStop cause rails
    u.faultAsserted = true ∧ u.alertAsserted = true ∧ (∀ p, u.canRecessive p = true) ∧ u.auxRuns = false ∧ u.clocked = false ∧
      (b.clk.stop = none → u.reg Reg.usb4State = 0 ∧ u.reg Reg.pcieUp = 0) ∧
      u.ctx = b.ctx ∧ u.rgn = b.rgn ∧ u.mem = b.mem ∧ u.link = b.link ∧ u.disp = b.disp ∧
      u.reg Reg.lastStopCause = cause ∧
      (∀ st, b.clk.stop = some st → u.outbox = b.outbox ∧ u.health = b.health ∧
        ∀ k, k ≠ Reg.lastStopCause → k ≠ Reg.railsInRange → u.reg k = b.reg k)

/-- A device reset keeps the fuses, the steering of the bonds and every register of Table 13.8 but those that record the reset itself; it
empties the memory arrays, counts itself, shows its cause, and leaves CFG_STATE 0 with DONE low (R443). -/
def Obligations.DeviceResetKeeps : Prop :=
  ∀ (b : Block) (cause : Nat),
    let u := b.resetDevice cause
    u.fuses = b.fuses ∧ u.health.steer = b.health.steer ∧ u.mem.cells = [] ∧ u.clk.mode = .deviceReset ∧
      (∀ k ∈ keptRegs, k ≠ Reg.deviceResets → k ≠ Reg.lastResetCause → k ≠ Reg.logSeq → k ≠ Reg.logLost → u.reg k = b.reg k) ∧
      u.reg Reg.lastResetCause = cause ∧
      u.reg Reg.deviceResets = satAdd (b.reg Reg.deviceResets) 1 (regTop Reg.deviceResets) ∧
      u.reg Reg.cfgState = 0 ∧ u.doneHigh = false

/-! The dictionary and its transports. -/

/-- A write of an object that is not there, may not be written, or is of another size is aborted with the code of the first steps of R387
and changes nothing; the first of those that apply, in that order, is the one answered. -/
def Obligations.WriteAborts : Prop :=
  ∀ (s : State) (via : Via) (idx sub len v : Nat), wfVia via = true → s.blk.served = true →
    let aborted (code : Nat) : Prop := exec (.registerWrite via idx sub len v) s = .next (s.becomes (s.blk.result code))
    (objRow idx sub = none → objIndex idx = false → aborted Abort.noIndex) ∧
    (objRow idx sub = none → objIndex idx = true → aborted Abort.noSub) ∧
    (∀ r, objRow idx sub = some r →
      ((r.acc = .ro ∨ r.acc = .cst) → aborted Abort.readOnly) ∧
      (r.acc = .rwi → s.blk.unitIdle idx = false → aborted Abort.notIdle) ∧
      (r.acc ≠ .ro → r.acc ≠ .cst → (r.acc = .rwi → s.blk.unitIdle idx = true) →
        (∀ n, r.size = .fixed n → len ≠ n → aborted Abort.length) ∧ (∀ n, r.size = .upTo n → n < len → aborted Abort.tooLarge)))

/-- A good message to this node on a transport that works, in a mailbox the next of the request its channel is busy with, is served by its
command: one that opens a transfer ends the one that was open (R403), and a request of a mailbox that needs no other answer gets an
empty response (log entry 215) (R389 to R393). -/
def Obligations.MessagesComplete : Prop :=
  ∀ (s : State) (t : Nat) (via : Via) (hdr : BitVec 64) (body : List Byte) (b : Block), s.blk.at t = b → b.clocked = true →
    wfVia via = true → b.viaWorks via = true → b.served = true → via ≠ .mailbox 63 →
    let m : Message := ⟨via, hdr.toNat, body⟩
    b.messageHere m = true → m.node = b.node → m.fault = none →
    let d := match via with
      | .mailbox ch => b.takeRequest ch
      | _ => b
    (m.cmd = 0x01 → exec (.lmpRead via hdr body t) s =
      .next (s.becomes ((((d.endXfer via).endForward via).lmpRead m).requestServed via))) ∧
    (m.cmd = 0x02 → exec (.lmpWrite via hdr body t) s =
      .next (s.becomes ((((d.endXfer via).endForward via).lmpWrite m).requestServed via))) ∧
    (m.cmd = 0x03 → exec (.segRead via hdr body t) s =
      .next (s.becomes ((((d.endXfer via).endForward via).segRead m).requestServed via))) ∧
    (m.cmd = 0x04 → exec (.segWrite via hdr body t) s =
      .next (s.becomes ((((d.endXfer via).endForward via).segWrite m).requestServed via))) ∧
    (m.cmd = 0x05 → exec (.segData via hdr body t) s = .next (s.becomes ((d.segData m).requestServed via))) ∧
    (m.cmd = 0x06 → exec (.blkRead via hdr body t) s =
      .next (s.becomes ((((d.endXfer via).endForward via).blkRead m).requestServed via))) ∧
    (m.cmd = 0x07 → exec (.blkWrite via hdr body t) s =
      .next (s.becomes ((((d.endXfer via).endForward via).blkWrite m).requestServed via))) ∧
    (m.cmd = 0x08 → exec (.blkData via hdr body t) s = .next (s.becomes ((d.blkData m).requestServed via))) ∧
    (m.cmd = 0x09 → exec (.blkAck via hdr body t) s = .next (s.becomes ((d.blkAck m).requestServed via))) ∧
    (m.cmd = 0x0A → exec (.blkEnd via hdr body t) s = .next (s.becomes ((d.blkEnd m).requestServed via))) ∧
    (m.cmd = 0x0B → exec (.blkEndOk via hdr body t) s = .next (s.becomes ((d.blkEndOk m).requestServed via))) ∧
    (m.cmd = 0x0F → exec (.abort via hdr body t) s = .next (s.becomes ((d.abortReceived m).requestServed via)))

/-- A dictionary write that is not aborted, one of USB4_ENABLE among them, is answered with 0 while the stewards serve; a stalled transfer
is aborted, a response to a forwarded message is returned until its limit, which then aborts it, and a CAN frame to this node is taken as
a message (R393, R402, R403, R405). -/
def Obligations.TransportsComplete : Prop :=
  ∀ (s : State) (t : Nat) (b : Block), s.blk.at t = b → b.clocked = true →
    (∀ via u, wfVia via = true → s.blk.served = true →
      (∀ idx sub len v, s.blk.dictWrite via idx sub len v = (0, u) →
        exec (.registerWrite via idx sub len v) s = .next (s.becomes (u.result 0))) ∧
      (∀ v, s.blk.writeUsb4Enable via v = (0, u) → exec (.usb4Enable via v) s = .next (s.becomes (u.result 0)))) ∧
    (∀ via x, wfVia via = true → b.xfer via = some x → x.since + ms (b.reg Reg.lmpStallMs) ≤ b.run →
      s.messageWon via t = false → exec (.lmpStall via t) s = .next (s.becomes (b.abortXfer x Abort.stalled))) ∧
    (∀ via node ch id f w c, wfVia via = true → wfNode node = true → wfMbox ch = true → b.forwardOf via node = some f →
      b.courierReady via node ch id = some c → f.since = some w → f.ch = ch → b.run ≤ w + ms (b.reg Reg.fwdLimitMs) →
      exec (.forwardResponse via node ch id t) s = .next (s.becomes (((b.dropCourier c).returnForward f c.response).launchAll))) ∧
    (∀ via f w, wfVia via = true → b.lmp.forwards.find? (fun f => f.via == via) = some f → f.since = some w →
      w + ms (b.reg Reg.fwdLimitMs) ≤ b.run → s.responseWon via t = false → exec (.fwdTimeout via t) s = .next (s.becomes
          ((b.endForward f.via).lmpAbort via (bitsOf f.hdr 15 8) (bitsOf f.hdr 31 16) (bitsOf f.hdr 39 32) f.node Abort.fwdTimeout))) ∧
    (∀ port (id : BitVec 29) (bytes : List Byte), wfPort port = true → b.canWorks port = true → id.getLsbD 0 = false →
      bitsOf id.toNat 28 25 = 3 → bitsOf id.toNat 24 13 = b.node → 8 ≤ bytes.length →
      exec (.lmpReq port ⟨.fdExtended, id⟩ bytes t) s = .next (s.becomes
          (((b.canReceived port).count (Reg.framesRx port) 1).lmpMessage (frameMessage port (bitsOf id.toNat 12 1) bytes))))

/-- The fields of a header come back from the header made of them (Table 12.1), and its bytes are eight. -/
def Obligations.HeaderRoundTrip : Prop :=
  ∀ (cmd xid idx sub len node : Nat) (last toggle : Bool) (via : Via) (body : List Byte), cmd < 256 → xid < 256 → idx < 65536 →
    sub < 256 → len < 16 → node < 4096 →
    let h := lmpHeader cmd xid idx sub len last toggle node
    let m : Message := ⟨via, h, body⟩
    h < 2 ^ 64 ∧ m.cmd = cmd ∧ m.xid = xid ∧ m.idx = idx ∧ m.sub = sub ∧ m.len = len ∧ m.last = last ∧ m.toggle = toggle ∧
      m.node = node ∧ bitsOf h 63 60 = 0 ∧ bitsOf h 45 44 = 0 ∧ (lmpBytes h body).length = 8 + body.length ∧
      bytesVal ((lmpBytes h body).take 8) = h

/-- A data message that belongs to no open transfer is answered with NO_TRANSFER, and the open transfer goes on; an ABORT received ends its
transfer and is not answered (a mailbox channel gets an empty response, the model's choice, log entry 215). -/
def Obligations.StrayMessages : Prop :=
  ∀ (b : Block) (m : Message),
    ((∀ x, b.xfer m.via = some x → m.of x = false) →
      b.segData m = b.refuseMessage m Abort.noTransfer ∧ b.blkData m = b.refuseMessage m Abort.noTransfer ∧
      b.blkAck m = b.refuseMessage m Abort.noTransfer ∧ b.blkEnd m = b.refuseMessage m Abort.noTransfer ∧
      b.blkEndOk m = b.refuseMessage m Abort.noTransfer ∧ (b.refuseMessage m Abort.noTransfer).xfer m.via = b.xfer m.via) ∧
    (∀ x, b.xfer m.via = some x → m.of x = true →
      (b.abortReceived m).xfer m.via = none ∧
      (∀ p source, m.via = .can p source → (b.abortReceived m).outbox = b.outbox))

/-- The CAN ports' errors, bus-off and its end, the heartbeat, and the USB4 port and its endpoint, on the conditions of R397 to R404; the
error counters follow ISO 11898-1 as log entry 103 presumes, and the heartbeat's target is left open (log entry 104). -/
def Obligations.PortsComplete : Prop :=
  ∀ (s : State) (t : Nat) (b : Block), s.blk.at t = b → b.clocked = true →
    (∀ p, wfPort p = true →
      (∀ tec rec, b.canWorks p = true →
        (tec ≤ 255 → exec (.canBusError p tec rec t) s = .next (s.becomes
          ((b.setRegs [(Reg.tec p, min tec 255), (Reg.rec p, min rec 255)]).canState p))) ∧
        (255 < tec → exec (.canBusError p tec rec t) s = .next (s.becomes
          (((b.setRegs [(Reg.tec p, min tec 255), (Reg.rec p, min rec 255)]).canState p).busOff p)))) ∧
      (b.canWorks p = true → exec (.busOff p t) s = .next (s.becomes ((b.count (Reg.busOffs p) 1).setReg (Reg.busState p) 2))) ∧
      (b.reg (Reg.busState p) = 2 → exec (.busOffRecovery p t) s = .next (s.becomes
          (b.setRegs [(Reg.busState p, 0), (Reg.tec p, 0), (Reg.rec p, 0)]))) ∧
      (b.heartbeatDue p = true → ∃ target, target < 4096 ∧ exec (.heartbeat p t) s = .next (s.becomes
          ({ b.draw.2 with lmp := { b.draw.2.lmp with heartbeat := b.draw.2.lmp.heartbeat.put p (b.run + 1) } }.canSend p 5 target
          (bytesOf 1 (b.reg Reg.cfgState) ++ bytesOf 8 b.ts ++ bytesOf 3 0))))) ∧
    (s.blk.clocked = true →
      (∀ gen bme msix, 2 ≤ gen → gen ≤ 4 → s.blk.usbAllowed = true → exec (.usb4Connect gen bme msix) s = .next (s.becomes
          ({ s.blk.setRegs [(Reg.usb4State, 2), (Reg.usb4Gen, gen), (Reg.pcieUp, 1), (Reg.msixEnabled, b2n msix)] with
          lmp := { s.blk.lmp with bme := bme } }))) ∧
      (s.blk.reg Reg.usb4State ≠ 0 → exec .usb4Disconnect s = .next (s.becomes (s.blk.usb4Drop))) ∧
      (∀ v, wfVector v = true → s.blk.reg Reg.pcieUp = 1 →
        let m := { s.blk with lmp := { s.blk.lmp with
          masked := putBit s.blk.lmp.masked v false, pending := putBit s.blk.lmp.pending v false } }
        exec (.vectorUnmask v) s = .next (s.becomes (if s.blk.lmp.pending.testBit v then m.msix v else m)))) ∧
    (∀ off status, b.reg Reg.pcieUp = 1 → status % 16 ≠ 0 → exec (.barWriteError off status t) s = .next (s.becomes
        ((b.count Reg.barWriteErrors 1).logEvent 0x0405 0 368 (off % 2 ^ 40 + status % 16 * 2 ^ 40))))

/-- The JTAG instructions, with PORn high (log entry 107): IDCODE shifts out the identification, SAMPLE/PRELOAD captures the pins and loads the boundary
register, and one that drives pins does so only where R518 lets it, and is a BYPASS elsewhere. None changes anything but the TAP and
what is sent outside. -/
def Obligations.JtagCompletes : Prop :=
  ∀ (s : State) (b : Block), s.blk = b → b.clk.mode ≠ .por →
    exec .idcode s = .next (s.becomes ({ b with jtag := { b.jtag with ir := 0x01, shift := b.idcodeWord } })) ∧
    (∀ pins bits, exec (.samplePreload pins bits) s =
      .next (s.becomes ({ b with jtag := ⟨0x02, bits % 2 ^ 1637, pins % 2 ^ 1637⟩ }))) ∧
    exec .bypass s = .next (s.becomes ({ b with jtag := { b.jtag with ir := 0xFF, shift := 0 } })) ∧
    exec .trstn s = .next (s.becomes ({ b with jtag := { b.jtag with ir := 0x01 } })) ∧
    (∀ bits, b.reg Reg.cfgState = 0 ∨ b.reg Reg.cfgState = 4 →
      let x := bits % 2 ^ 1637
      exec (.extest bits) s = .next (s.becomes ({ b with jtag := ⟨0x00, x, x⟩ }.emit .pin 3 [0x00, x])) ∧
      exec (.extestPulse bits) s = .next (s.becomes ({ b with jtag := ⟨0x0C, x, x⟩ }.emit .pin 3 [0x0C, x])) ∧
      exec (.extestTrain bits) s = .next (s.becomes ({ b with jtag := ⟨0x0D, x, x⟩ }.emit .pin 3 [0x0D, x])) ∧
      exec .clamp s = .next (s.becomes
          ({ b with jtag := { b.jtag with ir := 0x04, shift := 0 } }.emit .pin 3 [0x04, b.jtag.boundary])) ∧
      exec .highz s = .next (s.becomes ({ b with jtag := { b.jtag with ir := 0x05, shift := 0 } }.emit .pin 3 [0x05, 0]))) ∧
    (∀ bits, b.reg Reg.cfgState ≠ 0 → b.reg Reg.cfgState ≠ 4 →
      exec (.extest bits) s = .next (s.becomes ({ b with jtag := { b.jtag with ir := 0x00, shift := 0 } })) ∧
      exec .clamp s = .next (s.becomes ({ b with jtag := { b.jtag with ir := 0x04, shift := 0 } })) ∧
      exec .highz s = .next (s.becomes ({ b with jtag := { b.jtag with ir := 0x05, shift := 0 } })))

/-! What commands leave unchanged. -/

/-- A command of the lanes' bring-up, of their tests or of the eye changes no memory, no configuration or state of a design, no context,
no transaction, no fuse, nothing of the on-die networks and nothing of migration. -/
def Obligations.LaneFrame : Prop :=
  ∀ (c : Instr) (s u : State), exec c s = .next u →
    (match c with
     | .detectPass .. | .eqPass .. | .cdrPass .. | .polarityPass .. | .alignPass .. | .orderPass .. | .deskewPass .. | .fecPass ..
     | .train .. | .stageFail .. | .idle .. | .eyeGo .. | .eyeCountEnd .. | .checkerLock .. | .checkerLockLoss .. => True
     | _ => False) →
    u.blk.mem = s.blk.mem ∧ u.blk.rgn = s.blk.rgn ∧ u.blk.ctx = s.blk.ctx ∧ u.blk.ledger = s.blk.ledger ∧
      u.blk.fuses = s.blk.fuses ∧ u.blk.net = s.blk.net ∧ u.blk.mig = s.blk.mig

/-- A command of the ports, of JTAG, of the messages' time limits or of the sensors changes no memory, no configuration or state of a
design, no context, no transaction, no fuse, no link and no commit, and of the on-die networks only HDR_DISCARD, which discards a packet,
and STATION_GATE, which gates a station, change what is under way. -/
def Obligations.PortFrame : Prop :=
  ∀ (c : Instr) (s u : State), exec c s = .next u →
    (match c with
     | .canBusError .. | .busOff .. | .busOffRecovery .. | .heartbeat .. | .usb4Connect .. | .usb4Disconnect | .vectorUnmask ..
     | .barWriteError .. | .extest .. | .extestPulse .. | .extestTrain .. | .clamp | .highz | .idcode | .samplePreload .. | .bypass
     | .trstn | .lmpStall .. | .fwdTimeout .. | .thermalSample .. | .throttleDecay .. | .hdrDiscard ..
     | .stationGate .. | .mailboxResponse .. | .msgLen .. | .rspDone .. => True
     | _ => False) →
    u.blk.mem = s.blk.mem ∧ u.blk.rgn = s.blk.rgn ∧ u.blk.ctx = s.blk.ctx ∧ u.blk.ledger = s.blk.ledger ∧
      u.blk.fuses = s.blk.fuses ∧ { u.blk.net with noc := s.blk.net.noc } = s.blk.net ∧
      ((∀ st net t, c ≠ .hdrDiscard st net t) → (∀ st t, c ≠ .stationGate st t) → u.blk.net = s.blk.net) ∧ u.blk.link = s.blk.link ∧ u.blk.commit = s.blk.commit
end

