-- ==== Sys2Proof/Laws/Codes.lean ====
section
/-! SUPPORT. The receiver's descrambler undoes the sender's scrambler, and keeps the same history. -/

namespace Sys2Proof.Machine

open Sys2Proof

theorem testBit_top (s : Bool) (n r : Nat) (h : r < 2 ^ n) : (b2n s * 2 ^ n + r).testBit n = s := by
  rw [Nat.mul_comm, Nat.testBit_two_pow_mul_add _ h]
  cases s <;> simp [b2n]

theorem testBit_below (s : Bool) {n r i : Nat} (h : r < 2 ^ n) (hi : i < n) : (b2n s * 2 ^ n + r).testBit i = r.testBit i := by
  rw [Nat.mul_comm, Nat.testBit_two_pow_mul_add _ h, if_pos hi]

/-- A scrambled payload has as many bits as the payload. -/
theorem scramble_lt (d n h : Nat) : (scramble d n h).1 < 2 ^ n := by
  induction n generalizing h with
  | zero => simp [scramble]
  | succ n ih =>
    have hr := ih ((2 * h + b2n (scrambleBit h (d.testBit n))) % 2 ^ 58)
    have hb : b2n (scrambleBit h (d.testBit n)) * 2 ^ n ≤ 1 * 2 ^ n :=
      Nat.mul_le_mul_right _ (by cases scrambleBit h (d.testBit n) <;> decide)
    rw [scramble]
    show _ + _ < 2 ^ (n + 1)
    omega

/-- Only the bits below `n` count. -/
theorem descramble_congr (s s' n h : Nat) (e : ∀ i, i < n → s.testBit i = s'.testBit i) : descramble s n h = descramble s' n h := by
  induction n generalizing h with
  | zero => rfl
  | succ n ih => simp only [descramble, e n (Nat.lt_succ_self n), ih _ (fun i hi => e i (by omega))]

/-- The receiver's reversal gives back what was scrambled, and its history is the sender's (R279). -/
theorem descramble_scramble (d n h : Nat) : descramble (scramble d n h).1 n h = (d % 2 ^ n, (scramble d n h).2) := by
  induction n generalizing h with
  | zero => simp [scramble, descramble, Nat.mod_one]
  | succ n ih =>
    have hr := scramble_lt d n ((2 * h + b2n (scrambleBit h (d.testBit n))) % 2 ^ 58)
    have hd : scrambleBit h (scrambleBit h (d.testBit n)) = d.testBit n := by simp [scrambleBit]
    simp only [scramble, descramble]
    rw [testBit_top _ _ _ hr, descramble_congr _ _ n _ (fun i hi => testBit_below _ hr hi), ih, hd]
    rw [Nat.mod_pow_succ (x := d) (k := n), ← Nat.toNat_testBit d n, Nat.add_comm, Nat.mul_comm (b2n _)]
    cases d.testBit n <;> rfl

end Sys2Proof.Machine
end

