-- ==== Sys2Proof/Laws/SMap.lean ====
section
/-! SUPPORT. What a write does to a sparse store: reading back, every other key, and the canonical form. -/

namespace Sys2Proof.Machine

open Sys2Proof

variable {α : Type}

theorem SMap.get_drop_ne (d : Nat → α) (m : SMap α) {k j : Nat} (h : j ≠ k) : (m.drop k).get d j = m.get d j := by
  induction m with
  | nil => rfl
  | cons e m ih =>
    obtain ⟨i, v⟩ := e
    by_cases hi : i = k
    · subst hi
      have hd : SMap.drop ((i, v) :: m) i = SMap.drop m i := by simp [SMap.drop]
      rw [hd, ih, SMap.get, if_neg (Ne.symm h)]
    · have hd : SMap.drop ((i, v) :: m) k = (i, v) :: SMap.drop m k := by simp [SMap.drop, hi]
      rw [hd, SMap.get, SMap.get, ih]

theorem SMap.get_drop (d : Nat → α) (m : SMap α) (k : Nat) : (m.drop k).get d k = d k := by
  induction m with
  | nil => rfl
  | cons e m ih =>
    obtain ⟨i, v⟩ := e
    by_cases hi : i = k
    · subst hi
      have hd : SMap.drop ((i, v) :: m) i = SMap.drop m i := by simp [SMap.drop]
      rw [hd, ih]
    · have hd : SMap.drop ((i, v) :: m) k = (i, v) :: SMap.drop m k := by simp [SMap.drop, hi]
      rw [hd, SMap.get, if_neg hi, ih]

theorem SMap.get_ins (d : Nat → α) (m : SMap α) (k : Nat) (v : α) (h : ∀ e ∈ m, e.1 ≠ k) : (m.ins k v).get d k = v := by
  induction m with
  | nil => simp [SMap.ins, SMap.get]
  | cons e m ih =>
    obtain ⟨i, w⟩ := e
    have hi : i ≠ k := h (i, w) (by simp)
    unfold SMap.ins
    split
    · simp [SMap.get]
    · rw [SMap.get, if_neg hi]
      exact ih (fun e he => h e (by simp [he]))

theorem SMap.get_ins_ne (d : Nat → α) (m : SMap α) (k : Nat) (v : α) {j : Nat} (h : j ≠ k) :
    (m.ins k v).get d j = m.get d j := by
  induction m with
  | nil => simp [SMap.ins, SMap.get, Ne.symm h]
  | cons e m ih =>
    obtain ⟨i, w⟩ := e
    unfold SMap.ins
    split
    · rw [SMap.get, if_neg (Ne.symm h)]
    · rw [SMap.get, SMap.get, ih]

theorem SMap.not_mem_drop (m : SMap α) (k : Nat) : ∀ e ∈ m.drop k, e.1 ≠ k := by
  intro e he
  simp only [SMap.drop, List.mem_filter] at he
  simpa using he.2

variable [DecidableEq α]

/-- A key just written reads as the value written. -/
@[simp] theorem SMap.get_set (d : Nat → α) (m : SMap α) (k : Nat) (v : α) : (m.set d k v).get d k = v := by
  unfold SMap.set
  split
  · next h => rw [SMap.get_drop, h]
  · exact SMap.get_ins d _ k v (SMap.not_mem_drop m k)

/-- Every other key reads as before. -/
theorem SMap.get_set_ne (d : Nat → α) (m : SMap α) {k j : Nat} (v : α) (h : j ≠ k) : (m.set d k v).get d j = m.get d j := by
  unfold SMap.set
  split
  · exact SMap.get_drop_ne d m h
  · rw [SMap.get_ins_ne d _ k v h, SMap.get_drop_ne d m h]

theorem SMap.wf_filter (d : Nat → α) (p : Nat × α → Bool) (m : SMap α) (h : m.wf d = true) : SMap.wf d (m.filter p) = true := by
  induction m with
  | nil => rfl
  | cons e m ih =>
    obtain ⟨i, v⟩ := e
    simp only [SMap.wf, Bool.and_eq_true, decide_eq_true_eq, List.all_eq_true] at h
    obtain ⟨⟨hv, hk⟩, hm⟩ := h
    by_cases hp : p (i, v) = true
    · rw [List.filter_cons_of_pos hp]
      simp only [SMap.wf, Bool.and_eq_true, decide_eq_true_eq, List.all_eq_true]
      exact ⟨⟨hv, fun e he => hk e ((List.mem_filter.1 he).1)⟩, ih hm⟩
    · rw [List.filter_cons_of_neg hp]
      exact ih hm

omit [DecidableEq α] in
theorem SMap.mem_ins (m : SMap α) (k : Nat) (v : α) (e : Nat × α) : e ∈ m.ins k v → e = (k, v) ∨ e ∈ m := by
  induction m with
  | nil => simp [SMap.ins]
  | cons x m ih =>
    obtain ⟨i, w⟩ := x
    unfold SMap.ins
    split
    · simp
    · intro h
      rcases List.mem_cons.1 h with h | h
      · exact .inr (by simp [h])
      · rcases ih h with h | h
        · exact .inl h
        · exact .inr (by simp [h])

theorem SMap.wf_ins (d : Nat → α) (m : SMap α) (k : Nat) (v : α) (hv : v ≠ d k) (hk : ∀ e ∈ m, e.1 ≠ k)
    (h : m.wf d = true) : SMap.wf d (m.ins k v) = true := by
  induction m with
  | nil => simp [SMap.ins, SMap.wf, hv]
  | cons x m ih =>
    obtain ⟨i, w⟩ := x
    have hi : i ≠ k := hk (i, w) (by simp)
    have h' := h
    simp only [SMap.wf, Bool.and_eq_true, decide_eq_true_eq, List.all_eq_true] at h
    obtain ⟨⟨hw, hlt⟩, hm⟩ := h
    unfold SMap.ins
    split
    · next hki =>
      simp only [SMap.wf, Bool.and_eq_true, decide_eq_true_eq, List.all_eq_true]
      refine ⟨⟨hv, fun e he => ?_⟩, ⟨hw, hlt⟩, hm⟩
      rcases List.mem_cons.1 he with rfl | he
      · exact hki
      · exact Nat.lt_trans hki (hlt e he)
    · next hki =>
      simp only [SMap.wf, Bool.and_eq_true, decide_eq_true_eq, List.all_eq_true]
      refine ⟨⟨hw, fun e he => ?_⟩, ih (fun e he => hk e (by simp [he])) hm⟩
      rcases SMap.mem_ins m k v e he with rfl | he
      · exact Nat.lt_of_le_of_ne (Nat.le_of_not_lt hki) hi
      · exact hlt e he

/-- A write keeps the canonical form. -/
theorem SMap.wf_set (d : Nat → α) (m : SMap α) (k : Nat) (v : α) (h : m.wf d = true) : SMap.wf d (m.set d k v) = true := by
  unfold SMap.set
  split
  · exact SMap.wf_filter d _ m h
  · next hv => exact SMap.wf_ins d _ k v hv (SMap.not_mem_drop m k) (SMap.wf_filter d _ m h)

variable [Inhabited α]

@[simp] theorem SMap.look_put (m : SMap α) (k : Nat) (v : α) : (m.put k v).look k = v := SMap.get_set _ m k v

theorem SMap.look_put_ne (m : SMap α) {k j : Nat} (v : α) (h : j ≠ k) : (m.put k v).look j = m.look j :=
  SMap.get_set_ne _ m v h

end Sys2Proof.Machine
end

