-- ==== Sys2Proof/Laws/State.lean ====
section
/-! SUPPORT. What each named operation over the block leaves alone: one lemma for each field it does not write. -/

namespace Sys2Proof.Machine

open Sys2Proof

/-! `setReg` writes the register file. -/
@[simp] theorem Block.setReg_fuses (b : Block) (k v : Nat) : (b.setReg k v).fuses = b.fuses := rfl
@[simp] theorem Block.setReg_clk (b : Block) (k v : Nat) : (b.setReg k v).clk = b.clk := rfl
@[simp] theorem Block.setReg_ctx (b : Block) (k v : Nat) : (b.setReg k v).ctx = b.ctx := rfl
@[simp] theorem Block.setReg_rgn (b : Block) (k v : Nat) : (b.setReg k v).rgn = b.rgn := rfl
@[simp] theorem Block.setReg_mem (b : Block) (k v : Nat) : (b.setReg k v).mem = b.mem := rfl
@[simp] theorem Block.setReg_disp (b : Block) (k v : Nat) : (b.setReg k v).disp = b.disp := rfl
@[simp] theorem Block.setReg_wg (b : Block) (k v : Nat) : (b.setReg k v).wg = b.wg := rfl
@[simp] theorem Block.setReg_mig (b : Block) (k v : Nat) : (b.setReg k v).mig = b.mig := rfl
@[simp] theorem Block.setReg_net (b : Block) (k v : Nat) : (b.setReg k v).net = b.net := rfl
@[simp] theorem Block.setReg_link (b : Block) (k v : Nat) : (b.setReg k v).link = b.link := rfl
@[simp] theorem Block.setReg_health (b : Block) (k v : Nat) : (b.setReg k v).health = b.health := rfl
@[simp] theorem Block.setReg_therm (b : Block) (k v : Nat) : (b.setReg k v).therm = b.therm := rfl
@[simp] theorem Block.setReg_cfg (b : Block) (k v : Nat) : (b.setReg k v).cfg = b.cfg := rfl
@[simp] theorem Block.setReg_lmp (b : Block) (k v : Nat) : (b.setReg k v).lmp = b.lmp := rfl
@[simp] theorem Block.setReg_commit (b : Block) (k v : Nat) : (b.setReg k v).commit = b.commit := rfl
@[simp] theorem Block.setReg_jtag (b : Block) (k v : Nat) : (b.setReg k v).jtag = b.jtag := rfl
@[simp] theorem Block.setReg_ledger (b : Block) (k v : Nat) : (b.setReg k v).ledger = b.ledger := rfl
@[simp] theorem Block.setReg_outbox (b : Block) (k v : Nat) : (b.setReg k v).outbox = b.outbox := rfl
@[simp] theorem Block.setReg_free (b : Block) (k v : Nat) : (b.setReg k v).free = b.free := rfl

/-! `setRegs` writes the register file. -/

@[simp] theorem Block.setRegs_fuses (b : Block) (l : List (Nat × Nat)) : (b.setRegs l).fuses = b.fuses := by
  induction l generalizing b with
  | nil => rfl
  | cons e l ih => obtain ⟨k, v⟩ := e; simp [Block.setRegs, ih]

@[simp] theorem Block.setRegs_clk (b : Block) (l : List (Nat × Nat)) : (b.setRegs l).clk = b.clk := by
  induction l generalizing b with
  | nil => rfl
  | cons e l ih => obtain ⟨k, v⟩ := e; simp [Block.setRegs, ih]

@[simp] theorem Block.setRegs_ctx (b : Block) (l : List (Nat × Nat)) : (b.setRegs l).ctx = b.ctx := by
  induction l generalizing b with
  | nil => rfl
  | cons e l ih => obtain ⟨k, v⟩ := e; simp [Block.setRegs, ih]

@[simp] theorem Block.setRegs_rgn (b : Block) (l : List (Nat × Nat)) : (b.setRegs l).rgn = b.rgn := by
  induction l generalizing b with
  | nil => rfl
  | cons e l ih => obtain ⟨k, v⟩ := e; simp [Block.setRegs, ih]

@[simp] theorem Block.setRegs_mem (b : Block) (l : List (Nat × Nat)) : (b.setRegs l).mem = b.mem := by
  induction l generalizing b with
  | nil => rfl
  | cons e l ih => obtain ⟨k, v⟩ := e; simp [Block.setRegs, ih]

@[simp] theorem Block.setRegs_disp (b : Block) (l : List (Nat × Nat)) : (b.setRegs l).disp = b.disp := by
  induction l generalizing b with
  | nil => rfl
  | cons e l ih => obtain ⟨k, v⟩ := e; simp [Block.setRegs, ih]

@[simp] theorem Block.setRegs_wg (b : Block) (l : List (Nat × Nat)) : (b.setRegs l).wg = b.wg := by
  induction l generalizing b with
  | nil => rfl
  | cons e l ih => obtain ⟨k, v⟩ := e; simp [Block.setRegs, ih]

@[simp] theorem Block.setRegs_mig (b : Block) (l : List (Nat × Nat)) : (b.setRegs l).mig = b.mig := by
  induction l generalizing b with
  | nil => rfl
  | cons e l ih => obtain ⟨k, v⟩ := e; simp [Block.setRegs, ih]

@[simp] theorem Block.setRegs_net (b : Block) (l : List (Nat × Nat)) : (b.setRegs l).net = b.net := by
  induction l generalizing b with
  | nil => rfl
  | cons e l ih => obtain ⟨k, v⟩ := e; simp [Block.setRegs, ih]

@[simp] theorem Block.setRegs_link (b : Block) (l : List (Nat × Nat)) : (b.setRegs l).link = b.link := by
  induction l generalizing b with
  | nil => rfl
  | cons e l ih => obtain ⟨k, v⟩ := e; simp [Block.setRegs, ih]

@[simp] theorem Block.setRegs_health (b : Block) (l : List (Nat × Nat)) : (b.setRegs l).health = b.health := by
  induction l generalizing b with
  | nil => rfl
  | cons e l ih => obtain ⟨k, v⟩ := e; simp [Block.setRegs, ih]

@[simp] theorem Block.setRegs_therm (b : Block) (l : List (Nat × Nat)) : (b.setRegs l).therm = b.therm := by
  induction l generalizing b with
  | nil => rfl
  | cons e l ih => obtain ⟨k, v⟩ := e; simp [Block.setRegs, ih]

@[simp] theorem Block.setRegs_cfg (b : Block) (l : List (Nat × Nat)) : (b.setRegs l).cfg = b.cfg := by
  induction l generalizing b with
  | nil => rfl
  | cons e l ih => obtain ⟨k, v⟩ := e; simp [Block.setRegs, ih]

@[simp] theorem Block.setRegs_lmp (b : Block) (l : List (Nat × Nat)) : (b.setRegs l).lmp = b.lmp := by
  induction l generalizing b with
  | nil => rfl
  | cons e l ih => obtain ⟨k, v⟩ := e; simp [Block.setRegs, ih]

@[simp] theorem Block.setRegs_commit (b : Block) (l : List (Nat × Nat)) : (b.setRegs l).commit = b.commit := by
  induction l generalizing b with
  | nil => rfl
  | cons e l ih => obtain ⟨k, v⟩ := e; simp [Block.setRegs, ih]

@[simp] theorem Block.setRegs_jtag (b : Block) (l : List (Nat × Nat)) : (b.setRegs l).jtag = b.jtag := by
  induction l generalizing b with
  | nil => rfl
  | cons e l ih => obtain ⟨k, v⟩ := e; simp [Block.setRegs, ih]

@[simp] theorem Block.setRegs_ledger (b : Block) (l : List (Nat × Nat)) : (b.setRegs l).ledger = b.ledger := by
  induction l generalizing b with
  | nil => rfl
  | cons e l ih => obtain ⟨k, v⟩ := e; simp [Block.setRegs, ih]

@[simp] theorem Block.setRegs_outbox (b : Block) (l : List (Nat × Nat)) : (b.setRegs l).outbox = b.outbox := by
  induction l generalizing b with
  | nil => rfl
  | cons e l ih => obtain ⟨k, v⟩ := e; simp [Block.setRegs, ih]

@[simp] theorem Block.setRegs_free (b : Block) (l : List (Nat × Nat)) : (b.setRegs l).free = b.free := by
  induction l generalizing b with
  | nil => rfl
  | cons e l ih => obtain ⟨k, v⟩ := e; simp [Block.setRegs, ih]

/-! `count` writes the register file. -/

@[simp] theorem Block.count_fuses (b : Block) (k d : Nat) : (b.count k d).fuses = b.fuses := rfl
@[simp] theorem Block.count_clk (b : Block) (k d : Nat) : (b.count k d).clk = b.clk := rfl
@[simp] theorem Block.count_ctx (b : Block) (k d : Nat) : (b.count k d).ctx = b.ctx := rfl
@[simp] theorem Block.count_rgn (b : Block) (k d : Nat) : (b.count k d).rgn = b.rgn := rfl
@[simp] theorem Block.count_mem (b : Block) (k d : Nat) : (b.count k d).mem = b.mem := rfl
@[simp] theorem Block.count_disp (b : Block) (k d : Nat) : (b.count k d).disp = b.disp := rfl
@[simp] theorem Block.count_wg (b : Block) (k d : Nat) : (b.count k d).wg = b.wg := rfl
@[simp] theorem Block.count_mig (b : Block) (k d : Nat) : (b.count k d).mig = b.mig := rfl
@[simp] theorem Block.count_net (b : Block) (k d : Nat) : (b.count k d).net = b.net := rfl
@[simp] theorem Block.count_link (b : Block) (k d : Nat) : (b.count k d).link = b.link := rfl
@[simp] theorem Block.count_health (b : Block) (k d : Nat) : (b.count k d).health = b.health := rfl
@[simp] theorem Block.count_therm (b : Block) (k d : Nat) : (b.count k d).therm = b.therm := rfl
@[simp] theorem Block.count_cfg (b : Block) (k d : Nat) : (b.count k d).cfg = b.cfg := rfl
@[simp] theorem Block.count_lmp (b : Block) (k d : Nat) : (b.count k d).lmp = b.lmp := rfl
@[simp] theorem Block.count_commit (b : Block) (k d : Nat) : (b.count k d).commit = b.commit := rfl
@[simp] theorem Block.count_jtag (b : Block) (k d : Nat) : (b.count k d).jtag = b.jtag := rfl
@[simp] theorem Block.count_ledger (b : Block) (k d : Nat) : (b.count k d).ledger = b.ledger := rfl
@[simp] theorem Block.count_outbox (b : Block) (k d : Nat) : (b.count k d).outbox = b.outbox := rfl
@[simp] theorem Block.count_free (b : Block) (k d : Nat) : (b.count k d).free = b.free := rfl

/-! `emit` writes the record of what is sent outside. -/

@[simp] theorem Block.emit_regs (b : Block) (kind : OutKind) (u : Nat) (ws : List Nat) : (b.emit kind u ws).regs = b.regs := rfl
@[simp] theorem Block.emit_fuses (b : Block) (kind : OutKind) (u : Nat) (ws : List Nat) : (b.emit kind u ws).fuses = b.fuses := rfl
@[simp] theorem Block.emit_clk (b : Block) (kind : OutKind) (u : Nat) (ws : List Nat) : (b.emit kind u ws).clk = b.clk := rfl
@[simp] theorem Block.emit_ctx (b : Block) (kind : OutKind) (u : Nat) (ws : List Nat) : (b.emit kind u ws).ctx = b.ctx := rfl
@[simp] theorem Block.emit_rgn (b : Block) (kind : OutKind) (u : Nat) (ws : List Nat) : (b.emit kind u ws).rgn = b.rgn := rfl
@[simp] theorem Block.emit_mem (b : Block) (kind : OutKind) (u : Nat) (ws : List Nat) : (b.emit kind u ws).mem = b.mem := rfl
@[simp] theorem Block.emit_disp (b : Block) (kind : OutKind) (u : Nat) (ws : List Nat) : (b.emit kind u ws).disp = b.disp := rfl
@[simp] theorem Block.emit_wg (b : Block) (kind : OutKind) (u : Nat) (ws : List Nat) : (b.emit kind u ws).wg = b.wg := rfl
@[simp] theorem Block.emit_mig (b : Block) (kind : OutKind) (u : Nat) (ws : List Nat) : (b.emit kind u ws).mig = b.mig := rfl
@[simp] theorem Block.emit_net (b : Block) (kind : OutKind) (u : Nat) (ws : List Nat) : (b.emit kind u ws).net = b.net := rfl
@[simp] theorem Block.emit_link (b : Block) (kind : OutKind) (u : Nat) (ws : List Nat) : (b.emit kind u ws).link = b.link := rfl
@[simp] theorem Block.emit_health (b : Block) (kind : OutKind) (u : Nat) (ws : List Nat) : (b.emit kind u ws).health = b.health := rfl
@[simp] theorem Block.emit_therm (b : Block) (kind : OutKind) (u : Nat) (ws : List Nat) : (b.emit kind u ws).therm = b.therm := rfl
@[simp] theorem Block.emit_cfg (b : Block) (kind : OutKind) (u : Nat) (ws : List Nat) : (b.emit kind u ws).cfg = b.cfg := rfl
@[simp] theorem Block.emit_lmp (b : Block) (kind : OutKind) (u : Nat) (ws : List Nat) : (b.emit kind u ws).lmp = b.lmp := rfl
@[simp] theorem Block.emit_commit (b : Block) (kind : OutKind) (u : Nat) (ws : List Nat) : (b.emit kind u ws).commit = b.commit := rfl
@[simp] theorem Block.emit_jtag (b : Block) (kind : OutKind) (u : Nat) (ws : List Nat) : (b.emit kind u ws).jtag = b.jtag := rfl
@[simp] theorem Block.emit_ledger (b : Block) (kind : OutKind) (u : Nat) (ws : List Nat) : (b.emit kind u ws).ledger = b.ledger := rfl
@[simp] theorem Block.emit_free (b : Block) (kind : OutKind) (u : Nat) (ws : List Nat) : (b.emit kind u ws).free = b.free := rfl

/-! `result` writes the record of what is sent outside. -/

@[simp] theorem Block.result_regs (b : Block) (a : Nat) : (b.result a).regs = b.regs := rfl
@[simp] theorem Block.result_fuses (b : Block) (a : Nat) : (b.result a).fuses = b.fuses := rfl
@[simp] theorem Block.result_clk (b : Block) (a : Nat) : (b.result a).clk = b.clk := rfl
@[simp] theorem Block.result_ctx (b : Block) (a : Nat) : (b.result a).ctx = b.ctx := rfl
@[simp] theorem Block.result_rgn (b : Block) (a : Nat) : (b.result a).rgn = b.rgn := rfl
@[simp] theorem Block.result_mem (b : Block) (a : Nat) : (b.result a).mem = b.mem := rfl
@[simp] theorem Block.result_disp (b : Block) (a : Nat) : (b.result a).disp = b.disp := rfl
@[simp] theorem Block.result_wg (b : Block) (a : Nat) : (b.result a).wg = b.wg := rfl
@[simp] theorem Block.result_mig (b : Block) (a : Nat) : (b.result a).mig = b.mig := rfl
@[simp] theorem Block.result_net (b : Block) (a : Nat) : (b.result a).net = b.net := rfl
@[simp] theorem Block.result_link (b : Block) (a : Nat) : (b.result a).link = b.link := rfl
@[simp] theorem Block.result_health (b : Block) (a : Nat) : (b.result a).health = b.health := rfl
@[simp] theorem Block.result_therm (b : Block) (a : Nat) : (b.result a).therm = b.therm := rfl
@[simp] theorem Block.result_cfg (b : Block) (a : Nat) : (b.result a).cfg = b.cfg := rfl
@[simp] theorem Block.result_lmp (b : Block) (a : Nat) : (b.result a).lmp = b.lmp := rfl
@[simp] theorem Block.result_commit (b : Block) (a : Nat) : (b.result a).commit = b.commit := rfl
@[simp] theorem Block.result_jtag (b : Block) (a : Nat) : (b.result a).jtag = b.jtag := rfl
@[simp] theorem Block.result_ledger (b : Block) (a : Nat) : (b.result a).ledger = b.ledger := rfl
@[simp] theorem Block.result_free (b : Block) (a : Nat) : (b.result a).free = b.free := rfl

/-! `draw` counts the free value. -/

@[simp] theorem Block.draw_regs (b : Block) : b.draw.2.regs = b.regs := rfl
@[simp] theorem Block.draw_fuses (b : Block) : b.draw.2.fuses = b.fuses := rfl
@[simp] theorem Block.draw_clk (b : Block) : b.draw.2.clk = b.clk := rfl
@[simp] theorem Block.draw_ctx (b : Block) : b.draw.2.ctx = b.ctx := rfl
@[simp] theorem Block.draw_rgn (b : Block) : b.draw.2.rgn = b.rgn := rfl
@[simp] theorem Block.draw_mem (b : Block) : b.draw.2.mem = b.mem := rfl
@[simp] theorem Block.draw_disp (b : Block) : b.draw.2.disp = b.disp := rfl
@[simp] theorem Block.draw_wg (b : Block) : b.draw.2.wg = b.wg := rfl
@[simp] theorem Block.draw_mig (b : Block) : b.draw.2.mig = b.mig := rfl
@[simp] theorem Block.draw_net (b : Block) : b.draw.2.net = b.net := rfl
@[simp] theorem Block.draw_link (b : Block) : b.draw.2.link = b.link := rfl
@[simp] theorem Block.draw_health (b : Block) : b.draw.2.health = b.health := rfl
@[simp] theorem Block.draw_therm (b : Block) : b.draw.2.therm = b.therm := rfl
@[simp] theorem Block.draw_cfg (b : Block) : b.draw.2.cfg = b.cfg := rfl
@[simp] theorem Block.draw_lmp (b : Block) : b.draw.2.lmp = b.lmp := rfl
@[simp] theorem Block.draw_commit (b : Block) : b.draw.2.commit = b.commit := rfl
@[simp] theorem Block.draw_jtag (b : Block) : b.draw.2.jtag = b.jtag := rfl
@[simp] theorem Block.draw_ledger (b : Block) : b.draw.2.ledger = b.ledger := rfl
@[simp] theorem Block.draw_outbox (b : Block) : b.draw.2.outbox = b.outbox := rfl

/-! The event log is held in `health`; it also writes registers and sends frames. -/

@[simp] theorem Block.canSent_fuses (b : Block) (p : Nat) : (b.canSent p).fuses = b.fuses := by
  unfold Block.canSent Block.canState; simp only [Block.setReg_fuses]

@[simp] theorem Block.canSent_clk (b : Block) (p : Nat) : (b.canSent p).clk = b.clk := by
  unfold Block.canSent Block.canState; simp only [Block.setReg_clk]

@[simp] theorem Block.canSent_ctx (b : Block) (p : Nat) : (b.canSent p).ctx = b.ctx := by
  unfold Block.canSent Block.canState; simp only [Block.setReg_ctx]

@[simp] theorem Block.canSent_rgn (b : Block) (p : Nat) : (b.canSent p).rgn = b.rgn := by
  unfold Block.canSent Block.canState; simp only [Block.setReg_rgn]

@[simp] theorem Block.canSent_mem (b : Block) (p : Nat) : (b.canSent p).mem = b.mem := by
  unfold Block.canSent Block.canState; simp only [Block.setReg_mem]

@[simp] theorem Block.canSent_disp (b : Block) (p : Nat) : (b.canSent p).disp = b.disp := by
  unfold Block.canSent Block.canState; simp only [Block.setReg_disp]

@[simp] theorem Block.canSent_wg (b : Block) (p : Nat) : (b.canSent p).wg = b.wg := by
  unfold Block.canSent Block.canState; simp only [Block.setReg_wg]

@[simp] theorem Block.canSent_mig (b : Block) (p : Nat) : (b.canSent p).mig = b.mig := by
  unfold Block.canSent Block.canState; simp only [Block.setReg_mig]

@[simp] theorem Block.canSent_net (b : Block) (p : Nat) : (b.canSent p).net = b.net := by
  unfold Block.canSent Block.canState; simp only [Block.setReg_net]

@[simp] theorem Block.canSent_link (b : Block) (p : Nat) : (b.canSent p).link = b.link := by
  unfold Block.canSent Block.canState; simp only [Block.setReg_link]

@[simp] theorem Block.canSent_therm (b : Block) (p : Nat) : (b.canSent p).therm = b.therm := by
  unfold Block.canSent Block.canState; simp only [Block.setReg_therm]

@[simp] theorem Block.canSent_cfg (b : Block) (p : Nat) : (b.canSent p).cfg = b.cfg := by
  unfold Block.canSent Block.canState; simp only [Block.setReg_cfg]

@[simp] theorem Block.canSent_lmp (b : Block) (p : Nat) : (b.canSent p).lmp = b.lmp := by
  unfold Block.canSent Block.canState; simp only [Block.setReg_lmp]

@[simp] theorem Block.canSent_commit (b : Block) (p : Nat) : (b.canSent p).commit = b.commit := by
  unfold Block.canSent Block.canState; simp only [Block.setReg_commit]

@[simp] theorem Block.canSent_jtag (b : Block) (p : Nat) : (b.canSent p).jtag = b.jtag := by
  unfold Block.canSent Block.canState; simp only [Block.setReg_jtag]

@[simp] theorem Block.canSent_ledger (b : Block) (p : Nat) : (b.canSent p).ledger = b.ledger := by
  unfold Block.canSent Block.canState; simp only [Block.setReg_ledger]

@[simp] theorem Block.canSent_free (b : Block) (p : Nat) : (b.canSent p).free = b.free := by
  unfold Block.canSent Block.canState; simp only [Block.setReg_free]

@[simp] theorem Block.alert_fuses (b : Block) (e : LogEntry) : (b.alert e).fuses = b.fuses := by
  unfold Block.alert
  extract_lets send
  have h (b : Block) (p : Nat) : (send b p).fuses = b.fuses := by
    simp only [send]; split
    · simp only [Block.emit_fuses, Block.canSent_fuses, Block.count_fuses]
    · rfl
  split
  · rfl
  · rw [h, h]

@[simp] theorem Block.logNew_fuses (b : Block) (code kind num data : Nat) : (b.logNew code kind num data).fuses = b.fuses := by
  unfold Block.logNew; dsimp only; split
  · rfl
  · rw [Block.alert_fuses, Block.setReg_fuses]; dsimp only
    split
    · rfl
    · rw [Block.count_fuses]

@[simp] theorem Block.logEvent_fuses (b : Block) (code kind num data : Nat) : (b.logEvent code kind num data).fuses = b.fuses := by
  unfold Block.logEvent; dsimp only; repeat' split
  all_goals first | rfl | rw [Block.logNew_fuses]

@[simp] theorem Block.alert_clk (b : Block) (e : LogEntry) : (b.alert e).clk = b.clk := by
  unfold Block.alert
  extract_lets send
  have h (b : Block) (p : Nat) : (send b p).clk = b.clk := by
    simp only [send]; split
    · simp only [Block.emit_clk, Block.canSent_clk, Block.count_clk]
    · rfl
  split
  · rfl
  · rw [h, h]

@[simp] theorem Block.logNew_clk (b : Block) (code kind num data : Nat) : (b.logNew code kind num data).clk = b.clk := by
  unfold Block.logNew; dsimp only; split
  · rfl
  · rw [Block.alert_clk, Block.setReg_clk]; dsimp only
    split
    · rfl
    · rw [Block.count_clk]

@[simp] theorem Block.logEvent_clk (b : Block) (code kind num data : Nat) : (b.logEvent code kind num data).clk = b.clk := by
  unfold Block.logEvent; dsimp only; repeat' split
  all_goals first | rfl | rw [Block.logNew_clk]

@[simp] theorem Block.alert_ctx (b : Block) (e : LogEntry) : (b.alert e).ctx = b.ctx := by
  unfold Block.alert
  extract_lets send
  have h (b : Block) (p : Nat) : (send b p).ctx = b.ctx := by
    simp only [send]; split
    · simp only [Block.emit_ctx, Block.canSent_ctx, Block.count_ctx]
    · rfl
  split
  · rfl
  · rw [h, h]

@[simp] theorem Block.logNew_ctx (b : Block) (code kind num data : Nat) : (b.logNew code kind num data).ctx = b.ctx := by
  unfold Block.logNew; dsimp only; split
  · rfl
  · rw [Block.alert_ctx, Block.setReg_ctx]; dsimp only
    split
    · rfl
    · rw [Block.count_ctx]

@[simp] theorem Block.logEvent_ctx (b : Block) (code kind num data : Nat) : (b.logEvent code kind num data).ctx = b.ctx := by
  unfold Block.logEvent; dsimp only; repeat' split
  all_goals first | rfl | rw [Block.logNew_ctx]

@[simp] theorem Block.alert_rgn (b : Block) (e : LogEntry) : (b.alert e).rgn = b.rgn := by
  unfold Block.alert
  extract_lets send
  have h (b : Block) (p : Nat) : (send b p).rgn = b.rgn := by
    simp only [send]; split
    · simp only [Block.emit_rgn, Block.canSent_rgn, Block.count_rgn]
    · rfl
  split
  · rfl
  · rw [h, h]

@[simp] theorem Block.logNew_rgn (b : Block) (code kind num data : Nat) : (b.logNew code kind num data).rgn = b.rgn := by
  unfold Block.logNew; dsimp only; split
  · rfl
  · rw [Block.alert_rgn, Block.setReg_rgn]; dsimp only
    split
    · rfl
    · rw [Block.count_rgn]

@[simp] theorem Block.logEvent_rgn (b : Block) (code kind num data : Nat) : (b.logEvent code kind num data).rgn = b.rgn := by
  unfold Block.logEvent; dsimp only; repeat' split
  all_goals first | rfl | rw [Block.logNew_rgn]

@[simp] theorem Block.alert_mem (b : Block) (e : LogEntry) : (b.alert e).mem = b.mem := by
  unfold Block.alert
  extract_lets send
  have h (b : Block) (p : Nat) : (send b p).mem = b.mem := by
    simp only [send]; split
    · simp only [Block.emit_mem, Block.canSent_mem, Block.count_mem]
    · rfl
  split
  · rfl
  · rw [h, h]

@[simp] theorem Block.logNew_mem (b : Block) (code kind num data : Nat) : (b.logNew code kind num data).mem = b.mem := by
  unfold Block.logNew; dsimp only; split
  · rfl
  · rw [Block.alert_mem, Block.setReg_mem]; dsimp only
    split
    · rfl
    · rw [Block.count_mem]

@[simp] theorem Block.logEvent_mem (b : Block) (code kind num data : Nat) : (b.logEvent code kind num data).mem = b.mem := by
  unfold Block.logEvent; dsimp only; repeat' split
  all_goals first | rfl | rw [Block.logNew_mem]

@[simp] theorem Block.alert_disp (b : Block) (e : LogEntry) : (b.alert e).disp = b.disp := by
  unfold Block.alert
  extract_lets send
  have h (b : Block) (p : Nat) : (send b p).disp = b.disp := by
    simp only [send]; split
    · simp only [Block.emit_disp, Block.canSent_disp, Block.count_disp]
    · rfl
  split
  · rfl
  · rw [h, h]

@[simp] theorem Block.logNew_disp (b : Block) (code kind num data : Nat) : (b.logNew code kind num data).disp = b.disp := by
  unfold Block.logNew; dsimp only; split
  · rfl
  · rw [Block.alert_disp, Block.setReg_disp]; dsimp only
    split
    · rfl
    · rw [Block.count_disp]

@[simp] theorem Block.logEvent_disp (b : Block) (code kind num data : Nat) : (b.logEvent code kind num data).disp = b.disp := by
  unfold Block.logEvent; dsimp only; repeat' split
  all_goals first | rfl | rw [Block.logNew_disp]

@[simp] theorem Block.alert_wg (b : Block) (e : LogEntry) : (b.alert e).wg = b.wg := by
  unfold Block.alert
  extract_lets send
  have h (b : Block) (p : Nat) : (send b p).wg = b.wg := by
    simp only [send]; split
    · simp only [Block.emit_wg, Block.canSent_wg, Block.count_wg]
    · rfl
  split
  · rfl
  · rw [h, h]

@[simp] theorem Block.logNew_wg (b : Block) (code kind num data : Nat) : (b.logNew code kind num data).wg = b.wg := by
  unfold Block.logNew; dsimp only; split
  · rfl
  · rw [Block.alert_wg, Block.setReg_wg]; dsimp only
    split
    · rfl
    · rw [Block.count_wg]

@[simp] theorem Block.logEvent_wg (b : Block) (code kind num data : Nat) : (b.logEvent code kind num data).wg = b.wg := by
  unfold Block.logEvent; dsimp only; repeat' split
  all_goals first | rfl | rw [Block.logNew_wg]

@[simp] theorem Block.alert_mig (b : Block) (e : LogEntry) : (b.alert e).mig = b.mig := by
  unfold Block.alert
  extract_lets send
  have h (b : Block) (p : Nat) : (send b p).mig = b.mig := by
    simp only [send]; split
    · simp only [Block.emit_mig, Block.canSent_mig, Block.count_mig]
    · rfl
  split
  · rfl
  · rw [h, h]

@[simp] theorem Block.logNew_mig (b : Block) (code kind num data : Nat) : (b.logNew code kind num data).mig = b.mig := by
  unfold Block.logNew; dsimp only; split
  · rfl
  · rw [Block.alert_mig, Block.setReg_mig]; dsimp only
    split
    · rfl
    · rw [Block.count_mig]

@[simp] theorem Block.logEvent_mig (b : Block) (code kind num data : Nat) : (b.logEvent code kind num data).mig = b.mig := by
  unfold Block.logEvent; dsimp only; repeat' split
  all_goals first | rfl | rw [Block.logNew_mig]

@[simp] theorem Block.alert_net (b : Block) (e : LogEntry) : (b.alert e).net = b.net := by
  unfold Block.alert
  extract_lets send
  have h (b : Block) (p : Nat) : (send b p).net = b.net := by
    simp only [send]; split
    · simp only [Block.emit_net, Block.canSent_net, Block.count_net]
    · rfl
  split
  · rfl
  · rw [h, h]

@[simp] theorem Block.logNew_net (b : Block) (code kind num data : Nat) : (b.logNew code kind num data).net = b.net := by
  unfold Block.logNew; dsimp only; split
  · rfl
  · rw [Block.alert_net, Block.setReg_net]; dsimp only
    split
    · rfl
    · rw [Block.count_net]

@[simp] theorem Block.logEvent_net (b : Block) (code kind num data : Nat) : (b.logEvent code kind num data).net = b.net := by
  unfold Block.logEvent; dsimp only; repeat' split
  all_goals first | rfl | rw [Block.logNew_net]

@[simp] theorem Block.alert_link (b : Block) (e : LogEntry) : (b.alert e).link = b.link := by
  unfold Block.alert
  extract_lets send
  have h (b : Block) (p : Nat) : (send b p).link = b.link := by
    simp only [send]; split
    · simp only [Block.emit_link, Block.canSent_link, Block.count_link]
    · rfl
  split
  · rfl
  · rw [h, h]

@[simp] theorem Block.logNew_link (b : Block) (code kind num data : Nat) : (b.logNew code kind num data).link = b.link := by
  unfold Block.logNew; dsimp only; split
  · rfl
  · rw [Block.alert_link, Block.setReg_link]; dsimp only
    split
    · rfl
    · rw [Block.count_link]

@[simp] theorem Block.logEvent_link (b : Block) (code kind num data : Nat) : (b.logEvent code kind num data).link = b.link := by
  unfold Block.logEvent; dsimp only; repeat' split
  all_goals first | rfl | rw [Block.logNew_link]

@[simp] theorem Block.alert_therm (b : Block) (e : LogEntry) : (b.alert e).therm = b.therm := by
  unfold Block.alert
  extract_lets send
  have h (b : Block) (p : Nat) : (send b p).therm = b.therm := by
    simp only [send]; split
    · simp only [Block.emit_therm, Block.canSent_therm, Block.count_therm]
    · rfl
  split
  · rfl
  · rw [h, h]

@[simp] theorem Block.logNew_therm (b : Block) (code kind num data : Nat) : (b.logNew code kind num data).therm = b.therm := by
  unfold Block.logNew; dsimp only; split
  · rfl
  · rw [Block.alert_therm, Block.setReg_therm]; dsimp only
    split
    · rfl
    · rw [Block.count_therm]

@[simp] theorem Block.logEvent_therm (b : Block) (code kind num data : Nat) : (b.logEvent code kind num data).therm = b.therm := by
  unfold Block.logEvent; dsimp only; repeat' split
  all_goals first | rfl | rw [Block.logNew_therm]

@[simp] theorem Block.alert_cfg (b : Block) (e : LogEntry) : (b.alert e).cfg = b.cfg := by
  unfold Block.alert
  extract_lets send
  have h (b : Block) (p : Nat) : (send b p).cfg = b.cfg := by
    simp only [send]; split
    · simp only [Block.emit_cfg, Block.canSent_cfg, Block.count_cfg]
    · rfl
  split
  · rfl
  · rw [h, h]

@[simp] theorem Block.logNew_cfg (b : Block) (code kind num data : Nat) : (b.logNew code kind num data).cfg = b.cfg := by
  unfold Block.logNew; dsimp only; split
  · rfl
  · rw [Block.alert_cfg, Block.setReg_cfg]; dsimp only
    split
    · rfl
    · rw [Block.count_cfg]

@[simp] theorem Block.logEvent_cfg (b : Block) (code kind num data : Nat) : (b.logEvent code kind num data).cfg = b.cfg := by
  unfold Block.logEvent; dsimp only; repeat' split
  all_goals first | rfl | rw [Block.logNew_cfg]

@[simp] theorem Block.alert_lmp (b : Block) (e : LogEntry) : (b.alert e).lmp = b.lmp := by
  unfold Block.alert
  extract_lets send
  have h (b : Block) (p : Nat) : (send b p).lmp = b.lmp := by
    simp only [send]; split
    · simp only [Block.emit_lmp, Block.canSent_lmp, Block.count_lmp]
    · rfl
  split
  · rfl
  · rw [h, h]

@[simp] theorem Block.logNew_lmp (b : Block) (code kind num data : Nat) : (b.logNew code kind num data).lmp = b.lmp := by
  unfold Block.logNew; dsimp only; split
  · rfl
  · rw [Block.alert_lmp, Block.setReg_lmp]; dsimp only
    split
    · rfl
    · rw [Block.count_lmp]

@[simp] theorem Block.logEvent_lmp (b : Block) (code kind num data : Nat) : (b.logEvent code kind num data).lmp = b.lmp := by
  unfold Block.logEvent; dsimp only; repeat' split
  all_goals first | rfl | rw [Block.logNew_lmp]

@[simp] theorem Block.alert_commit (b : Block) (e : LogEntry) : (b.alert e).commit = b.commit := by
  unfold Block.alert
  extract_lets send
  have h (b : Block) (p : Nat) : (send b p).commit = b.commit := by
    simp only [send]; split
    · simp only [Block.emit_commit, Block.canSent_commit, Block.count_commit]
    · rfl
  split
  · rfl
  · rw [h, h]

@[simp] theorem Block.logNew_commit (b : Block) (code kind num data : Nat) : (b.logNew code kind num data).commit = b.commit := by
  unfold Block.logNew; dsimp only; split
  · rfl
  · rw [Block.alert_commit, Block.setReg_commit]; dsimp only
    split
    · rfl
    · rw [Block.count_commit]

@[simp] theorem Block.logEvent_commit (b : Block) (code kind num data : Nat) : (b.logEvent code kind num data).commit = b.commit := by
  unfold Block.logEvent; dsimp only; repeat' split
  all_goals first | rfl | rw [Block.logNew_commit]

@[simp] theorem Block.alert_jtag (b : Block) (e : LogEntry) : (b.alert e).jtag = b.jtag := by
  unfold Block.alert
  extract_lets send
  have h (b : Block) (p : Nat) : (send b p).jtag = b.jtag := by
    simp only [send]; split
    · simp only [Block.emit_jtag, Block.canSent_jtag, Block.count_jtag]
    · rfl
  split
  · rfl
  · rw [h, h]

@[simp] theorem Block.logNew_jtag (b : Block) (code kind num data : Nat) : (b.logNew code kind num data).jtag = b.jtag := by
  unfold Block.logNew; dsimp only; split
  · rfl
  · rw [Block.alert_jtag, Block.setReg_jtag]; dsimp only
    split
    · rfl
    · rw [Block.count_jtag]

@[simp] theorem Block.logEvent_jtag (b : Block) (code kind num data : Nat) : (b.logEvent code kind num data).jtag = b.jtag := by
  unfold Block.logEvent; dsimp only; repeat' split
  all_goals first | rfl | rw [Block.logNew_jtag]

@[simp] theorem Block.alert_ledger (b : Block) (e : LogEntry) : (b.alert e).ledger = b.ledger := by
  unfold Block.alert
  extract_lets send
  have h (b : Block) (p : Nat) : (send b p).ledger = b.ledger := by
    simp only [send]; split
    · simp only [Block.emit_ledger, Block.canSent_ledger, Block.count_ledger]
    · rfl
  split
  · rfl
  · rw [h, h]

@[simp] theorem Block.logNew_ledger (b : Block) (code kind num data : Nat) : (b.logNew code kind num data).ledger = b.ledger := by
  unfold Block.logNew; dsimp only; split
  · rfl
  · rw [Block.alert_ledger, Block.setReg_ledger]; dsimp only
    split
    · rfl
    · rw [Block.count_ledger]

@[simp] theorem Block.logEvent_ledger (b : Block) (code kind num data : Nat) : (b.logEvent code kind num data).ledger = b.ledger := by
  unfold Block.logEvent; dsimp only; repeat' split
  all_goals first | rfl | rw [Block.logNew_ledger]

@[simp] theorem Block.alert_free (b : Block) (e : LogEntry) : (b.alert e).free = b.free := by
  unfold Block.alert
  extract_lets send
  have h (b : Block) (p : Nat) : (send b p).free = b.free := by
    simp only [send]; split
    · simp only [Block.emit_free, Block.canSent_free, Block.count_free]
    · rfl
  split
  · rfl
  · rw [h, h]

@[simp] theorem Block.logNew_free (b : Block) (code kind num data : Nat) : (b.logNew code kind num data).free = b.free := by
  unfold Block.logNew; dsimp only; split
  · rfl
  · rw [Block.alert_free, Block.setReg_free]; dsimp only
    split
    · rfl
    · rw [Block.count_free]

@[simp] theorem Block.logEvent_free (b : Block) (code kind num data : Nat) : (b.logEvent code kind num data).free = b.free := by
  unfold Block.logEvent; dsimp only; repeat' split
  all_goals first | rfl | rw [Block.logNew_free]

/-! `State.answer` and the queue. -/

@[simp] theorem State.answer_true (s : State) (b : Block) : s.answer true b = .next { s with blk := b } := rfl

@[simp] theorem State.answer_false (s : State) (b : Block) : s.answer false b = .next s := rfl

/-- Whatever its operands name, a command answers a next state with the same commands waiting. -/
theorem State.answer_next (s : State) (ok : Bool) (b : Block) : ∃ b', s.answer ok b = .next { s with blk := b' } := by
  cases ok
  · exact ⟨s.blk, rfl⟩
  · exact ⟨b, rfl⟩

end Sys2Proof.Machine
end

