-- ==== Sys2Proof/Laws/Ops.lean ====
section
/-! SUPPORT. What the shared operations can do: the register file, guarded writes, the passing of time, events and host writes. -/

namespace Sys2Proof.Machine

open Sys2Proof

/-! The register file. -/

/-- A register just written reads as the value written. -/
@[simp] theorem Block.reg_setReg (b : Block) (k v : Nat) : (b.setReg k v).reg k = v := by
  unfold Block.reg Block.setReg; exact SMap.get_set _ _ k v

/-- Every other register reads as before. -/
theorem Block.reg_setReg_ne (b : Block) {k j : Nat} (v : Nat) (h : j ≠ k) : (b.setReg k v).reg j = b.reg j := by
  unfold Block.reg Block.setReg; exact SMap.get_set_ne _ _ v h

/-- A register that a list of writes does not name reads as before. -/
theorem Block.reg_setRegs_ne (b : Block) (l : List (Nat × Nat)) {j : Nat} (h : ∀ e ∈ l, j ≠ e.1) : (b.setRegs l).reg j = b.reg j := by
  induction l generalizing b with
  | nil => rfl
  | cons e l ih =>
    obtain ⟨k, v⟩ := e
    rw [Block.setRegs, ih _ (fun e he => h e (by simp [he])), Block.reg_setReg_ne b v (h (k, v) (by simp))]

/-- A counter counts and stays at its largest value. -/
@[simp] theorem Block.reg_count (b : Block) (k d : Nat) : (b.count k d).reg k = satAdd (b.reg k) d (regTop k) :=
  Block.reg_setReg b k _

theorem Block.reg_count_ne (b : Block) {k j : Nat} (d : Nat) (h : j ≠ k) : (b.count k d).reg j = b.reg j :=
  Block.reg_setReg_ne b _ h

@[simp] theorem Block.reg_emit (b : Block) (kind : OutKind) (u : Nat) (ws : List Nat) (k : Nat) : (b.emit kind u ws).reg k = b.reg k := rfl

@[simp] theorem Block.reg_result (b : Block) (a k : Nat) : (b.result a).reg k = b.reg k := rfl

/-! Guarded writes (R387). -/

/-- A guarded write that answers no abort has its effect. -/
theorem Block.guarded_ok (b : Block) (cs : List (Bool × Nat)) (f : Block → Block) (h : (b.guarded cs f).1 = Abort.none) :
    b.guarded cs f = (Abort.none, f b) := by
  unfold Block.guarded at h ⊢
  dsimp only at h ⊢
  split
  · rfl
  · next hn => rw [if_neg hn] at h; exact absurd h hn

/-- A guarded write that is aborted has no effect. -/
theorem Block.guarded_abort (b : Block) (cs : List (Bool × Nat)) (f : Block → Block) (h : (b.guarded cs f).1 ≠ Abort.none) :
    (b.guarded cs f).2 = b := by
  unfold Block.guarded at h ⊢
  dsimp only at h ⊢
  split
  · next hn => rw [if_pos hn] at h; exact absurd rfl h
  · rfl

/-! Time. -/

@[simp] theorem Block.endSweep_fuses (b : Block) : (b.endSweep).fuses = b.fuses := by
  unfold Block.endSweep; split
  · rw [Block.logEvent_fuses]
  · rfl

@[simp] theorem Block.endSweep_ctx (b : Block) : (b.endSweep).ctx = b.ctx := by
  unfold Block.endSweep; split
  · rw [Block.logEvent_ctx]
  · rfl

@[simp] theorem Block.endSweep_rgn (b : Block) : (b.endSweep).rgn = b.rgn := by
  unfold Block.endSweep; split
  · rw [Block.logEvent_rgn]
  · rfl

@[simp] theorem Block.endSweep_mem (b : Block) : (b.endSweep).mem = b.mem := by
  unfold Block.endSweep; split
  · rw [Block.logEvent_mem]
  · rfl

@[simp] theorem Block.endSweep_wg (b : Block) : (b.endSweep).wg = b.wg := by
  unfold Block.endSweep; split
  · rw [Block.logEvent_wg]
  · rfl

@[simp] theorem Block.endSweep_mig (b : Block) : (b.endSweep).mig = b.mig := by
  unfold Block.endSweep; split
  · rw [Block.logEvent_mig]
  · rfl

@[simp] theorem Block.endSweep_net (b : Block) : (b.endSweep).net = b.net := by
  unfold Block.endSweep; split
  · rw [Block.logEvent_net]
  · rfl

@[simp] theorem Block.endSweep_link (b : Block) : (b.endSweep).link = b.link := by
  unfold Block.endSweep; split
  · rw [Block.logEvent_link]
  · rfl

@[simp] theorem Block.endSweep_therm (b : Block) : (b.endSweep).therm = b.therm := by
  unfold Block.endSweep; split
  · rw [Block.logEvent_therm]
  · rfl

@[simp] theorem Block.endSweep_cfg (b : Block) : (b.endSweep).cfg = b.cfg := by
  unfold Block.endSweep; split
  · rw [Block.logEvent_cfg]
  · rfl

@[simp] theorem Block.endSweep_lmp (b : Block) : (b.endSweep).lmp = b.lmp := by
  unfold Block.endSweep; split
  · rw [Block.logEvent_lmp]
  · rfl

@[simp] theorem Block.endSweep_commit (b : Block) : (b.endSweep).commit = b.commit := by
  unfold Block.endSweep; split
  · rw [Block.logEvent_commit]
  · rfl

@[simp] theorem Block.endSweep_jtag (b : Block) : (b.endSweep).jtag = b.jtag := by
  unfold Block.endSweep; split
  · rw [Block.logEvent_jtag]
  · rfl

@[simp] theorem Block.endSweep_ledger (b : Block) : (b.endSweep).ledger = b.ledger := by
  unfold Block.endSweep; split
  · rw [Block.logEvent_ledger]
  · rfl

@[simp] theorem Block.endSweep_free (b : Block) : (b.endSweep).free = b.free := by
  unfold Block.endSweep; split
  · rw [Block.logEvent_free]
  · rfl

theorem Block.settle_eq (b : Block) :
    b.settle = (settleClk (if us 500 ≤ b.clk.now then b.endSweep else b)).disp.restartDue.foldl restartOne
      (settleClk (if us 500 ≤ b.clk.now then b.endSweep else b)) := rfl

theorem settleClk_fuses (b : Block) : (settleClk b).fuses = b.fuses := by
  have h (c : Block) : (settleDiv c).fuses = c.fuses := by
    unfold settleDiv; split
    · split <;> rfl
    · rfl
  have k (c : Block) : (settleAux c).fuses = c.fuses := by
    unfold settleAux; split
    · split <;> rfl
    · rfl
  rw [settleClk, k, h]

theorem settleClk_ctx (b : Block) : (settleClk b).ctx = b.ctx := by
  have h (c : Block) : (settleDiv c).ctx = c.ctx := by
    unfold settleDiv; split
    · split <;> rfl
    · rfl
  have k (c : Block) : (settleAux c).ctx = c.ctx := by
    unfold settleAux; split
    · split <;> rfl
    · rfl
  rw [settleClk, k, h]

theorem settleClk_rgn (b : Block) : (settleClk b).rgn = b.rgn := by
  have h (c : Block) : (settleDiv c).rgn = c.rgn := by
    unfold settleDiv; split
    · split <;> rfl
    · rfl
  have k (c : Block) : (settleAux c).rgn = c.rgn := by
    unfold settleAux; split
    · split <;> rfl
    · rfl
  rw [settleClk, k, h]

theorem settleClk_mem (b : Block) : (settleClk b).mem = b.mem := by
  have h (c : Block) : (settleDiv c).mem = c.mem := by
    unfold settleDiv; split
    · split <;> rfl
    · rfl
  have k (c : Block) : (settleAux c).mem = c.mem := by
    unfold settleAux; split
    · split <;> rfl
    · rfl
  rw [settleClk, k, h]

theorem settleClk_wg (b : Block) : (settleClk b).wg = b.wg := by
  have h (c : Block) : (settleDiv c).wg = c.wg := by
    unfold settleDiv; split
    · split <;> rfl
    · rfl
  have k (c : Block) : (settleAux c).wg = c.wg := by
    unfold settleAux; split
    · split <;> rfl
    · rfl
  rw [settleClk, k, h]

theorem settleClk_mig (b : Block) : (settleClk b).mig = b.mig := by
  have h (c : Block) : (settleDiv c).mig = c.mig := by
    unfold settleDiv; split
    · split <;> rfl
    · rfl
  have k (c : Block) : (settleAux c).mig = c.mig := by
    unfold settleAux; split
    · split <;> rfl
    · rfl
  rw [settleClk, k, h]

theorem settleClk_net (b : Block) : (settleClk b).net = b.net := by
  have h (c : Block) : (settleDiv c).net = c.net := by
    unfold settleDiv; split
    · split <;> rfl
    · rfl
  have k (c : Block) : (settleAux c).net = c.net := by
    unfold settleAux; split
    · split <;> rfl
    · rfl
  rw [settleClk, k, h]

theorem settleClk_link (b : Block) : (settleClk b).link = b.link := by
  have h (c : Block) : (settleDiv c).link = c.link := by
    unfold settleDiv; split
    · split <;> rfl
    · rfl
  have k (c : Block) : (settleAux c).link = c.link := by
    unfold settleAux; split
    · split <;> rfl
    · rfl
  rw [settleClk, k, h]

theorem settleClk_therm (b : Block) : (settleClk b).therm = b.therm := by
  have h (c : Block) : (settleDiv c).therm = c.therm := by
    unfold settleDiv; split
    · split <;> rfl
    · rfl
  have k (c : Block) : (settleAux c).therm = c.therm := by
    unfold settleAux; split
    · split <;> rfl
    · rfl
  rw [settleClk, k, h]

theorem settleClk_cfg (b : Block) : (settleClk b).cfg = b.cfg := by
  have h (c : Block) : (settleDiv c).cfg = c.cfg := by
    unfold settleDiv; split
    · split <;> rfl
    · rfl
  have k (c : Block) : (settleAux c).cfg = c.cfg := by
    unfold settleAux; split
    · split <;> rfl
    · rfl
  rw [settleClk, k, h]

theorem settleClk_lmp (b : Block) : (settleClk b).lmp = b.lmp := by
  have h (c : Block) : (settleDiv c).lmp = c.lmp := by
    unfold settleDiv; split
    · split <;> rfl
    · rfl
  have k (c : Block) : (settleAux c).lmp = c.lmp := by
    unfold settleAux; split
    · split <;> rfl
    · rfl
  rw [settleClk, k, h]

theorem settleClk_commit (b : Block) : (settleClk b).commit = b.commit := by
  have h (c : Block) : (settleDiv c).commit = c.commit := by
    unfold settleDiv; split
    · split <;> rfl
    · rfl
  have k (c : Block) : (settleAux c).commit = c.commit := by
    unfold settleAux; split
    · split <;> rfl
    · rfl
  rw [settleClk, k, h]

theorem settleClk_jtag (b : Block) : (settleClk b).jtag = b.jtag := by
  have h (c : Block) : (settleDiv c).jtag = c.jtag := by
    unfold settleDiv; split
    · split <;> rfl
    · rfl
  have k (c : Block) : (settleAux c).jtag = c.jtag := by
    unfold settleAux; split
    · split <;> rfl
    · rfl
  rw [settleClk, k, h]

theorem settleClk_ledger (b : Block) : (settleClk b).ledger = b.ledger := by
  have h (c : Block) : (settleDiv c).ledger = c.ledger := by
    unfold settleDiv; split
    · split <;> rfl
    · rfl
  have k (c : Block) : (settleAux c).ledger = c.ledger := by
    unfold settleAux; split
    · split <;> rfl
    · rfl
  rw [settleClk, k, h]

theorem settleClk_free (b : Block) : (settleClk b).free = b.free := by
  have h (c : Block) : (settleDiv c).free = c.free := by
    unfold settleDiv; split
    · split <;> rfl
    · rfl
  have k (c : Block) : (settleAux c).free = c.free := by
    unfold settleAux; split
    · split <;> rfl
    · rfl
  rw [settleClk, k, h]

theorem settleClk_health (b : Block) : (settleClk b).health = b.health := by
  have h (c : Block) : (settleDiv c).health = c.health := by
    unfold settleDiv; split
    · split <;> rfl
    · rfl
  have k (c : Block) : (settleAux c).health = c.health := by
    unfold settleAux; split
    · split <;> rfl
    · rfl
  rw [settleClk, k, h]

theorem settleClk_outbox (b : Block) : (settleClk b).outbox = b.outbox := by
  have h (c : Block) : (settleDiv c).outbox = c.outbox := by
    unfold settleDiv; split
    · split <;> rfl
    · rfl
  have k (c : Block) : (settleAux c).outbox = c.outbox := by
    unfold settleAux; split
    · split <;> rfl
    · rfl
  rw [settleClk, k, h]

theorem settleClk_regs (b : Block) : (settleClk b).regs = b.regs := by
  have h (c : Block) : (settleDiv c).regs = c.regs := by
    unfold settleDiv; split
    · split <;> rfl
    · rfl
  have k (c : Block) : (settleAux c).regs = c.regs := by
    unfold settleAux; split
    · split <;> rfl
    · rfl
  rw [settleClk, k, h]

theorem settleClk_now (b : Block) : (settleClk b).clk.now = b.clk.now := by
  have h (c : Block) : (settleDiv c).clk.now = c.clk.now := by
    unfold settleDiv; split
    · split <;> rfl
    · rfl
  have k (c : Block) : (settleAux c).clk.now = c.clk.now := by
    unfold settleAux; split
    · split <;> rfl
    · rfl
  rw [settleClk, k, h]

theorem restarts_fuses (l : List (Nat × Nat)) (b : Block) : (l.foldl restartOne b).fuses = b.fuses := by
  induction l generalizing b with
  | nil => rfl
  | cons e l ih =>
    rw [List.foldl_cons, ih]
    unfold restartOne
    split <;> rfl

@[simp] theorem Block.settle_fuses (b : Block) : b.settle.fuses = b.fuses := by
  rw [Block.settle_eq, restarts_fuses, settleClk_fuses]
  split
  · rw [Block.endSweep_fuses]
  · rfl

/-- The passing of time leaves `fuses` alone. -/
@[simp] theorem Block.at_fuses (b : Block) (t : Nat) : (b.at t).fuses = b.fuses := by
  unfold Block.at
  split
  · rfl
  · rw [Block.settle_fuses]

theorem restarts_ctx (l : List (Nat × Nat)) (b : Block) : (l.foldl restartOne b).ctx = b.ctx := by
  induction l generalizing b with
  | nil => rfl
  | cons e l ih =>
    rw [List.foldl_cons, ih]
    unfold restartOne
    split <;> rfl

@[simp] theorem Block.settle_ctx (b : Block) : b.settle.ctx = b.ctx := by
  rw [Block.settle_eq, restarts_ctx, settleClk_ctx]
  split
  · rw [Block.endSweep_ctx]
  · rfl

/-- The passing of time leaves `ctx` alone. -/
@[simp] theorem Block.at_ctx (b : Block) (t : Nat) : (b.at t).ctx = b.ctx := by
  unfold Block.at
  split
  · rfl
  · rw [Block.settle_ctx]

theorem restarts_rgn (l : List (Nat × Nat)) (b : Block) : (l.foldl restartOne b).rgn = b.rgn := by
  induction l generalizing b with
  | nil => rfl
  | cons e l ih =>
    rw [List.foldl_cons, ih]
    unfold restartOne
    split <;> rfl

@[simp] theorem Block.settle_rgn (b : Block) : b.settle.rgn = b.rgn := by
  rw [Block.settle_eq, restarts_rgn, settleClk_rgn]
  split
  · rw [Block.endSweep_rgn]
  · rfl

/-- The passing of time leaves `rgn` alone. -/
@[simp] theorem Block.at_rgn (b : Block) (t : Nat) : (b.at t).rgn = b.rgn := by
  unfold Block.at
  split
  · rfl
  · rw [Block.settle_rgn]

theorem restarts_mem (l : List (Nat × Nat)) (b : Block) : (l.foldl restartOne b).mem = b.mem := by
  induction l generalizing b with
  | nil => rfl
  | cons e l ih =>
    rw [List.foldl_cons, ih]
    unfold restartOne
    split <;> rfl

@[simp] theorem Block.settle_mem (b : Block) : b.settle.mem = b.mem := by
  rw [Block.settle_eq, restarts_mem, settleClk_mem]
  split
  · rw [Block.endSweep_mem]
  · rfl

/-- The passing of time leaves `mem` alone. -/
@[simp] theorem Block.at_mem (b : Block) (t : Nat) : (b.at t).mem = b.mem := by
  unfold Block.at
  split
  · rfl
  · rw [Block.settle_mem]

theorem restarts_wg (l : List (Nat × Nat)) (b : Block) : (l.foldl restartOne b).wg = b.wg := by
  induction l generalizing b with
  | nil => rfl
  | cons e l ih =>
    rw [List.foldl_cons, ih]
    unfold restartOne
    split <;> rfl

@[simp] theorem Block.settle_wg (b : Block) : b.settle.wg = b.wg := by
  rw [Block.settle_eq, restarts_wg, settleClk_wg]
  split
  · rw [Block.endSweep_wg]
  · rfl

/-- The passing of time leaves `wg` alone. -/
@[simp] theorem Block.at_wg (b : Block) (t : Nat) : (b.at t).wg = b.wg := by
  unfold Block.at
  split
  · rfl
  · rw [Block.settle_wg]

theorem restarts_mig (l : List (Nat × Nat)) (b : Block) : (l.foldl restartOne b).mig = b.mig := by
  induction l generalizing b with
  | nil => rfl
  | cons e l ih =>
    rw [List.foldl_cons, ih]
    unfold restartOne
    split <;> rfl

@[simp] theorem Block.settle_mig (b : Block) : b.settle.mig = b.mig := by
  rw [Block.settle_eq, restarts_mig, settleClk_mig]
  split
  · rw [Block.endSweep_mig]
  · rfl

/-- The passing of time leaves `mig` alone. -/
@[simp] theorem Block.at_mig (b : Block) (t : Nat) : (b.at t).mig = b.mig := by
  unfold Block.at
  split
  · rfl
  · rw [Block.settle_mig]

theorem restarts_net (l : List (Nat × Nat)) (b : Block) : (l.foldl restartOne b).net = b.net := by
  induction l generalizing b with
  | nil => rfl
  | cons e l ih =>
    rw [List.foldl_cons, ih]
    unfold restartOne
    split <;> rfl

@[simp] theorem Block.settle_net (b : Block) : b.settle.net = b.net := by
  rw [Block.settle_eq, restarts_net, settleClk_net]
  split
  · rw [Block.endSweep_net]
  · rfl

/-- The passing of time leaves `net` alone. -/
@[simp] theorem Block.at_net (b : Block) (t : Nat) : (b.at t).net = b.net := by
  unfold Block.at
  split
  · rfl
  · rw [Block.settle_net]

theorem restarts_link (l : List (Nat × Nat)) (b : Block) : (l.foldl restartOne b).link = b.link := by
  induction l generalizing b with
  | nil => rfl
  | cons e l ih =>
    rw [List.foldl_cons, ih]
    unfold restartOne
    split <;> rfl

@[simp] theorem Block.settle_link (b : Block) : b.settle.link = b.link := by
  rw [Block.settle_eq, restarts_link, settleClk_link]
  split
  · rw [Block.endSweep_link]
  · rfl

/-- The passing of time leaves `link` alone. -/
@[simp] theorem Block.at_link (b : Block) (t : Nat) : (b.at t).link = b.link := by
  unfold Block.at
  split
  · rfl
  · rw [Block.settle_link]

theorem restarts_therm (l : List (Nat × Nat)) (b : Block) : (l.foldl restartOne b).therm = b.therm := by
  induction l generalizing b with
  | nil => rfl
  | cons e l ih =>
    rw [List.foldl_cons, ih]
    unfold restartOne
    split <;> rfl

@[simp] theorem Block.settle_therm (b : Block) : b.settle.therm = b.therm := by
  rw [Block.settle_eq, restarts_therm, settleClk_therm]
  split
  · rw [Block.endSweep_therm]
  · rfl

/-- The passing of time leaves `therm` alone. -/
@[simp] theorem Block.at_therm (b : Block) (t : Nat) : (b.at t).therm = b.therm := by
  unfold Block.at
  split
  · rfl
  · rw [Block.settle_therm]

theorem restarts_cfg (l : List (Nat × Nat)) (b : Block) : (l.foldl restartOne b).cfg = b.cfg := by
  induction l generalizing b with
  | nil => rfl
  | cons e l ih =>
    rw [List.foldl_cons, ih]
    unfold restartOne
    split <;> rfl

@[simp] theorem Block.settle_cfg (b : Block) : b.settle.cfg = b.cfg := by
  rw [Block.settle_eq, restarts_cfg, settleClk_cfg]
  split
  · rw [Block.endSweep_cfg]
  · rfl

/-- The passing of time leaves `cfg` alone. -/
@[simp] theorem Block.at_cfg (b : Block) (t : Nat) : (b.at t).cfg = b.cfg := by
  unfold Block.at
  split
  · rfl
  · rw [Block.settle_cfg]

theorem restarts_lmp (l : List (Nat × Nat)) (b : Block) : (l.foldl restartOne b).lmp = b.lmp := by
  induction l generalizing b with
  | nil => rfl
  | cons e l ih =>
    rw [List.foldl_cons, ih]
    unfold restartOne
    split <;> rfl

@[simp] theorem Block.settle_lmp (b : Block) : b.settle.lmp = b.lmp := by
  rw [Block.settle_eq, restarts_lmp, settleClk_lmp]
  split
  · rw [Block.endSweep_lmp]
  · rfl

/-- The passing of time leaves `lmp` alone. -/
@[simp] theorem Block.at_lmp (b : Block) (t : Nat) : (b.at t).lmp = b.lmp := by
  unfold Block.at
  split
  · rfl
  · rw [Block.settle_lmp]

theorem restarts_commit (l : List (Nat × Nat)) (b : Block) : (l.foldl restartOne b).commit = b.commit := by
  induction l generalizing b with
  | nil => rfl
  | cons e l ih =>
    rw [List.foldl_cons, ih]
    unfold restartOne
    split <;> rfl

@[simp] theorem Block.settle_commit (b : Block) : b.settle.commit = b.commit := by
  rw [Block.settle_eq, restarts_commit, settleClk_commit]
  split
  · rw [Block.endSweep_commit]
  · rfl

/-- The passing of time leaves `commit` alone. -/
@[simp] theorem Block.at_commit (b : Block) (t : Nat) : (b.at t).commit = b.commit := by
  unfold Block.at
  split
  · rfl
  · rw [Block.settle_commit]

theorem restarts_jtag (l : List (Nat × Nat)) (b : Block) : (l.foldl restartOne b).jtag = b.jtag := by
  induction l generalizing b with
  | nil => rfl
  | cons e l ih =>
    rw [List.foldl_cons, ih]
    unfold restartOne
    split <;> rfl

@[simp] theorem Block.settle_jtag (b : Block) : b.settle.jtag = b.jtag := by
  rw [Block.settle_eq, restarts_jtag, settleClk_jtag]
  split
  · rw [Block.endSweep_jtag]
  · rfl

/-- The passing of time leaves `jtag` alone. -/
@[simp] theorem Block.at_jtag (b : Block) (t : Nat) : (b.at t).jtag = b.jtag := by
  unfold Block.at
  split
  · rfl
  · rw [Block.settle_jtag]

theorem restarts_ledger (l : List (Nat × Nat)) (b : Block) : (l.foldl restartOne b).ledger = b.ledger := by
  induction l generalizing b with
  | nil => rfl
  | cons e l ih =>
    rw [List.foldl_cons, ih]
    unfold restartOne
    split <;> rfl

@[simp] theorem Block.settle_ledger (b : Block) : b.settle.ledger = b.ledger := by
  rw [Block.settle_eq, restarts_ledger, settleClk_ledger]
  split
  · rw [Block.endSweep_ledger]
  · rfl

/-- The passing of time leaves `ledger` alone. -/
@[simp] theorem Block.at_ledger (b : Block) (t : Nat) : (b.at t).ledger = b.ledger := by
  unfold Block.at
  split
  · rfl
  · rw [Block.settle_ledger]

theorem restarts_free (l : List (Nat × Nat)) (b : Block) : (l.foldl restartOne b).free = b.free := by
  induction l generalizing b with
  | nil => rfl
  | cons e l ih =>
    rw [List.foldl_cons, ih]
    unfold restartOne
    split <;> rfl

@[simp] theorem Block.settle_free (b : Block) : b.settle.free = b.free := by
  rw [Block.settle_eq, restarts_free, settleClk_free]
  split
  · rw [Block.endSweep_free]
  · rfl

/-- The passing of time leaves `free` alone. -/
@[simp] theorem Block.at_free (b : Block) (t : Nat) : (b.at t).free = b.free := by
  unfold Block.at
  split
  · rfl
  · rw [Block.settle_free]

theorem restarts_clk (l : List (Nat × Nat)) (b : Block) : (l.foldl restartOne b).clk = b.clk := by
  induction l generalizing b with
  | nil => rfl
  | cons e l ih =>
    rw [List.foldl_cons, ih]
    unfold restartOne
    split <;> rfl

theorem Block.settle_now (b : Block) : b.settle.clk.now = b.clk.now := by
  rw [Block.settle_eq, restarts_clk, settleClk_now]
  split
  · unfold Block.endSweep; split
    · rw [Block.logEvent_clk]
    · rfl
  · rfl

/-- A time that has passed changes nothing. -/
theorem Block.at_past (b : Block) {t : Nat} (h : t ≤ b.clk.now) : b.at t = b := if_pos h

/-- The passing of time brings the block to that time. -/
theorem Block.at_now (b : Block) (t : Nat) : (b.at t).clk.now = max b.clk.now t := by
  unfold Block.at
  split
  · omega
  · rw [Block.settle_now]; dsimp only; omega

/-! Events and host writes. -/

/-- A clocked event falls on the block at its time, or, with no clock, does not fall. -/
theorem Block.event_cases (b : Block) (t : Nat) (f : Block → Block) : b.event t f = f (b.at t) ∨ b.event t f = b.at t := by
  unfold Block.event; split
  · exact .inl rfl
  · exact .inr rfl

theorem Block.event_of (b : Block) (t : Nat) (f : Block → Block) (h : (b.at t).clocked = true) : b.event t f = f (b.at t) := if_pos h

theorem Block.eventIf_of (b : Block) (t : Nat) (p : Block → Bool) (f : Block → Block) (h : (b.at t).clocked = true)
    (hp : p (b.at t) = true) : b.eventIf t p f = f (b.at t) := by
  unfold Block.eventIf
  rw [Block.event_of b t _ h, if_pos hp]

theorem Block.host_of (b : Block) (f : Block → Nat × Block) (h : b.served = true) : b.host f = (f b).2.result (f b).1 := if_pos h

/-- A host write while the dictionary is not served has no effect. -/
theorem Block.host_unserved (b : Block) (f : Block → Nat × Block) (h : b.served = false) : b.host f = b := by
  unfold Block.host
  rw [h]
  rfl

end Sys2Proof.Machine
end

