-- ==== Sys2Proof/Laws/Memory.lean ====
section
/-! SUPPORT. Every operation over the memory arrays keeps their canonical form; what a write of a cell or of a line's state reads as
afterwards. -/

namespace Sys2Proof.Machine

open Sys2Proof

/-! Cells and line states. -/

@[simp] theorem Mem.cell_setCell (m : Mem) (a : Nat) (v : Byte) : (m.setCell a v).cell a = v := SMap.look_put _ a v

theorem Mem.cell_setCell_ne (m : Mem) {a j : Nat} (v : Byte) (h : j ≠ a) : (m.setCell a v).cell j = m.cell j :=
  SMap.look_put_ne _ v h

/-- A byte outside those written reads as before. -/
theorem Mem.cell_setCells_out (m : Mem) (a : Nat) (vs : List Byte) {j : Nat} (h : j < a ∨ a + vs.length ≤ j) :
    (m.setCells a vs).cell j = m.cell j := by
  induction vs generalizing m a with
  | nil => rfl
  | cons v vs ih =>
    simp only [List.length_cons] at h
    rw [Mem.setCells, ih _ _ (by omega), Mem.cell_setCell_ne m v (by omega)]

theorem Mem.wf_iff (m : Mem) :
    m.wf = true ↔ SMap.wf (α := Byte) (fun _ => default) m.cells = true ∧ SMap.wf (α := Nat) (fun _ => default) m.lines = true := by
  unfold Mem.wf; rw [Bool.and_eq_true]

/-- The form depends on the two arrays alone. -/
theorem Mem.wf_of_arrays {m n : Mem} (hc : n.cells = m.cells) (hl : n.lines = m.lines) (h : m.wf = true) : n.wf = true := by
  rw [Mem.wf_iff] at h ⊢; rw [hc, hl]; exact h

theorem Mem.wf_setCell (m : Mem) (a : Nat) (v : Byte) (h : m.wf = true) : (m.setCell a v).wf = true := by
  rw [Mem.wf_iff] at h ⊢; exact ⟨SMap.wf_set _ _ a v h.1, h.2⟩

theorem Mem.wf_setCells (m : Mem) (a : Nat) (vs : List Byte) (h : m.wf = true) : (m.setCells a vs).wf = true := by
  induction vs generalizing m a with
  | nil => exact h
  | cons v vs ih => exact ih _ _ (Mem.wf_setCell m a v h)

theorem Mem.wf_setColWord (m : Mem) (w v : Nat) (h : m.wf = true) : (m.setColWord w v).wf = true := Mem.wf_setCells m _ _ h

theorem Block.wf_setLineState (b : Block) (l : Nat) (v p : Bool) (h : b.mem.wf = true) : (b.setLineState l v p).mem.wf = true := by
  rw [Mem.wf_iff] at h ⊢; exact ⟨h.1, SMap.wf_set _ _ l _ h.2⟩

/-- The state just written is the state the vote finds. -/
theorem Block.lineState_setLineState (b : Block) (l : Nat) (v p : Bool) : (b.setLineState l v p).mem.lineState l = (v, p) := by
  unfold Mem.lineState Block.setLineState
  dsimp only
  rw [SMap.look_put]
  cases v <;> cases p <;> decide

/-! Operations that leave the arrays alone. -/

theorem Block.setBankState_arrays (b : Block) (bank st : Nat) :
    (b.setBankState bank st).mem.cells = b.mem.cells ∧ (b.setBankState bank st).mem.lines = b.mem.lines := by
  unfold Block.setBankState; simp

theorem Block.wf_setBankState (b : Block) (bank st : Nat) (h : b.mem.wf = true) : (b.setBankState bank st).mem.wf = true :=
  Mem.wf_of_arrays (b.setBankState_arrays bank st).1 (b.setBankState_arrays bank st).2 h

theorem Block.wf_retireLimit (b : Block) (bank : Nat) (h : b.mem.wf = true) : (b.retireLimit bank).mem.wf = true := by
  unfold Block.retireLimit; split
  · exact b.wf_setBankState bank _ h
  · exact h

theorem Block.wf_notePosition (b : Block) (bank l j : Nat) (h : b.mem.wf = true) : (b.notePosition bank l j).mem.wf = true := by
  unfold Block.notePosition; dsimp only; split
  · exact h
  · split <;> exact Mem.wf_of_arrays (m := b.mem) rfl rfl h

theorem wf_foldl {β : Type} (f : Block → β → Block) (hf : ∀ b x, b.mem.wf = true → (f b x).mem.wf = true) (l : List β) (b : Block)
    (h : b.mem.wf = true) : (l.foldl f b).mem.wf = true := by
  induction l generalizing b with
  | nil => exact h
  | cons x l ih => exact ih _ (hf b x h)

/-! Reading a line. -/

theorem Block.wf_writeColumn (b : Block) (l w x : Nat) (h : b.mem.wf = true) : (b.writeColumn l w x).mem.wf = true := by
  unfold Block.writeColumn; exact Mem.wf_setColWord _ _ _ h

theorem Block.wf_readWord (b : Block) (l i : Nat) (h : b.mem.wf = true) : (b.readWord l i).2.2.mem.wf = true := by
  unfold Block.readWord; dsimp only
  split
  · exact h
  · exact h
  · split
    · exact b.wf_writeColumn _ _ _ h
    · refine wf_foldl _ (fun b j hb => b.wf_notePosition _ _ _ hb) _ _ ?_
      rw [Block.count_mem]
      split <;> (rw [Block.count_mem]; exact b.wf_writeColumn _ _ _ h)

theorem Block.wf_readWords (b : Block) (l n : Nat) (h : b.mem.wf = true) : (b.readWords l n).2.2.mem.wf = true := by
  induction n with
  | zero => exact h
  | succ n ih => unfold Block.readWords; exact Block.wf_readWord _ l n ih

theorem Block.wf_voteLine (b : Block) (l : Nat) (h : b.mem.wf = true) : (b.voteLine l).2.2.mem.wf = true := by
  unfold Block.voteLine; dsimp only; split
  · exact h
  · rw [Block.count_mem]; exact b.wf_setLineState l _ _ h

theorem Block.wf_newUe (b : Block) (l n : Nat) (h : b.mem.wf = true) : (b.newUe l n).mem.wf = true := by
  unfold Block.newUe; dsimp only; split
  · exact b.wf_setLineState l _ _ h
  · exact Block.wf_retireLimit _ _ (by simp [b.wf_setLineState l true true h])

theorem Block.wf_afterRead (b : Block) (l : Nat) (h : b.mem.wf = true) : (b.afterRead l).mem.wf = true := by
  unfold Block.afterRead; split
  · exact b.wf_retireLimit _ h
  · exact h

/-- A read of a line keeps the form. -/
theorem Block.wf_readLine (b : Block) (l : Nat) (h : b.mem.wf = true) : (b.readLine l).2.2.mem.wf = true := by
  have hv := b.wf_voteLine l h
  unfold Block.readLine
  split
  · next hq => rw [hq] at hv; exact hv
  · next hq =>
    rw [hq] at hv
    have hw := Block.wf_readWords _ l 8 hv
    dsimp only
    split
    · exact Block.wf_newUe _ _ _ hw
    · exact Block.wf_afterRead _ _ hw

/-! Writing a line. -/

theorem Block.wf_storeWords (b : Block) (l d : Nat) (h : b.mem.wf = true) : (b.storeWords l d).mem.wf = true :=
  wf_foldl _ (fun b _ hb => b.wf_writeColumn _ _ _ hb) _ b h

theorem Block.wf_noteState (b : Block) (l : Nat) (was now : Bool) (h : b.mem.wf = true) : (b.noteState l was now).mem.wf = true := by
  have hs := b.wf_setLineState l true now h
  unfold Block.noteState; dsimp only
  split
  · exact hs
  · split
    · rw [Block.count_mem]; exact hs
    · split
      · rw [Block.setReg_mem]; exact hs
      · exact hs

theorem Block.wf_invalidate (b : Block) (l : Nat) (i : Option Nat) (h : b.mem.wf = true) : (b.invalidate l i).mem.wf = true :=
  Mem.wf_of_arrays (m := b.mem) rfl rfl h

/-- A write of a line keeps the form. -/
theorem Block.wf_writeLine (b : Block) (l data mask : Nat) (poison : Bool) (i : Option Nat) (h : b.mem.wf = true) :
    (b.writeLine l data mask poison i).2.mem.wf = true := by
  have hv := Block.wf_voteLine _ l (b.wf_invalidate l i h)
  unfold Block.writeLine
  dsimp only
  split
  · exact Block.wf_noteState _ _ _ _ (Block.wf_storeWords _ _ _ hv)
  · split
    · exact Block.wf_noteState _ _ _ _ (Block.wf_storeWords _ _ _ hv)
    · have hw := Block.wf_readWords _ l 8 hv
      refine Block.wf_noteState _ _ _ _ (Block.wf_storeWords _ _ _ ?_)
      split
      · exact Block.wf_newUe _ _ _ hw
      · exact Block.wf_afterRead _ _ hw

/-! Bytes, wipes, and the walk of a repair. -/

theorem Block.wf_readBytes (b : Block) (a n : Nat) (h : b.mem.wf = true) : (b.readBytes a n).2.2.mem.wf = true := by
  unfold Block.readBytes
  dsimp only
  generalize (List.range _) = l
  have key (l : List Nat) (acc : Nat × Bool × Block) (ha : acc.2.2.mem.wf = true) :
      (l.foldl (fun (acc : Nat × Bool × Block) i =>
        let (d, p, b) := acc
        let (x, q, b) := b.readLine (a / 64 + i)
        (d + x * 2 ^ (512 * i), p || q, b)) acc).2.2.mem.wf = true := by
    induction l generalizing acc with
    | nil => exact ha
    | cons i l ih => exact ih _ (Block.wf_readLine _ _ ha)
  exact key l _ h

/-- A write of bytes keeps the form. -/
theorem Block.wf_writeBytes (b : Block) (a n v : Nat) (h : b.mem.wf = true) : (b.writeBytes a n v).2.mem.wf = true := by
  unfold Block.writeBytes
  dsimp only
  generalize (List.range _) = l
  have key (l : List Nat) (acc : Nat × Block) (ha : acc.2.mem.wf = true) (w : Nat) :
      (l.foldl (fun (acc : Nat × Block) i =>
        let (st, b) := acc
        let (st', b) := b.writeLine (a / 64 + i) (bitsOf w (512 * i + 511) (512 * i)) (maskFor a n (a / 64 + i)) false none
        ((if st = Status.ok then st' else st), b)) acc).2.mem.wf = true := by
    induction l generalizing acc with
    | nil => exact ha
    | cons i l ih => exact ih _ (Block.wf_writeLine _ _ _ _ _ _ ha)
  exact key l _ h _

/-- A wipe keeps the form. -/
theorem Block.wf_wipeLines (b : Block) (frame : Bool) (u : Nat) (h : b.mem.wf = true) : (b.wipeLines frame u).mem.wf = true := by
  rw [Mem.wf_iff] at h
  unfold Block.wipeLines
  dsimp only
  rw [Block.setReg_mem, Mem.wf_iff]
  exact ⟨h.1, SMap.wf_filter _ _ _ h.2⟩

theorem Block.wf_repairLine (b : Block) (l : Nat) (h : b.mem.wf = true) : (b.repairLine l).mem.wf = true := by
  have hv := Block.wf_voteLine b l h
  unfold Block.repairLine; split
  · next hq =>
    rw [hq] at hv
    exact wf_foldl _ (fun b _ hb => b.wf_writeColumn _ _ _ hb) _ _ (Block.wf_readLine _ _ hv)
  · next hq => rw [hq] at hv; exact hv

theorem Block.wf_repairWalk (b : Block) (bank : Nat) (h : b.mem.wf = true) : (b.repairWalk bank).mem.wf = true := by
  unfold Block.repairWalk
  dsimp only
  rw [Block.setReg_mem]
  exact wf_foldl _ (fun b l hb => b.wf_repairLine l hb) _ _ h

/-- The memory of the machine at reset is in the form. -/
theorem reset_mem_wf : State.reset.blk.mem.wf = true := rfl

end Sys2Proof.Machine
end

