-- ==== Sys2Proof/Laws/Mig.lean ====
section
/-! SUPPORT. With no line of memory valid, the kernel table holds no kernel: a scan of page maps finds none and meets no wipe. -/

namespace Sys2Proof.Machine

open Sys2Proof

/-- The state of a line of a memory with nothing listed: neither VALID nor POISON, its three copies at one. -/
theorem Block.voteLine_empty (b : Block) (h : b.mem.lines = []) (l : Nat) : b.voteLine l = (false, false, b) := by
  have h0 : b.mem.lines.look l = 0 := by rw [h]; rfl
  have h' : b.mem.lineState l = (false, false) := by unfold Mem.lineState; rw [h0]; rfl
  have h'' : b.mem.badCopies l = 0 := by unfold Mem.badCopies; rw [h', h0]; rfl
  unfold Block.voteLine
  rw [h', h'']; rfl

/-- A fold whose step changes nothing. -/
theorem foldl_fixed {α β : Type} (f : α → β → α) (a : α) (l : List β) (h : ∀ x, f a x = a) : l.foldl f a = a := by
  induction l with
  | nil => rfl
  | cons x l ih => rw [List.foldl_cons, h x]; exact ih

/-- Without a valid line there is no kernel, so no page map. -/
theorem Block.kernelMaps_empty (b : Block) (h : b.mem.lines = []) (k : Nat) : b.kernelMaps k = ([], b) := by
  unfold Block.kernelMaps
  rw [foldl_fixed]
  intro n
  simp [Block.voteLine_empty b h]

/-- A scan of no page maps meets no line being wiped. -/
theorem scanMaps_nil_stalled (bank : Nat) (b : Block) : (scanMaps bank ([], b)).mem.stalled = b.mem.stalled := rfl

/-- A DRAIN_SCAN of a memory with nothing listed meets no line being wiped. -/
theorem Block.drainScan_stalled (b : Block) (h : b.mem.lines = []) (bank : Nat) :
    (b.drainScan bank).mem.stalled = b.mem.stalled := by
  unfold Block.drainScan
  rw [Block.kernelMaps_empty _ (by exact h), scanMaps_nil_stalled]

theorem Block.fallsNow_drainScan (b : Block) (bank : Nat) (h : b.mem.lines = []) (f : Block → Block)
    (hf : ∀ x, f x = x.drainScan bank) : b.fallsNow f = true := by
  unfold Block.fallsNow
  rw [hf, Block.drainScan_stalled _ (by exact h)]; rfl

end Sys2Proof.Machine
end

