-- ==== Sys2Proof/Laws/Step.lean ====
section
/-! SUPPORT. What every meaning does to the state, said once. -/

namespace Sys2Proof.Machine

open Sys2Proof

/-- Every meaning answers a next state, and changes nothing but the block. -/
theorem exec_answers (c : Instr) (s : State) : ∃ b, exec c s = .next { s with blk := b } := by
  cases c <;> exact State.answer_next _ _ _

theorem step_nil (b : Block) : step { pending := [], blk := b } = .next { pending := [], blk := b.idle } := rfl

/-! The state after a command. -/

@[simp] theorem State.becomes_blk (s : State) (b : Block) : (s.becomes b).blk = b := rfl

@[simp] theorem State.becomes_pending (s : State) (b : Block) : (s.becomes b).pending = s.pending := rfl

/-! Limits (R26) and work that meets a wipe (R155). -/

/-- A limit whose awaited event is not visible has its effect. -/
theorem State.limit_falls (s : State) (t : Nat) (b : Block) : s.limit false t b = b := rfl

/-- A limit whose awaited event is visible at the same edge does nothing. -/
theorem State.limit_loses (s : State) (t : Nat) (b : Block) : s.limit true t b = s.blk.at t := rfl

/-- An engine's work that meets no wipe falls. -/
theorem Block.unlessWiped_falls {b : Block} {f : Block → Block} (h : b.fallsNow f = true) : b.unlessWiped f = f b.unstalled := by
  unfold Block.fallsNow Block.unstalled at h
  unfold Block.unlessWiped Block.unstalled
  simp only [Bool.not_eq_eq_eq_not, Bool.not_true] at h
  simp [h]

/-- One that meets a wipe waits. -/
theorem Block.unlessWiped_waits {b : Block} {f : Block → Block} (h : b.fallsNow f = false) : b.unlessWiped f = b.unstalled := by
  unfold Block.fallsNow Block.unstalled at h
  unfold Block.unlessWiped Block.unstalled
  simp only [Bool.not_eq_eq_eq_not, Bool.not_false] at h
  simp [h]

@[simp] theorem Block.unstalled_reg (b : Block) (k : Nat) : b.unstalled.reg k = b.reg k := rfl

@[simp] theorem Block.unstalled_clk (b : Block) : b.unstalled.clk = b.clk := rfl

@[simp] theorem Block.unstalled_ctx (b : Block) : b.unstalled.ctx = b.ctx := rfl

@[simp] theorem Block.unstalled_rgn (b : Block) : b.unstalled.rgn = b.rgn := rfl

@[simp] theorem Block.unstalled_disp (b : Block) : b.unstalled.disp = b.disp := rfl

@[simp] theorem Block.unstalled_mig (b : Block) : b.unstalled.mig = b.mig := rfl

@[simp] theorem Block.unstalled_net (b : Block) : b.unstalled.net = b.net := rfl

@[simp] theorem Block.unstalled_link (b : Block) : b.unstalled.link = b.link := rfl

@[simp] theorem Block.unstalled_ledger (b : Block) : b.unstalled.ledger = b.ledger := rfl

@[simp] theorem Block.unstalled_runAt (b : Block) (x : Nat) : b.unstalled.runAt x = b.runAt x := rfl

@[simp] theorem Block.unstalled_served (b : Block) : b.unstalled.served = b.served := rfl

@[simp] theorem Block.unstalled_clocked (b : Block) : b.unstalled.clocked = b.clocked := rfl

@[simp] theorem Block.unstalled_clock (b : Block) : b.unstalled.clock = b.clock := rfl

end Sys2Proof.Machine
end

