-- ==== Sys2Proof/Tests/Slice0.lean ====
section
/-! SUPPORT. Tests: ill-formed commands are refused by their checks; states that meet the hypotheses of the statements; and small
commands whose results the manual gives. -/

namespace Sys2Proof.Tests

open Sys2Proof Sys2Proof.Machine

set_option Elab.async false

/-! States for the tests. -/

/-- A block that is clocked and serves its dictionary. -/
def on : Block := { clk := { mode := .run } }

/-- The same with some registers at values of their own. -/
def withRegs (l : List (Nat × Nat)) : Block := { on with regs := l }

/-- A state with nothing waiting. -/
def st (b : Block) : State := { pending := [], blk := b }

/-- Whether the check refuses a command. -/
def illFormed (c : Instr) : Bool := !c.wf

/-- The value of a register after a command. -/
def regAfter (c : Instr) (b : Block) (k : Nat) : Option Nat :=
  match exec c (st b) with
  | .next u => some (u.blk.reg k)
  | _ => none

/-! Witnesses: a state and operands that meet the hypotheses of each clause. -/

theorem witness_ContextOrdersComplete :
    let h := withRegs [(Reg.mode 0, 1)]
    wfRegion 255 = true ∧ wfSlot 15 = true ∧ on.clocked = true ∧ Who.scarab ≠ Who.host ∧ [0, 255].all wfRegion = true ∧
    h.served = true ∧ (h.writePlain [(Reg.cmdSlot 255, 15), (Reg.cmdSrc 255, libBase), (Reg.cmdKernel 255, 7), (Reg.cmdImage 255, 1),
      (Reg.cmdBorderSig 255, 5)]).1 = 0 ∧
    (h.writePlain [(Reg.cmdSlot 255, 15), (Reg.cmdFromRegion 255, 254), (Reg.cmdFromSlot 255, 0)]).1 = 0 ∧
    [1, 2, 3, 4, 5].all (fun v => Abort.first (h.cmdChecks (Reg.cmdOp 255) v 255) == 0) = true := by decide +kernel

/-- A block with an operation on an engine of die 0. -/
def engine (kind : CtxKind) : Block :=
  { on with ctx := { running := [(0, [{ kind := kind, who := .host, region := 3, phys := on.phys 3, slot := 2 }])] } }

/-- A block whose layer 2 is fenced by a die-level reset. -/
def fencedAll (b : Block) : Block :=
  { b with clk := { b.clk with dieReset := some { layer := 2, step := .draining, fenceAt := 0, stepAt := 0 } } }

theorem witness_ContextEnginesComplete :
    let op : CtxOp := { kind := .load, who := .host, region := 3, phys := on.phys 3, slot := 2 }
    let q : Block := { on with ctx := { engineQueue := [(1, [op])] } }
    (st on).blk.at 0 = on ∧ q.clocked = true ∧ wfDie 1 = true ∧ q.ctx.engineQueue.look 1 = [op] ∧
    (q.ctx.running.look 1).length < q.enginesUp 1 ∧ q.ctxFenced op = false ∧ q.waitsWriteBack op = false ∧ q.orderWaits op = false ∧
    (fencedAll q).ctxFenced op = true ∧ (fencedAll q).ctx.engineQueue.look 1 = [op] ∧
    ((engine .load).runningOp .load 3 2).isSome = true ∧ ((engine .clear).runningOp .clear 3 2).isSome = true ∧
    ((engine .copy).runningOp .copy 3 2).isSome = true ∧
    ({ on with ctx := { prefetch := [(on.phys 3, some op)] } }.ctx.prefetch.look (on.phys 3)).isSome = true ∧
    ({ on with ctx := { writeBack := [(on.phys 3, some 0)] } }.ctx.writeBack.look (on.phys 3)).isSome = true := by decide +kernel

/-- A block at an edge of the fabric clock that has just been taken, at clock count 0. -/
def atEdge (b : Block) : Block := { b with clk := { b.clk with fabricOn := true, lastEdge := some 0 } }

theorem witness_CaptureAndMapsComplete :
    let h := withRegs [(Reg.mode 0, 1)]
    let due := atEdge { on with ctx := { captureDue := [(9, true)] }, rgn := { frozenEdge := [(9, some 0)] } }
    h.served = true ∧ (h.writeCaptureReq 9 1).1 = 0 ∧ h.beingRetired 9 = false ∧ h.reg (Reg.powerState 9) ≠ 3 ∧ h.fenced (ctxPath (dieOf 9)) = false ∧
    due.captureDueNow 9 = true ∧
    { on with ctx := { captureTaken := [(9, some (1, 2, 3))] } }.ctx.captureTaken.look 9 = some (1, 2, 3) ∧
    (h.writePinMask 9 0xFFFF).1 = 0 ∧ (h.writeBorderMap 9 15 0).1 = 0 ∧ (h.writeRegionReset 9 1).1 = 0 := by decide +kernel

/-- A started block at run time `n`. -/
def started (n : Nat) (l : List (Nat × Nat)) : Block :=
  { regs := (Reg.cfgState, 3) :: l, clk := { mode := .run, now := n } }

theorem witness_RegionPowerCompletes :
    let late := started (ms 10000) []
    (atEdge on).fabricEdgeAt 0 = false ∧ { on with clk := { on.clk with fabricOn := true } }.fabricEdgeAt 0 = true ∧
    late.napDue 255 = true ∧ late.sleepDue 255 = true ∧
    { started (us 20) [(Reg.powerState 255, 3)] with rgn := { regionWake := [(255, some 0)] } }.wakeEndDue 255 = true ∧
    { started (us 2) [(Reg.powerState 0, 2)] with rgn := { regionWake := [(0, some 0)] } }.wakeEndDue 0 = true := by decide +kernel

/-- A cell record with its parities and its seal. -/
def sealedRecord (data : Nat) : Nat :=
  let r := data + 2 ^ 254 + 2 ^ 255
  r + ((List.range 14).map (fun j => b2n (rowParity r j) * 2 ^ (224 + j))).sum +
    ((List.range 16).map (fun c => b2n (colParity r c) * 2 ^ (238 + c))).sum

theorem witness_RecordMends : recordLoads (sealedRecord 0xDEADBEEFCAFEF00D) = true ∧ 253 < 254 := by decide +kernel

theorem witness_CellComputes : ([] : List (Nat × Nat × Node)).contains (0, 0, .x1) = false ∧
    (on.activeRec 0 0).testBit 184 = false ∧
    ((on.ceSr 0 0).1.after tImux).unfit on.clk.fabricDiv = false ∧ ((on.ceSr 0 0).2.after tImux).unfit on.clk.fabricDiv = false ∧
    (on.dInput 0 0 1).unfit on.clk.fabricDiv = false := by decide +kernel

theorem witness_MemoryCommandsComplete :
    let wiping : Block := { on with mem := { wipe := some (true, 32767) } }
    (on.writeShootdown 1).1 = 0 ∧ wfBank 127 = true ∧ (on.wipeCommand 127).1 = 0 ∧ wfFrame 32767 = true ∧
    (on.wipeCommand (2 ^ 31 + 32767)).1 = 0 ∧ wiping.mem.wipe.isSome = true ∧
    on.patrolFree = true ∧
    (let b := withRegs [(Reg.repair 127, 2 ^ 14 + 78)]
     (b.reg (Reg.repair 127)).testBit 14 = true ∧ (b.reg (Reg.repair 127)).testBit 15 = false ∧ b.bankRetired 127 = false) ∧
    (on.writeRetireBank 127).1 = 0 ∧ on.reg (Reg.bankState 127) ≠ 2 ∧
    (on.writeCounterClear 127 1).1 = 0 ∧ on.reg (Reg.bankState 127) = 0 ∧
    { started (ms 100000) [(Reg.bankState 127, 2)] with mig := { scanClean := [127] } }.retireDue 127 = true := by decide +kernel

theorem witness_RingsComplete :
    let b := withRegs [(Reg.enable 31, 1)]
    let full : Block := { b with disp := { rings := [(31, { prod := 1 })] } }
    let done : Block := { b with disp := { runs := [(16383, { state := .ending, done := some (0, 0), desc := 0 })] } }
    wfRing 31 = true ∧ b.clocked = true ∧ b.reg (Reg.enable 31) ≠ 0 ∧
    (let x := b.ring 31
     let n := 2 ^ b.reg (Reg.sqLog2 31)
     advanceRefused n x.prod 1 ((x.cons + n - x.prod % n + n - 1) % n) = false ∧
     advanceRefused (2 ^ b.reg (Reg.cqLog2 31)) x.cqCons 0 0 = false) ∧
    (full.servant (full.reg (Reg.intakeScarab 31))).isSome = true ∧ (full.ring 31).cons ≠ (full.ring 31).prod ∧
    full.freeEntry.isSome = true ∧ full.fallsNow (·.intake 31) = true ∧ wfRun 16383 = true ∧ (done.runAt 16383).state = .ending ∧
    done.fallsNow (·.completionRecord 16383) = true ∧ done.reg (Reg.enable (done.runAt 16383).cring) ≠ 1 ∧
    done.reg (Reg.enable (done.runAt 16383).ring) ≠ 1 ∧
    (let c : Block := { done with regs := (withRegs [(Reg.enable 0, 1)]).regs }
     c.fallsNow (·.completionRecord 16383) = true ∧ c.reg (Reg.enable (c.runAt 16383).cring) = 1) ∧
    (let c : Block := { done with disp := { runs := [(16383, { state := .ending, done := some (0, 0), ring := 31 })] } }
     c.fallsNow (·.completionRecord 16383) = true ∧ c.reg (Reg.enable (c.runAt 16383).cring) ≠ 1 ∧
     c.reg (Reg.enable (c.runAt 16383).ring) = 1) ∧ on.clock % tick = 0 := by decide +kernel

theorem witness_IntakePauses :
    let b : Block := { withRegs [(Reg.enable 31, 1)] with disp := { rings := [(31, { prod := 1 })] } }
    (b.servant (b.reg (Reg.intakeScarab 31))).isSome = true ∧ b.reg (Reg.enable 31) ≠ 0 ∧ (b.ring 31).cons ≠ (b.ring 31).prod ∧
    b.freeEntry = some 0 := by decide +kernel

/-! A run table with no free entry. -/

theorem get_range {α : Type} (d : Nat → α) (v : α) (n s k : Nat) (h : s ≤ k) (h' : k < s + n) :
    SMap.get d ((List.range' s n).map (fun i => (i, v))) k = v := by
  induction n generalizing s with
  | zero => omega
  | succ n ih =>
    simp only [List.range'_succ, List.map_cons, SMap.get]
    split
    · rfl
    · exact ih (s + 1) (by omega) (by omega)

/-- A block whose first `n` run table entries are held, with an entry in ring 31 to be taken. -/
def heldRuns (n : Nat) : Block :=
  { withRegs [(Reg.enable 31, 1)] with
    disp := { rings := [(31, { prod := 1 })], runs := (List.range' 0 n).map (fun i => (i, { state := .ready })) } }

theorem heldRuns_ready (n x : Nat) (h : x < n) : (heldRuns n).runAt x = { state := .ready } :=
  get_range (fun _ => ({} : Run)) ({ state := .ready } : Run) n 0 x (by omega) (by omega)

theorem witness_IntakePauses_full : (heldRuns 16384).freeEntry = none ∧ (heldRuns 16384).disp.paused.contains 31 = false := by
  refine ⟨?_, rfl⟩
  unfold Block.freeEntry
  rw [List.find?_eq_none]
  intro x hx
  have : x < 16384 := by
    have := List.mem_range.mp hx
    omega
  rw [heldRuns_ready _ _ this]
  decide

/-- A block with run 7 in a region, its state as given. -/
def holding (r : Run) : Block :=
  { withRegs [(Reg.run 0, 7), (Reg.spanAnchor 0, 0)] with disp := { runs := [(7, r)] } }

/-- A block with run 7 in region 0, whose design presents a DONE_WORD at the edge just taken. -/
def presenting (r : Run) (w : Nat) : Block :=
  atEdge { holding r with rgn := { edgeAt := [(0, some 0)], fb := [(0, 2 ^ 869 + w * 2 ^ 870)] } }

theorem witness_RingsComplete_ends :
    let b (w : Nat) := presenting { state := .running, set := [0] } w
    let e := holding { state := .running, done := some (0, 5), set := [0] }
    [0, 2 ^ 24, 2 ^ 25].all (fun w => (b w).donePresented 0 w) = true ∧ (b 0).runOf 0 = some 7 ∧ (b 0).reg (Reg.spanAnchor 0) = 0 ∧
    (b 0).bridgeOff 0 = false ∧ (b 0).fenced (riserPath (dieOf 0)) = false ∧ (b 0).riserGone 0 = false ∧
    ((b 0).runAt 7).done = none ∧ ((b 0).runAt 7).retiring = none ∧ doneAsk 0 = .finish 0 ∧ doneAsk (2 ^ 24) = .yield ∧
    ((b 0).runAt 7).state ≠ .preempting ∧ doneAsk (2 ^ 25) = .phase 0 ∧ 0 < kPhases ((b 0).kernelDesc 0 0).2.1 ∧
    doneAsk (2 ^ 25 + 15 * 2 ^ 16) = .phase 15 ∧ kPhases ((b 0).kernelDesc 0 0).2.1 ≤ 15 ∧
    (e.runAt 7).done = some (0, 5) ∧ (e.runAt 7).active? = true ∧ e.drained 7 = true := by decide +kernel

/-- Run 7 at priority 3 holding region 0, its kernel preemptible, and run 9 at priority 0, which has reserved the region. -/
def wanted (staging : Bool) : Block :=
  let lesser : Run := { state := .running, set := [0], desc := 3 * 2 ^ 16 }
  { holding lesser with
    disp := { runs := [(7, lesser), (9, { state := .ready, set := [0], slots := [2], staging })], reserved := [⟨9, [0]⟩],
              scarabs := [(0, { cache := [{ kernel := 0, desc := some 2 }] })] },
    regs := (withRegs [(Reg.run 0, 7), (Reg.shadowState 0, 2), (Reg.shadowSlot 0, 2)]).regs }

theorem witness_PlacementCompletes :
    let starting := atEdge { holding { state := .starting, set := [0], slots := [3] } with
      regs := (withRegs [(Reg.shadowState 0, 2), (Reg.shadowSlot 0, 3), (Reg.powerState 0, 0)]).regs
      rgn := { heldEdge := [(0, some 0)] } }
    let switching := atEdge { withRegs [(Reg.shadowState 0, 2), (Reg.powerState 0, 0)] with
      ctx := { switches := [{ regions := [0], who := .host, run := none }] }, rgn := { heldEdge := [(0, some 0)] } }
    wfScarab 31 = true ∧ on.scarabRuns 31 = true ∧ on.fallsNow (·.evaluate 31) = true ∧ (started 0 []).started = true ∧
    on.fallsNow (·.reserve on 31 7) = true ∧ 7 < 8 ∧
    wfRun 7 = true ∧ starting.startTaken 7 = true ∧ switching.switchTaken 0 = true ∧
    ((switching.switchOf 0).map (·.run)) = some none := by decide +kernel

/-- A phase change of run 7 whose switch edge has come. -/
def changing : Block :=
  atEdge { holding { state := .switching, set := [0], slots := [1], nextSlots := [3], nextPhase := 1 } with
    regs := (withRegs [(Reg.run 0, 7), (Reg.shadowState 0, 2), (Reg.shadowSlot 0, 3), (Reg.powerState 0, 0)]).regs
    rgn := { heldEdge := [(0, some 0)] } }

theorem witness_PlacementCompletes_phase : changing.switchTaken 0 = true ∧ ((changing.switchOf 0).map (·.run)) = some (some 7) := by
  decide +kernel

theorem witness_PlacementCompletes_preemption :
    (let b := holding { state := .preempting, yielded := true, set := [0] }
     (b.runAt 7).state = .preempting ∧ (b.runAt 7).done = none ∧ (b.runAt 7).retiring = none ∧ b.drained 7 = true ∧
     (b.runAt 7).yielded = true ∧ b.fallsNow (·.preemption 7) = true) ∧
    (let b := holding { state := .preempting, hostPreempt := true, set := [0] }
     b.fallsNow (·.preemption 7) = true ∧
     (((b.unstalled.park 7 false).count Reg.preemptions 1).refreshBorders).disp.hcmd = none) ∧
    (let b := wanted false
     (b.runAt 7).state = .running ∧ b.clock % tick = 0 ∧ b.fmode fnPlacement = 0 ∧
     b.unstalled.reservationOver 7 = some ⟨9, [0]⟩ ∧ b.unstalled.servant (b.unstalled.runAt 9).home = some 0 ∧
     b.unstalled.qualifies 0 7 9 = true ∧ b.fallsNow (·.preemption 7) = true ∧ (b.runAt 9).state = .ready ∧
     (b.runAt 9).staging = false) ∧
    (let b := wanted true
     b.fallsNow (·.preemption 7) = true ∧ (b.runAt 9).staging = true ∧ (b.runAt 9).set = [0] ∧ b.unstalled.staged 9 = true) := by
  decide +kernel

theorem witness_PlacementCompletes_restage :
    let b : Block := { wanted true with regs := (withRegs [(Reg.run 0, 7)]).regs }
    b.fallsNow (·.preemption 7) = true ∧ (b.runAt 9).staging = true ∧ b.unstalled.staged 9 = false ∧
    b.unstalled.staging 0 = false := by decide +kernel

theorem witness_PlacementCompletes_cancel :
    (let b : Block := { started (ms 1000) [] with disp := { runs := [(7, { state := .preempting, hostPreempt := true })] } }
     (b.runAt 7).preemptor = none ∧ b.cancelDue 7 = true ∧ b.hostLate 7 = false) ∧
    (let b : Block := { started (ms 1000) [] with disp := { runs := [(7, { state := .preempting, hostPreempt := true })],
                                                            hcmd := some { kind := 3, run := 7, target := 0, since := 0 } } }
     b.hostLate 7 = true) ∧
    (let b : Block := { started (ms 1000) [] with
       disp := { runs := [(7, { state := .preempting, preemptor := some 9 }), (9, { state := .starting })] } }
     (b.runAt 7).preemptor = some 9 ∧ b.cancelDue 7 = true ∧ b.hostLate 7 = false) := by decide +kernel

/-- With nothing else waiting no event is visible at a limit's edge. -/
theorem settle_nothing (b : Block) (ev : Instr → Option (State → Host.Outcome State Fault Refusal)) : (st b).settle ev = st b := rfl

theorem witness_limits (b : Block) (t l u : Nat) (via : Via) :
    (st b).leaveWon l t = false ∧ (st b).stageWon l t = false ∧ (st b).orderWon l t = false ∧ (st b).ackWon l t = false ∧
    (st b).heardWon l t = false ∧ (st b).lightWon l t = false ∧ (st b).timeWon t = false ∧ (st b).switchWon l t = false ∧
    (st b).byteWon t = false ∧ (st b).messageWon via t = false ∧ (st b).responseWon via t = false ∧ (st b).repliesWon t = false ∧
    (st b).grantWon l u = false ∧ (st b).bondWon l u t = false := by
  refine ⟨?_, ?_, ?_, ?_, ?_, ?_, ?_, ?_, ?_, ?_, ?_, ?_, ?_, ?_⟩
  · simp only [State.leaveWon, settle_nothing]; cases (st b).blk.at t |>.cancelDue l <;> cases (st b).blk.at t |>.hostLate l <;> rfl
  · simp [State.stageWon, settle_nothing]
  · simp [State.orderWon, settle_nothing]
  · simp [State.ackWon, settle_nothing]
  · simp [State.heardWon, settle_nothing]
  · simp [State.lightWon, settle_nothing]
    intro h x hx; simp [h x hx]
  · simp [State.timeWon, settle_nothing]
  · simp [State.switchWon, settle_nothing]; intro h; simp [h]
  · simp [State.byteWon, settle_nothing]
  · simp [State.messageWon, settle_nothing]; cases (st b).blk.xfer via <;> simp
  · simp [State.responseWon, settle_nothing]
  · simp [State.repliesWon, settle_nothing]; cases (st b).blk.commit.run <;> simp
  · simp [State.grantWon, st]
    exact fun h => h
  · simp [State.bondWon, settle_nothing]

theorem witness_ScarabCommandsComplete :
    let host := { withRegs [(Reg.mode 0, 1)] with disp := { runs := [(7, { state := .ready })] } }
    let parked := { withRegs [(Reg.mode 0, 1)] with disp := { runs := [(7, { state := .preempted, anchor := 3 })] } }
    let drained := withRegs [(Reg.scarabState 31, 1)]
    let stopped := withRegs [(Reg.scarabState 31, 2)]
    let trapping := withRegs [(Reg.scarabState 31, 1)]
    wfRun 7 = true ∧ (host.writeRunAbort 7).1 = 0 ∧
    (let b := holding { state := .preempted, retiring := some Status.retired }
     (b.runAt 7).retiring = some Status.retired ∧ (b.runAt 7).state = .preempted ∧ (b.runAt 7).done = none) ∧
    (let b := holding { state := .running, retiring := some Status.seamFence, done := some (Status.abortedByHost, 0), set := [0] }
     b.draining = false ∧ (b.runAt 7).active? = true ∧ b.drained 7 = true) ∧
    parked.fallsNow (·.host (·.hostCmd 1 7 0)) = true ∧ host.fallsNow (·.host (·.hostCmd 3 7 0)) = true ∧
    on.clock % tick = 0 ∧ (withRegs [(Reg.stealRadius, 1)]).isThief 31 = true ∧
    on.reg (Reg.scarabState 31) ≤ 1 ∧ trapping.reg (Reg.scarabState 31) ≤ 1 ∧ (on.writeControl 31 1).1 = 0 ∧
    drained.haltDue 31 = true ∧ (stopped.writeControl 31 2).1 = 0 ∧ (on.writeKernelUpdate 4095).1 = 0 ∧
    (on.writeProposalPop 1).1 = 0 ∧ (parked.unstalled.hostCmd 1 7 0).1 = 0 ∧ (host.hostCmd 2 7 31).1 = 0 ∧
    (host.unstalled.hostCmd 3 7 0).1 = 0 := by
  decide +kernel

theorem witness_BridgeCompletes :
    let held : Block := atEdge { on with rgn := { tags := [(63, { done := some (0, 5) })], edgeAt := [(0, some 0)] } }
    let w := 63 * 2 ^ 602 + 2 ^ 601 + (2 ^ 24 - 1) * 2 ^ 576 + 15 * 2 ^ 512 + 7
    let out : Block := { on with rgn := { outDone := [(0, some (1, [0, 5]))] } }
    wfTag 63 = true ∧ 2 ^ 24 - 1 < 2 ^ 24 ∧
    { on with rgn := { passed := [(0, [w])] } }.rgn.passed.look 0 = [w] ∧
    wireRequest 0 w = ⟨0, 63, true, 2 ^ 24 - 1, (15 : BitVec 64).toNat, (7 : BitVec 512).toNat⟩ ∧ on.tagBusy 0 63 = false ∧
    { on with rgn := { tags := [(63, { isOpen := true })] } }.tagBusy 0 63 = true ∧
    (held.tagAt 0 63).done = some (0, 5) ∧ held.clk.lastEdge = some held.clock ∧ held.rgn.edgeAt.look 0 = some held.clock ∧
    held.rgn.frozenEdge.look 0 ≠ some held.clock ∧ (held.rgn.bf.look 0).testBit 512 = false ∧ wfChannel 1 = true ∧
    out.rgn.outDone.look 0 = some (1, [(0 : BitVec 256), 5].map (·.toNat)) ∧ out.streamTag 0 = true ∧ on.delivers 1 0 = true ∧
    ({ on with rgn := { inPacket := [(0, some { sb := 5, beats := [1], poison := false, taken := 1 })] } }.rgn.inPacket.look 0).isSome =
      true := by decide +kernel

/-- A migration ready to start, and one under way. -/
def readyMove : MigReady := { scarab := 31, reason := .hot, entry := 64, value := 1, node := 0, die := 1 }

theorem witness_MigrationCompletes :
    let moving : Block := { started (ms 1000) [(Reg.mslotState 31, 3)] with
      mig := { jobs := [(31, some { ready := readyMove, value := 1 })] } }
    let epoch : Block := { clk := { mode := .run, now := 64000 * 28800 } }
    let pooled : Block := { on with mig := { pool := [32767] } }
    wfScarab 31 = true ∧ wfDie 1 = true ∧ epoch.epochDue = true ∧ wfFrame 32767 = true ∧
    (on.poolCommand 32767 1).1 = 0 ∧ (pooled.poolCommand 32767 2).1 = 0 ∧ (on.writePropPop 1).1 = 0 ∧
    ({ on with mig := { ready := [readyMove] } }.nextReady 31).isSome = true ∧ on.freeSlot.isSome = true ∧
    wfMig 31 = true ∧ (moving.jobAt 31).isSome = true ∧ moving.reg (Reg.mslotState 31) ≠ 0 ∧ moving.reg (Reg.mslotState 31) < 8 ∧
    moving.migLimitDue 31 = true ∧ (moving.writeHmigCancel 31).1 = 0 ∧ (on.unstalled.writeHmigGo 1).1 = 0 ∧
    on.fallsNow (·.host (·.writeHmigGo 1)) = true ∧ { on with mig := { ready := [readyMove] } }.fallsNow (·.migrationStart 31) = true ∧
    moving.fallsNow (·.abandon 31 Status.timeout) = true ∧ ({ moving with regs := (started (ms 1000) [(Reg.mslotState 31, 8)]).regs } : Block).fallsNow (·.stepDone 31) = true ∧
    (withRegs [(Reg.bankState 127, 2)]).reg (Reg.bankState 127) = 2 := by decide +kernel

theorem witness_MigrationCompletes_scan : (withRegs [(Reg.bankState 127, 2)]).fallsNow (·.drainScan 127) = true :=
  Block.fallsNow_drainScan _ 127 rfl _ (fun _ => rfl)

/-- A flit of the response network with an operation and a destination. -/
def rsp (op dst : Nat) : Nat := putBits (putBits 0 63 60 op) 55 47 dst

/-- A REQ flit of an operation for tap 0. -/
def req (op : Nat) : Nat := putBits (putBits 0 127 124 op) 89 86 7

/-- A header of a DAT packet of a kind, for tap 0. -/
def dat (kind : Nat) : Nat := putBits (putBits 0 27 26 kind) 56 53 7

theorem witness_ArrivalsComplete :
    (List.range 3).all (fun op => rOp (rsp op 0) == op && on.reqComes op (req op) && on.datComes op (dat op) 64 && on.delivers 2 (rsp op 0)) = true ∧
    on.delivers 2 (rsp 3 368) = true ∧
    rOp (rsp 3 368) = 3 ∧ rDst (rsp 3 368) = 368 ∧ rsp 3 368 < 2 ^ 64 ∧ req 2 < 2 ^ 128 ∧ dat 2 < 2 ^ 128 ∧
    wfInitiator 368 = true ∧ 2 ^ 64 - 1 < 2 ^ 64 := by decide +kernel

theorem witness_SnoopCompletes :
    let adding : Block := { on with mig := { adding := some 32767 } }
    let quiet : Block := { clk := { mode := .run, now := ms 1 } }
    [1, 2, 3, 4, 8, 9, 10, 11, 12, 32, 33, 34].all (fun op => sOp (putBits 0 63 58 op) == op &&
      on.net.noc.inTurn 3 (putBits 0 63 58 op) && on.delivers 3 (putBits 0 63 58 op)) = true ∧
    putBits 0 63 58 34 < 2 ^ 64 ∧ adding.mig.adding = some 32767 ∧ adding.reg (Reg.bankState (bankOfFrame 32767)) = 0 ∧
    wfStation 63 = true ∧ wfNet 3 = true ∧ (withRegs [(Reg.stationGateNs, 64)]).clocked = true ∧
    (quiet.setReg Reg.stationGateNs 64).gateDue 63 = true ∧ (on.writeStatsClear 1).1 = 0 := by decide +kernel

theorem witness_LateCompletion : wfInitiator 369 = true ∧ 1023 < 1024 ∧ (on.ledgerAt 369 1023).state ≠ .opened ∧
    on.reg Reg.logMinSeverity ≤ 1 ∧ 1 < (withRegs [(Reg.logMinSeverity, 2)]).reg Reg.logMinSeverity := by decide +kernel

theorem witness_CauseOrder : [6, 9, 8] ≠ [] ∧ ∀ c ∈ [6, 9, 8], c ∈ [8, 5, 4, 3, 9, 6] := by decide

theorem witness_DmaCompletes :
    let ring := withRegs [(Reg.dmaEnable 15, 1)]
    let ready : Block := { withRegs [(Reg.dmaEnable 15, 1), (Reg.dmaRingBase 15, 2 ^ 33)] with mem := { dma := [(15, { prodRd := 1 })] } }
    let busy : Block := { ring with mem := { dma := [(15, { job := some { index := 0, desc := 0, ring := 2 ^ 33, stopped := [(0, 4)] } })] } }
    wfDma 15 = true ∧ ring.reg (Reg.dmaEnable 15) ≠ 0 ∧
    (let x := ring.dmaAt 15
     let n := ring.dmaSize 15
     advanceRefused n x.prodRd (n - 1) ((x.cons + n - x.prodRd % n + n - 1) % n) = false) ∧
    ready.dmaTakes 15 = true ∧ ready.fallsNow (·.takeDescriptor 15) = true ∧ busy.fallsNow (·.descriptorEnd 15) = true ∧ ((busy.dmaAt 15).job.map DmaJob.over) = some true ∧
    ((withRegs [(Reg.dmaState 15, 2)]).writeDmaCmd 15 1).1 = 0 ∧ ((withRegs [(Reg.dmaState 15, 1)]).writeDmaCmd 15 2).1 = 0 ∧
    (on.writeDmaCmd 15 3).1 = 0 ∧ (on.writeDmaEnable 15 1).1 = 0 := by decide +kernel

theorem witness_MailboxCompletes :
    let busy : Block := { on with lmp := { mbox := [(63, { busy := true, answer := some (List.replicate 8 0) })] } }
    wfInitiator 368 = true ∧ wfMbox 63 = true ∧ mboxWriter 31 368 = true ∧ mboxWriter 63 256 = true ∧
    (on.mboxAt 31).busy = false ∧ (on.mboxAt 31).ready = false ∧ 8 ≤ 8 ∧ 4096 ≤ 4096 ∧ (busy.mboxAt 63).busy = true ∧
    busy.served = true ∧ (busy.mboxAt 63).answer = some (List.replicate 8 0) ∧ (busy.mboxAt 63).ready = false := by decide +kernel

/-! Lanes and links: link 504 is the only link of octet 63, and lane 511 its last. -/

/-- Octet 63 with one link of eight lanes, its lanes and the link in states as given, at run time `n`. -/
def octet (n lane link : Nat) (l : List (Nat × Nat)) : Block :=
  started n (l ++ (Reg.linkLayout 63, 1) :: (Reg.linkState 504, link) :: ((List.range 8).map (fun i => (Reg.laneState (504 + i), lane))) ++
    ((List.range 8).map (fun i => (Reg.laneEn (504 + i), 1))))

/-- The same with what lane 511 keeps. -/
def laneHas (b : Block) (x : LaneRun) : Block := { b with link := { b.link with lanes := [(511, x)] } }

/-- The same with what link 504 keeps. -/
def linkHas (b : Block) (x : LinkRun) : Block := { b with link := { b.link with runs := [(504, x)] } }

theorem witness_LaneStagesComplete :
    let at' (s : Nat) : Block := octet (us 1) s kDown []
    wfLane 511 = true ∧ wfLink 504 = true ∧ (at' lDetect).inStage 511 lDetect = true ∧ (at' lDetect).steadyFor 511 = true ∧
    (at' lEq).inStage 511 lEq = true ∧ (at' lCdr).inStage 511 lCdr = true ∧ (at' lCdr).steadyFor 511 = true ∧ (at' lAlign).inStage 511 lAlign = true ∧
    (let c := BitVec.ofNat 130 (comma ^^^ invertPattern ((at' lAlign).reg (Reg.rate 511)))
     alignedBy ((at' lAlign).reg (Reg.rate 511)) [⟨0, c⟩, ⟨140750, c ^^^ 15⟩, ⟨281800, c⟩] = some true) ∧ (at' lPolarity).inStage 511 lPolarity = true ∧
    (at' lDeskew).startsLink 504 = true ∧ ((at' lDeskew).enabledLanes 504).all (at' lDeskew).orderKnown = true ∧
    (at' lDeskew).linkWidth 504 = 8 ∧ ((at' lDeskew).lanesOf 504).any (fun l => (at' lDeskew).inStage l lDeskew) = true ∧
    (let b := laneHas (at' lFec) { goodWords := 3 }
     b.inStage 511 lFec = true ∧ (b.laneAt 511).locked = false ∧ 3 ≤ (b.laneAt 511).goodWords) ∧
    (let b := octet (ms 100) lFec kDown []
     1 ≤ b.laneState 511 ∧ b.laneState 511 ≤ 8 ∧ b.stageAge 511 (us (b.reg Reg.stageLimitUs)) = true) ∧
    (at' lUp).laneAligned 511 = true ∧ ((at' lUp).laneAt 511).framed = false ∧ ((at' lUp).laneAt 511).skip = 0 ∧
    ((at' lUp).laneAt 511).marked = false ∧ ((laneHas (at' lUp) { skip := 2 }).laneAt 511).skip ≠ 0 ∧ badBlock 3 0 = true ∧ badBlock 1 0 = false ∧ ((at' lUp).writeEyeGo 511 1).1 = 0 ∧
    (laneHas (octet (ms 100) lUp kActive []) { eye := some ⟨0, 0, 0, 10, 0⟩ }).eyeDue 511 = true ∧
    (at' lTest).laneState 511 = lTest ∧ (at' lTest).reg (Reg.testLock 511) = 0 ∧
    (octet 0 lTest kDown [(Reg.testLock 511, 1)]).reg (Reg.testLock 511) = 1 := by decide +kernel

/-- Octet 63 with lane 511 passing its FEC and every other lane UP. -/
def nearlyUp : Block :=
  { octet (us 100) lUp kActive [(Reg.laneState 511, lFec)] with
    link := { lanes := [(511, { locked := true, partnerLocked := true })] } }

theorem witness_LaneLinkEventsComplete :
    let up := octet 0 lUp kActive []
    up.linkOf 511 = 504 ∧ up.startsLink 504 = true ∧ (nearlyUp.settleLink 504).laneUpDue 511 = true ∧
    (List.replicate 544 1023).length = 544 ∧ (List.replicate 544 1023).all (fun y => decide (y < 1024)) = true ∧
    (up.settleLink 504).laneAligned 511 = true ∧ (up.settleLink 504).laneState 511 = lUp ∧
    ((up.settleLink 504).laneAt 511).marked = false ∧ ((octet 0 lCdr kDown []).settleLink 504).laneState 511 = 3 ∧
    ((octet 0 lTest kDown []).settleLink 504).laneState 511 = lTest ∧ ((octet 0 lDetect kDown []).settleLink 504).laneState 511 = lDetect ∧
    0 < (((linkHas (octet 0 lIdle kIdle []) { leaving := 1 }).settleLink 504).linkAt 504).leaving ∧
    ((octet 0 lUp kActive [(Reg.signal 511, 1)]).settleLink 504).reg (Reg.signal 511) = 1 ∧
    ((octet 0 lIdle kDown []).settleLink 504).laneState 511 = lIdle ∧ ((octet 0 lIdle kDown []).settleLink 504).linkState 504 ≠ kIdle ∧
    ((octet 0 lIdle kIdle []).settleLink 504).linkState 504 = kIdle ∧
    (((octet 0 lIdle kIdle []).settleLink 504).lanesOf 504).any
      (fun l => ((octet 0 lIdle kIdle []).settleLink 504).laneState l == lIdle) = true ∧
    (up.writeLaneEn 511 0).1 = 0 := by decide +kernel

theorem witness_LaneCommands :
    let host := octet 0 lUp kActive [(Reg.mode (fnTraining - 1), 1)]
    host.served = true ∧ (host.writeLaneCmd 511 1).1 = 0 ∧ (host.writeLaneCmd 511 2).1 = 0 ∧ (host.writeLaneCmd 511 3).1 = 0 ∧
    ((octet 0 lTest kDown [(Reg.mode (fnTraining - 1), 1)]).writeLaneCmd 511 4).1 = 0 := by decide +kernel

/-- A container of a virtual network and type, with its CRC and an empty payload. -/
def container (vn ty : Nat) : Nat :=
  let c := putBits (putBits 0 575 574 vn) 573 570 ty
  putBits c 543 512 (containerCrc c)

/-- The link ready for a container: a packet of each class is under way where one is asked for. -/
def active (w d : Bool) : Block :=
  linkHas (octet 0 lUp kActive []) { inW := if w then some { head := 0 } else none, inD := if d then some { head := 0 } else none }

/-- Whether a container meets the conditions of `ContainersComplete`. -/
def takes (b : Block) (c : Nat) (k : CKind) : Bool :=
  let b := b.settleLink 504
  cKind c == k && b.linkState 504 == kActive && !b.linkMarked 504 && cCrc c == containerCrc c && (b.linkAt 504).expect == cSeq c &&
    !(b.acceptContainer 504 c).protoError 504 c && decide (c < 2 ^ 576)

theorem witness_ContainersComplete :
    takes (active false false) (container 0 3) .req = true ∧ takes (active false false) (container 2 7) .rsp = true ∧
    takes (active false false) (container 2 15) .null = true ∧ takes (active false false) (container 3 0) .snpK = true ∧
    takes (active false false) (container 3 1) .snpA = true ∧ takes (active true false) (container 1 1) .mask = true ∧
    takes (active true false) (container 1 2) .dataW = true ∧ takes (active true false) (container 1 3) .dataWP = true ∧
    takes (active true false) (container 1 4) .abortW = true ∧ takes (active false false) (container 1 8) .headD = true ∧
    takes (active false true) (container 1 9) .dataD = true ∧ takes (active false true) (container 1 10) .dataDP = true ∧
    takes (active false true) (container 1 11) .tailD = true := by decide +kernel

/-- A HEAD_W container of a STREAM packet, whose REQ is not needed. -/
def headStream : Nat :=
  let c := putBits (putBits (putBits 0 575 574 1) 573 570 0) 27 26 2
  putBits c 543 512 (containerCrc c)

theorem witness_ContainersComplete_headW : takes (active false false) headStream .headW = true := by decide +kernel

/-- A control block of a type, with its CRC16. -/
def control (ty : Nat) : Nat := withCrc16 (putBits 0 127 120 ty)

theorem witness_ControlBlocksComplete :
    let up := octet 0 lUp kActive [(Reg.timeParent, 504)]
    ((up.settleLink 504).upLanes 504).isEmpty = false ∧
    [0x60, 0x61, 0x62, 0x63, 0x64, 0x65, 0x33, 0x66, 0x67, 0x68, 0x69].all (fun ty => crc16Ok (control ty) &&
      control ty &&& kReserved (kType (control ty)) == 0 && kType (control ty) == ty) = true ∧
    bitsOf (control 0x64) 119 118 ≠ 2 ∧ (up.settleLink 504).linkState 504 = kActive ∧ (up.settleLink 504).isParent 504 = true ∧
    ((linkHas (octet (ms 100) lUp kActive [(Reg.linkIdleUs 504, 100)]) { partnerUp := 255 }).settleLink 504).mayIdle 504 = true ∧
    [0x60, 0x62].all (fun ty => !(up.settleLink 504).controlMarked 504 ty) = true ∧
    (((linkHas up { idleAsked := true }).settleLink 504).linkAt 504).idleAsked = true := by decide +kernel

theorem witness_LinkTimersComplete :
    let late := linkHas (octet (ms 100) lUp kActive [(Reg.linkIdleUs 504, 100)])
      { accepted := 1, discarding := true, replay := [(0, 0)], darkSince := 1, partnerUp := 255 }
    let idle := linkHas (octet (ms 100) lIdle kIdle []) { leaving := 1 }
    let c := late.settleLink 504
    let i := idle.settleLink 504
    c.linkState 504 = kActive ∧ ((linkHas late { partnerUp := 255 }).settleLink 504).idleReqDue 504 = true ∧
    (st idle).exitWon 504 (ms 100) = false ∧ i.linkState 504 = kIdle ∧
    (i.linkAt 504).since + ms 1 ≤ i.run ∧ 0 < (i.linkAt 504).leaving ∧ (i.linkAt 504).leaving + us 30 ≤ i.run + 1 ∧
    0 < (c.linkAt 504).accepted ∧ (c.linkAt 504).acceptedAt + 14400 ≤ c.run ∧ (c.linkAt 504).discarding = true ∧
    (c.linkAt 504).nakAt + us 2 ≤ c.run ∧ (c.linkAt 504).replay.isEmpty = false ∧ (c.linkAt 504).progressAt + us 4 ≤ c.run ∧
    (c.linkAt 504).lastTx + us 10 ≤ c.run ∧ c.holdsLink 504 = true ∧ (c.linkAt 504).lastRx + us 30 ≤ c.run ∧
    0 < (c.linkAt 504).darkSince ∧ (c.linkAt 504).darkSince + us 4 ≤ c.run + 1 ∧
    (c.enabledLanes 504).all (fun l => c.reg (Reg.signal l) == 0) = true ∧ (late.writeFlush false 504 1).1 = 0 := by decide +kernel

theorem witness_SwarmCompletes :
    let b := started (ms 1000) []
    let b : Block := { b with link := { holdoff := [(512 * 4095 + 511, 1)], unreach := [(4095, 1)], time := { sent := some (0, 0) } } }
    wfNode 4095 = true ∧ wfLink 511 = true ∧ 0 < b.link.holdoff.look (512 * 4095 + 511) ∧
    b.link.holdoff.look (512 * 4095 + 511) ≤ b.run ∧ b.nodeLostDue 4095 = true ∧
    b.link.time.lastAsk + us (b.reg Reg.timeIntervalUs) ≤ b.run ∧ b.link.time.sent = some (0, 0) ∧ 0 + us 100 ≤ b.run ∧
    ((withRegs ((List.range 64).map (fun i => (Reg.linkLayout i, 0)))).writeNodeId 4095).1 = 0 := by decide +kernel

/-! Power, heat, commits and health. -/

theorem witness_GovernorCompletes :
    let b := started 0 []
    let asked : Block := { withRegs [(Reg.mode (fnWake - 1), 1)] with
      wg := { queue := [{ rail := 1, unit := 511, priority := 0, kind := 0, time := 0, since := 0 }] } }
    b.clock % refclk = 0 ∧ wfRegion 255 = true ∧ 7 < 8 ∧ b.started = true ∧ b.isRetired 255 = false ∧
    wfLane 511 = true ∧ (started 0 [(Reg.laneState 511, lOff), (Reg.laneEn 511, 1)]).laneState 511 = lOff ∧
    ((started 0 []).laneAt 511).waking = false ∧ (started 0 [(Reg.laneEn 511, 1)]).reg (Reg.laneEn 511) = 1 ∧
    (started 0 [(Reg.wakeEn 511, 1)]).reg (Reg.wakeEn 511) = 1 ∧ (asked.writeWgGrant (2 ^ 10 + 511)).1 = 0 ∧ wfRail 1 = true ∧
    asked.fmode fnWake = 1 := by decide +kernel

theorem witness_FabricDiv :
    let b := started 0 ((List.range 256).map (fun r => (Reg.run r, 65535)))
    b.served = true ∧ (b.writeFabricDiv 48).1 = 0 := by decide +kernel

theorem witness_ThermalCompletes :
    let due : Block := { on with therm := { pending := some (0, []) } }
    (List.replicate 448 0).length = 448 ∧ on.clock % (100 * tick) = 0 ∧ due.therm.pending = some (0, []) ∧ 0 ≤ due.clock ∧
    (let b : Block := { clk := { mode := .run, now := us 1 } }; b.clock % tick = 0 ∧ b.clk.lastTick ≠ b.cricket) := by decide +kernel

theorem witness_ThermalLevels :
    checkValue Reg.target (on.reg Reg.warn + 1) = 0 ∧ on.ireg Reg.warn < signedOf 32 (on.reg Reg.warn + 1) ∧
    checkValue Reg.warn (on.reg Reg.target - 1) = 0 ∧ signedOf 32 (on.reg Reg.target - 1) < on.ireg Reg.target := by decide +kernel

/-- A block with a commit under way. -/
def committing (c : CommitRun) (l : List (Nat × Nat)) : Block := { withRegs l with commit := { run := some c } }

theorem witness_CommitsComplete :
    let c : CommitRun := { epoch := 9, groups := 1, unitSince := some 0 }
    let p : CommitRun := { epoch := 9, groups := 1, part := true }
    let late : Block := { started (us 100) [(Reg.unitReplies, rcAwaited * 2 ^ (4 * 255))] with commit := { run := some c } }
    let held := committing p [(Reg.partState, 1), (Reg.lastEpoch, 8)]
    let doubt := committing p [(Reg.partState, 2)]
    ((withRegs [(Reg.commitEpoch, 9)]).writeCommitGo 1).1 = 0 ∧ late.commit.run = some c ∧ wfUnit 255 = true ∧
    late.unitAbsent 255 = false ∧ late.shadowed 255 = (late.reg (Reg.powerState 255) != 0) ∧
    ({ late with regs := (Reg.powerState 255, 0) :: late.regs }).shadowed 255 = false ∧ replyOf (late.reg Reg.unitReplies) 255 = rcAwaited ∧ late.windowOver c.unitSince 100 = true ∧
    (let n := { c with unitSince := none, nodeSince := some 0 }
     let b : Block := { started (ms 1000000) [] with commit := { run := some n } }
     b.windowOver n.unitSince 100 = false ∧ b.windowOver n.nodeSince (b.reg Reg.swarmWindowUs) = true) ∧
    ((committing { c with applyAt := some 0 } []).applyDue).isSome = true ∧
    wfNode 4095 = true ∧ (on.epochAnswer 0x10 none).commit.run = none ∧ (on.epochAnswer 0x10 none).reg Reg.lastEpoch < 1 ∧
    ((held.epochAnswer 0x12 (some (0x92, []))).commit.run).isSome = true ∧ (held.holdsEpoch 9).isSome = true ∧
    ({ held with commit := { held.commit with askedAt := 0 } }.clocked = true) ∧
    ({ started (ms 1000) [(Reg.partState, 1)] with commit := { run := some p } }.askDue) = true ∧
    (st { started (ms 1000) [(Reg.partState, 1)] with commit := { run := some p } }).outcomeWon (ms 1000) = false ∧
    doubt.reg Reg.partState = 2 ∧ doubt.served = true := by decide +kernel

theorem witness_OneCommitAtATime :
    let b : Block := { started (us 100) [] with commit := { retry := [(Remap.slot 271, us 100)] } }
    (committing { epoch := 9, groups := 1 } []).served = true ∧ b.commit.run = none ∧ b.commit.retry = [(Remap.slot 271, us 100)] ∧
    us 100 ≤ b.run ∧ ({ epoch := 0, groups := 0, change := some (Remap.riser 0) } : CommitRun).change = some (Remap.riser 0) := by
  decide +kernel

theorem witness_HealthCompletes :
    let x : Exhausted := { seam := 0, group := 0, row := 1, unit := 0, e0 := 0, acted := false }
    let gone : Block := { started (ms 1000000) [(Reg.mode (fnBond - 1), 1)] with health := { exhausted := [x] } }
    let open' : Block := { started (ms 100) [] with ledger := [(369 * 1024 + 1023, { state := .opened })] }
    let two : Block := { on with cfg := { fwA := some {}, fwB := some {} } }
    let handing : Block := { on with health := { handOver := some ⟨1, false⟩ } }
    wfSeam 0 = true ∧ 0 < seamGroups 0 ∧ on.groupIdle 0 0 = true ∧ (on.writeBondTest []).1 = 0 ∧ on.clock % tick = 0 ∧
    gone.writeBondRetire.1 = 0 ∧ gone.awaitsHost 0 0 = some x ∧ x.e0 + ms (gone.reg Reg.hostBondLimitMs) ≤ gone.run ∧
    wfDie 1 = true ∧ 1 < 2 ∧ (on.ladybird 1 1).stalledAt = 0 ∧ (on.ladybird 1 1).down = false ∧ on.dieHeld 5 = false ∧
    on.clock % (1000000 * tick) = 0 ∧ wfInitiator 369 = true ∧ (open'.ledgerAt 369 1023).state = .opened ∧
    (open'.ledgerAt 369 1023).openAt + us (open'.ledgerAt 369 1023).limit ≤ open'.run ∧ (st open').ledgerWon 369 1023 (ms 100) = false ∧
    (st open').bondWon 0 0 (ms 100) = false ∧
    (let e : Egress := { lk := 504, op := 0, src := 5, tag := 1, node := 1, since := 0, limit := 5 }
     ({ started (ms 100) [] with link := { egress := [e] } }.octetLedger 63)[0]? = some e ∧ 0 + us 5 ≤ (started (ms 100) []).run ∧
     (st { started (ms 100) [] with link := { egress := [e] } }).ledgerWon 319 0 (ms 100) = false) ∧
    (two.writeFwSwitch (1 - two.reg Reg.fwActive)).1 = 0 ∧ handing.health.handOver.isSome = true := by decide +kernel

theorem witness_LogCoalesces :
    let e : LogEntry := { time := 0, seq := 0, code := 0x0103, srcKind := 1, srcNum := 2, severity := 0, rep := 0, data := 0 }
    let b : Block := { on with health := { log := [e] } }
    logCoalesces 0x0103 = true ∧ b.health.log.find? (fun x => x.code == 0x0103) = some e ∧ b.reg Reg.logCoalesceMs ≠ 0 ∧
    b.ts - e.time ≤ b.reg Reg.logCoalesceMs * 100000 ∧ (withRegs [(Reg.logCoalesceMs, 0)]).reg Reg.logCoalesceMs = 0 := by
  decide +kernel

/-! Configuration, resets and the ports. -/

theorem witness_PackagesAndFusesComplete :
    let b := started 0 [(Reg.fwActive, 0), (Reg.pkgAddr, 0), (Reg.pkgBytes, 4096)]
    let a := started 0 [(Reg.fwActive, 1), (Reg.pkgAddr, 0), (Reg.pkgBytes, 4096)]
    let job : Block := { on with cfg := { pkgJob := some { cmd := 1, type := 2, code := 0, status := 0 },
                                          fuseJob := some (3, 0, 5), attest := some 7 } }
    (b.writePkgCmd 1).1 = 0 ∧ (a.writePkgCmd 2).1 = 0 ∧ a.reg Reg.fwActive ≠ 0 ∧ (b.writePkgCmd 3).1 = 0 ∧ b.reg Reg.fwActive ≠ 1 ∧
    (b.writePkgCmd 4).1 = 0 ∧ (b.writePkgCmd 5).1 = 0 ∧ b.reg Reg.attestStatus < 128 ∧ job.cfg.pkgJob.isSome = true ∧
    job.cfg.pkgJob.map (·.unread) = some false ∧
    job.cfg.fuseJob = some (3, 0, 5) ∧ job.cfg.attest = some 7 := by decide +kernel

theorem witness_FuseCommands :
    let b : Block := { started 0 [(Reg.imageRollback, 3), (Reg.fuseValue, 3)] with fuses := { owner := [none, none, none, none] } }
    [1, 2, 3, 4, 5].all (fun op => (b.fuseOrder op).1 == 0) = true := by decide +kernel

/-- A configuration at a step, its package begun. -/
def loadingAt (n : Nat) (mode : Nat) (s : CfgStep) (p : Bool) : Block :=
  { regs := [(Reg.modePins, mode), (Reg.cfgState, 2)], clk := { mode := .run, now := n },
    cfg := { step := s, pkg := if p then some { type := 0, keySlot := 0, totalFrames := 0, version := 0, rollback := 0, compat := 0,
                                                salt := [], digest := 0, unit0 := 0, dir := [], key := 0, sha := { h := [] } } else none } }

theorem witness_ConfigurationCompletes :
    (loadingAt 0 0 .directory false).cfg.step = .directory ∧ (loadingAt 0 0 .image false).cfg.step ≠ .directory ∧
    (loadingAt 0 0 .image false).loading = true ∧ (loadingAt 0 0 .image false).cfg.pkg = none ∧
    (loadingAt 0 0 .image true).cfg.pkg.isSome = true ∧ (loadingAt 0 0 .image true).loading = true ∧
    2 ^ 24 - 4 + [(0 : Byte), 0, 0, 0].length ≤ 2 ^ 24 ∧
    (let b := loadingAt (ms 10000000) 0 .image true
     b.selfRead = true ∧ (st b).imageWon (ms 10000000) = false ∧ b.cfg.since + ms (b.reg Reg.limitInForceMs) ≤ b.run) ∧
    (let b := loadingAt (ms 10000000) 2 .image true
     b.pushes = true ∧ b.cfg.heard + ms (b.reg Reg.pushLimitMs) ≤ b.run) ∧
    (let b := loadingAt (us 1) 0 .starting false
     b.cfg.step = .starting ∧ b.clock % tick = 0 ∧ b.cfg.since + us 1 ≤ b.run) ∧
    ({ loadingAt 0 2 .image true with cfg := { checking := true } }.cfg.checking) = true ∧
    (loadingAt 0 3 .image true).reg Reg.modePins = 3 ∧ (loadingAt 0 2 .image true).reg Reg.modePins = 2 := by decide +kernel

/-- A stop in force since time 0. -/
def stopped (n : Nat) : Block :=
  { clk := { mode := .run, now := n, stop := some { present := 2, since := 0, last := 0, retentionLost := false } } }

theorem witness_DeviceResetsComplete :
    let asleep : Block := { regs := [(Reg.wakeEn 511, 1)], clk := { mode := .hibernate } }
    let held : Block := { clk := { mode := .deviceReset } }
    let due : Block := { clk := { mode := .run, resetDue := some (0, 2) } }
    1 ≤ 4 ∧ on.clk.mode ≠ .por ∧ wfSensor 447 = true ∧ on.reg (Reg.suspect 447) = 0 ∧
    (stopped (ms 1)).clk.stop.isSome = true ∧ 0 + ms 1 ≤ (stopped (ms 1)).clk.now ∧ on.served = true ∧
    on.hibernateBarred = false ∧ wfLane 511 = true ∧ asleep.wakes 0 511 = true ∧ asleep.wakes 4 0 = true ∧ wfNode 4095 = true ∧
    State.reset.blk.clk.mode = .por ∧ on.clk.stop = none ∧ held.releaseDue = true ∧ on.clk.resetDue = none ∧
    due.clocked = true ∧ due.clk.resetDue = some (0, 2) := by decide +kernel

/-- A die-level reset of layer 6 at a step, the fence raised at run time 0. -/
def dieReset (n : Nat) (s : DieResetStep) : Block :=
  { clk := { mode := .run, now := n, dieReset := some { layer := 6, step := s, fenceAt := 0, stepAt := 0 } } }

theorem witness_DieResetCompletes :
    on.clk.dieReset = none ∧ on.commit.run = none ∧
    (dieReset (ms 1) .draining).clock % tick = 0 ∧
    us ((dieReset (ms 1) .draining).reg Reg.drainWindowUs) + ns 50 ≤ (dieReset (ms 1) .draining).run ∧
    us ((dieReset (ms 100) .held).reg Reg.dieResetHoldUs) ≤ (dieReset (ms 100) .held).run ∧
    us 2 ≤ (dieReset (us 2) .released).run ∧ 0 < (dieReset (us 1) .ready).run ∧ (dieReset (us 1) .ready).clock % tick = 0 := by
  decide +kernel

theorem witness_StopOutputs : (stopped 0).clk.stop.isSome = true ∧ on.clk.stop = none ∧ Reg.stops ≠ Reg.lastStopCause ∧
    Reg.stops ≠ Reg.railsInRange := by decide +kernel

theorem witness_DeviceResetKeeps : Reg.remapGen ∈ keptRegs ∧ Reg.remapGen ≠ Reg.deviceResets ∧ Reg.remapGen ≠ Reg.lastResetCause ∧
    Reg.remapGen ≠ Reg.logSeq ∧ Reg.remapGen ≠ Reg.logLost := by decide +kernel

theorem witness_WriteAborts :
    wfVia (.mailbox 62) = true ∧ objRow 0x0001 0 = none ∧ objIndex 0x0001 = false ∧ objRow 0x9000 0xFE = none ∧
    objIndex 0x9000 = true ∧ ((objRow 0x9000 0).map (·.acc)) = some .cst ∧ ((objRow 0x8000 1).map (·.acc)).isSome = true ∧
    ((objRow 0x6410 1).isSome) = true ∧ ((objRow 0x9000 3).map (·.size)) = some (.fixed 4) := by decide +kernel

/-- A message on CAN port 1 to this node. -/
def message (cmd : Nat) (body : List Byte) : Message := ⟨.can 1 7, lmpHeader cmd 5 0x9000 3 0 false false 0, body⟩

theorem witness_MessagesComplete :
    let can := withRegs [(Reg.canEnable 1, 1), (Reg.busState 1, 0)]
    wfVia (.can 1 7) = true ∧ can.viaWorks (.can 1 7) = true ∧ can.served = true ∧ can.node = 0 ∧
    [0x01, 0x02, 0x03, 0x05, 0x0B].all (fun c => (message c []).fault.isNone && can.messageHere (message c []) && (message c []).cmd == c && (message c []).node == 0) = true ∧
    [0x04, 0x07, 0x0A, 0x0F].all (fun c => (message c [0, 0, 0, 0]).fault.isNone && (message c [0, 0, 0, 0]).cmd == c) = true ∧
    (message 0x06 [1]).fault = none ∧ (message 0x08 [0, 0, 1, 0]).fault = none ∧ (message 0x09 [1, 127]).fault = none := by decide +kernel

/-- A READ waits in mailbox channel 7. -/
theorem witness_MessagesComplete_mailbox :
    let m : Message := ⟨.mailbox 7, lmpHeader 1 5 0x9000 3 0 false false 0, []⟩
    let b := (started 0 []).setMbox 7 { busy := true, reqLen := 8, request := m.hdr }
    b.viaWorks m.via = true ∧ b.messageHere m = true ∧ m.node = b.node ∧ m.fault = none := by decide +kernel

theorem witness_TransportsComplete :
    let x : Xfer := { via := .can 1 7, kind := .segRead, idx := 0x9000, sub := 3, xid := 5, size := 4, since := 0 }
    let f : Forward := { via := .can 1 7, node := 4095, ch := 62, hdr := 0, since := some 0 }
    let b : Block := { clk := { mode := .run, now := ms 100000 }, lmp := { xfers := [x], forwards := [f] } }
    let can := withRegs [(Reg.canEnable 1, 1), (Reg.busState 1, 0)]
    let early : Block := { on with lmp := { forwards := [f], couriers := [{ id := 0, node := 4095, ch := 62, bytes := [], via := some (.can 1 7), fresh := false, stage := .ready }] } }
    wfVia (.can 1 7) = true ∧ b.xfer (.can 1 7) = some x ∧ x.since + ms (b.reg Reg.lmpStallMs) ≤ b.run ∧ wfNode 4095 = true ∧
    wfMbox 62 = true ∧ early.forwardOf (.can 1 7) 4095 = some f ∧
    (early.courierReady (.can 1 7) 4095 62 0).isSome = true ∧ early.run ≤ 0 + ms (early.reg Reg.fwdLimitMs) ∧
    b.lmp.forwards.find? (fun f => f.via == .can 1 7) = some f ∧ 0 + ms (b.reg Reg.fwdLimitMs) ≤ b.run ∧ wfPort 1 = true ∧
    can.canWorks 1 = true ∧ bitsOf (3 * 2 ^ 25 + 14) 28 25 = 3 ∧ bitsOf (3 * 2 ^ 25 + 14) 24 13 = can.node ∧
    (List.replicate 8 (0 : Byte)).length = 8 := by decide +kernel

/-- The writes of the dictionary that `TransportsComplete` needs are done. -/
theorem witness_TransportsComplete_writes : (on.dictWrite (.mailbox 0) 0x9000 3 4 (on.reg Reg.target)).1 = 0 ∧
    (on.writeUsb4Enable (.mailbox 0) 1).1 = 0 := by decide +kernel

theorem witness_HeaderRoundTrip : 0x8F < 256 ∧ 255 < 256 ∧ 65535 < 65536 ∧ 15 < 16 ∧ 4095 < 4096 := by decide

theorem witness_StrayMessages :
    let x : Xfer := { via := .can 1 7, kind := .segRead, idx := 0x9000, sub := 3, xid := 5, size := 4, since := 0 }
    let b : Block := { on with lmp := { xfers := [x] } }
    on.xfer (.can 1 7) = none ∧ b.xfer (message 0x0F []).via = some x ∧ (message 0x0F []).of x = true ∧
    (Message.of ⟨.can 1 7, 0, []⟩ x) = false := by decide +kernel

theorem witness_PortsComplete :
    let can := withRegs [(Reg.canEnable 1, 1), (Reg.busState 1, 0)]
    let usb := started 0 [(Reg.usb4Enable, 1), (Reg.usb4State, 1)]
    let up := started 0 [(Reg.usb4State, 2), (Reg.pcieUp, 1)]
    wfPort 1 = true ∧ can.canWorks 1 = true ∧ (withRegs [(Reg.busState 1, 2)]).reg (Reg.busState 1) = 2 ∧
    can.heartbeatDue 1 = true ∧ usb.usbAllowed = true ∧ up.reg Reg.usb4State ≠ 0 ∧ wfVector 63 = true ∧ up.reg Reg.pcieUp = 1 ∧
    15 % 16 ≠ 0 := by decide +kernel

theorem witness_JtagCompletes : (withRegs [(Reg.cfgState, 4)]).clk.mode ≠ .por ∧ (withRegs [(Reg.cfgState, 4)]).reg Reg.cfgState = 4 ∧
    on.reg Reg.cfgState = 0 ∧ (withRegs [(Reg.cfgState, 3)]).reg Reg.cfgState ≠ 0 ∧
    (withRegs [(Reg.cfgState, 3)]).reg Reg.cfgState ≠ 4 := by decide +kernel

/-- A command waiting that is well formed. -/
theorem witness_WellPendingKept :
    let s : State := { pending := [.bypass], blk := on }
    (match exec .bypass (st on) with | .next _ => true | _ => false) = true ∧ s.pending.all Instr.wf = true ∧
    (match step s with | .next u => u.pending.all Instr.wf | _ => false) = true := by decide +kernel

theorem witness_EveryCommandAnswers : Instr.wf (.detectPass 512 0) = false := by decide +kernel

theorem witness_QueueKept : (match exec .bypass { pending := [.trstn], blk := on } with | .next _ => true | _ => false) = true ∧
    Instr.awaited .trstn = false := by decide +kernel

theorem witness_MemoryKeepsForm : on.mem.wf = true ∧
    (match exec (.counterClear 127 1) (st on) with | .next u => u.blk.mem.wf | _ => false) = true ∧
    (match exec (.repairWalkEnd 0 0) (st on) with | .next u => u.blk.mem.wf | _ => false) = true ∧
    (match exec (.retireBank 127 0) (st on) with | .next u => u.blk.mem.wf | _ => false) = true ∧
    (match exec (.bankRetire 127 0) (st on) with | .next u => u.blk.mem.wf | _ => false) = true ∧
    (match exec (.patrolVisit 0) (st on) with | .next u => u.blk.mem.wf | _ => false) = true := by decide +kernel

theorem witness_LineWritten : 0 < 80 * 1 ∧ 80 * 1 + 80 ≤ 160 ∧ 2 ^ 512 - 1 < 2 ^ 512 ∧
    (List.range 128).all (fun bank => (withRegs [(Reg.repair 5, 2 ^ 15 + 78)]).reg (Reg.repair bank) % 128 < 79) = true := by
  decide +kernel

theorem witness_Dt79 : (2 ^ 64 - 1 < 2 ^ 64) ∧ (77 < 78 ∧ 78 < 79) := by decide

theorem witness_LaneFrame : (match exec (.detectPass 511 0) (st on) with | .next _ => true | _ => false) = true := by decide +kernel

theorem witness_PortFrame : (match exec .trstn (st on) with | .next _ => true | _ => false) = true := by decide +kernel

/-! Ill-formed operands: one command for each check of an operand. -/

theorem smoke_contexts : [Instr.regionReset 256 1, .load .host 256 0 0 0 0 0 0, .load .host 0 16 0 0 0 0 0, .loadEngineStart 2,
    .switch .host [0, 256], .copy .host 0 0 0 16, .memoryRequest 0 64 false 0 0 0 0, .memoryRequest 0 0 false (2 ^ 24) 0 0 0,
    .streamOutPacket 0 4 [0] 0, .streamOutPacket 0 0 [] 0, .streamInPacket 0 0 [] 0 0].all illFormed = true := by decide +kernel

theorem smoke_memory_and_runs : [Instr.repairWalkEnd 128 0, .frameWipe 32768, .dmaAbort 16, .intake 64 0, .runEnd 16384 0,
    .dispatchEvaluation 32 0, .reserve 0 8 0, .sample 0 (2 ^ 64) 0 0, .migrationTimeout 32 0, .trackerArm 0 (2 ^ 64),
    .globalAccess 370 0 8 false 0 false 0, .globalAccess 0 (2 ^ 64) 8 false 0 false 0, .lateCompletion 0 1024 0 0,
    .hdrDiscard 66 0 0, .hdrDiscard 0 4 0].all illFormed = true := by decide +kernel

theorem smoke_links_and_messages : [Instr.detectPass 512 0, .orderPass 512 0, .codeword 0 [0] 0, .holdoffExpiry 4096 0 0,
    .codeword 0 (List.replicate 544 1024) 0, .pushWrite (2 ^ 24) [0] 0, .registerWrite (.mailbox 64) 0 0 0 0,
    .registerWrite (.can 2 0) 0 0 0 0, .registerWrite (.can 0 4096) 0 0 0 0, .mailboxResponse 64 0, .msgLen 370 0 8, .forwardResponse (.mailbox 0) 4096 0 0 0,
    .heartbeat 2 0, .vectorUnmask 64, .usb4Connect 1 false false].all illFormed = true := by decide +kernel

theorem smoke_device : [Instr.unitReply 442 0 0 0, .wakeRequest 2 0 0 0, .wakeRequest 0 256 0 0, .wakeRequest 1 512 0 0,
    .wakeRequest 0 0 8 0, .wakeSource 6 0 0, .wakeSource 0 512 0, .stop 0 0 0, .stop 5 0 0, .porRelease 8 0 0,
    .deviceResetRelease 8 0, .thermalSample [] 0, .thermalTrip 448 0, .weevilVisit 6 0 [] 0, .weevilVisit 5 3776 [] 0,
    .hostBondLimit 6 0 0, .ladybirdVisit 0 2 0, .ladybirdTakeover 0 2 0, .powerBondAlarm 6 0].all illFormed = true := by
  decide +kernel

/-- The table of commands gives no row any bits. -/
theorem test_no_command_words : decodeTableWord 32 0x12345678 = none ∧
    State.reset.withFetchWord 32 0x12345678 = State.reset := by decide +kernel

/-! The manual's worked examples. -/

/-- R146 and what follows it: the value 1 is encoded as SPARE 0, P 1, D 1, C 0x0377; with D[5] and C[10] flipped, positions 19 and 10 are
found and the value comes back. -/
theorem test_dt79_example : dtEncode 1 = 2 ^ 78 + 2 ^ 14 + 0x377 ∧
    dtDecode (2 ^ 78 + 0x21 * 2 ^ 14 + 0x777) = .double 10 19 ∧
    dtData ((DtOutcome.double 10 19).apply (2 ^ 78 + 0x21 * 2 ^ 14 + 0x777)) = 1 := by decide +kernel

/-- The cell record of the example after R59 loads, and its outputs are those of its data. -/
theorem test_cell_record_example :
    let rec16 := 0xCA01_9400_3000_0001_0000_0007_1800_0000_0000_0000_0000_0000_8888_8888_8888_8888
    recordLoads rec16 = true ∧ (onesOf 256 rec16).length = 24 + 2 + 4 + 2 := by decide +kernel

/-- R223: hot candidates in descending order of samples, ties to the lowest record. -/
theorem test_ties : ([3, 5, 5].zipIdx.foldl (fun l (u, i) => insertHot ⟨i, {}, u, 0, 0⟩ l) []).map Candidate.index = [1, 2, 0] := by
  decide +kernel

/-- R424: at level 28, 36 edges of a window of 64 are kept. -/
theorem test_skipper_example : ((List.range 64).filter (fun j => !skipEdge j 28)).length = 36 := by decide +kernel

/-- R184: a ring of 256 entries with producer 250 and consumer 10 refuses 10 and takes 9. -/
theorem test_doorbell_example :
    let b : Block := { withRegs [(Reg.enable 2, 1), (Reg.sqLog2 2, 8)] with disp := { rings := [(2, { prod := 250, cons := 10 })] } }
    ((b.sqProd 2 10).2.ring 2).dbRefused = true ∧ ((b.sqProd 2 10).2.ring 2).dbCount = 1 ∧ ((b.sqProd 2 10).2.ring 2).prod = 250 ∧
    ((b.sqProd 2 9).2.ring 2).prod = 9 ∧ ((b.sqProd 2 9).2.ring 2).dbRefused = false := by decide +kernel

/-- R260 and the example before R272: 0x0_0123_0000 lies behind the tap at station 6, port 7; service port SV1 is 14 hops away from it and
9 hops from the doorbell block at SV0; and 46 cycles fall in bucket 3 of a histogram with LAT_SHIFT 2. -/
theorem test_network_example : on.destOf 357 0 0x01230000 4096 true = (Status.ok, 6, 7) ∧ (way 65 6).length = 15 ∧
    on.destOf 357 0 0x900002000 128 true = (Status.ok, 64, 1) ∧ (way 65 64).length = 10 ∧ latBucket 2 46 = 3 := by decide +kernel

/-- R18 and R19: 0x0_7FFF_F800 runs past the end of MB after 2 KiB. -/
theorem test_straddle_example : reservedOffset 0x52340000 64 = false ∧ reservedOffset 0x7FFFF800 4096 = true := by decide +kernel

/-- R318: a container whose bits [575:544] are 0x41FF_8003 is a HEAD_W with SEQ 0x7FE that returns 3 credits of class Q. -/
theorem test_container_example :
    let c := 0x41FF8003 * 2 ^ 544
    cKind c = .headW ∧ cSeq c = 0x7FE ∧ cCvn c = 0 ∧ cCount c = 3 := by decide +kernel

/-- R403: the READ of DISPATCHES from node 0x7F0 on CAN0 of node 0x02A is answered with identifier 0x08FE_0054 and the header bytes
81 21 00 50 07 08 2A 00. -/
theorem test_can_example :
    let b := withRegs [(Reg.canEnable 0, 1), (Reg.busState 0, 0), (Reg.nodeId, 0x2A), (0x500007, 5)]
    (match exec (.lmpReq 0 ⟨.fdExtended, 0x6054FE0⟩ [0x01, 0x21, 0x00, 0x50, 0x07, 0x00, 0x2A, 0x00] 0) (st b) with
     | .next u => u.blk.outbox.map (·.words)
     | _ => []) = [[0x08FE0054, 0x81, 0x21, 0x00, 0x50, 0x07, 0x08, 0x2A, 0x00, 5, 0, 0, 0, 0, 0, 0, 0]] := by decide +kernel

/-- R431: of the regions that ask at one edge with a full bucket of 8,000 mA, four are granted at once. -/
theorem test_wake_example :
    let asks := (List.range 6).map (fun u => ({ rail := 0, unit := u, priority := 3, kind := 0, time := 0, since := 0 } : WakeReq))
    let b : Block := { started 0 [] with wg := { queue := asks } }
    (match exec (.wakeGrant 0) (st b) with
     | .next u => u.blk.wg.queue.length
     | _ => 0) = 2 := by decide +kernel

end Sys2Proof.Tests
end

section
/-! PROOFS. What a meaning answers once its operands name a unit and its event falls: the shape of every clause on a command's effect. -/

namespace Sys2Proof.Machine

open Sys2Proof

/-- A meaning whose operands name units answers its block. -/
theorem State.answers {s : State} {ok : Bool} {b c : Block} (hok : ok = true) (hb : b = c) : s.answer ok b = .next (s.becomes c) := by
  subst hb hok
  rfl

/-- The event of a command falls on the block at its time. -/
theorem Block.event_falls {a b c : Block} {t : Nat} {f : Block → Block} (hb : a.at t = b) (hc : b.clocked = true) (hf : f b = c) :
    a.event t f = c := by
  subst hb
  rw [Block.event_of a t f hc, hf]

/-- An event whose condition holds falls on the block at its time. -/
theorem Block.eventIf_falls {a b c : Block} {t : Nat} {p : Block → Bool} {f : Block → Block} (hb : a.at t = b) (hc : b.clocked = true)
    (hp : p b = true) (hf : f b = c) : a.eventIf t p f = c := by
  subst hb
  rw [Block.eventIf_of a t p f hc hp, hf]

/-- A write of the host that leaves `u` and is not aborted is answered with 0. -/
theorem Block.host_answered {b u : Block} {f : Block → Nat × Block} (hs : b.served = true) (hw : f b = (0, u)) :
    b.host f = u.result 0 := by
  rw [Block.host_of b f hs, hw]

/-- A write of the host that is not aborted has its effect and is answered with 0. -/
theorem Block.host_done {b : Block} {f : Block → Nat × Block} (hs : b.served = true) (h0 : (f b).1 = 0) :
    b.host f = (f b).2.result 0 := by
  rw [Block.host_of b f hs, h0]

/-- A limit that its event does not win has its effect. -/
theorem State.limit_done {s : State} {t : Nat} {b c : Block} {won : Bool} (hw : won = false) (hb : b = c) : s.limit won t b = c := by
  subst hw
  rw [State.limit_falls, hb]

/-- A fold whose every step keeps what `g` shows of the block keeps it. -/
theorem foldl_keeps {α β γ : Type} (g : α → γ) (f : α → β → α) (hf : ∀ a x, g (f a x) = g a) (l : List β) (a : α) :
    g (l.foldl f a) = g a := by
  induction l generalizing a with
  | nil => rfl
  | cons x l ih => rw [List.foldl_cons, ih, hf]

end Sys2Proof.Machine
end

section
/-! PROOFS. The queue (R26): what a command does to the block depends on the waiting commands only through the limits. -/

namespace Sys2Proof.Machine

open Sys2Proof

/-- A meaning whose block is the same with another queue answers that block with it. -/
theorem State.answer_queue {ok : Bool} {b c d : Block} {p q : List Instr} {u : State}
    (h : State.answer { pending := p, blk := b } ok c = .next u) (hcd : c = d) :
    State.answer { pending := q, blk := b } ok d = .next { pending := q, blk := u.blk } := by
  subst hcd
  cases ok <;> cases h <;> rfl

/-- A limit that is judged alike with two queues does the same to the block. -/
theorem State.limit_queue {p q : List Instr} {b c : Block} {t : Nat} {w w' : Bool} (h : w = w') :
    State.limit { pending := p, blk := b } w t c = State.limit { pending := q, blk := b } w' t c := by
  subst h
  rfl

/-- No event that something awaits is in the queue. -/
def quiet (p : List Instr) : Prop := ∀ d ∈ p, d.awaited = false

/-- The rows of a limit are among the events that something awaits. -/
def onlyAwaited (ev : Instr → Option (State → Host.Outcome State Fault Refusal)) : Prop :=
  ∀ d, d.awaited = false → ev d = none

/-- With no awaited event in the queue the block is judged as with none waiting. -/
theorem State.settle_quiet {ev : Instr → Option (State → Host.Outcome State Fault Refusal)} (hev : onlyAwaited ev) {p : List Instr}
    {b : Block} (hp : quiet p) : (State.settle { pending := p, blk := b } ev).blk = (State.settle { pending := [], blk := b } ev).blk := by
  have skip (s : State) : p.foldl (fun u d => match ev d with
      | some f => u.taken f
      | none => u) s = s := by
    induction p with
    | nil => rfl
    | cons d p ih =>
      rw [List.foldl_cons, hev d (hp d (by simp))]
      exact ih (fun e he => hp e (by simp [he]))
  exact (congrArg State.blk (skip { pending := p, blk := b }) :)

theorem quiet_take {p : List Instr} (hp : quiet p) (n : Nat) : quiet (p.take n) := fun d hd => hp d (List.mem_of_mem_take hd)

/-! The rows that limits and the like await. -/

theorem leaveRow_onlyAwaited (t : Nat) : onlyAwaited (leaveRow t) := by
  intro d hd; unfold leaveRow; split <;> simp_all [Instr.awaited]

theorem freeRow_onlyAwaited (t : Nat) : onlyAwaited (freeRow t) := by
  intro d hd; unfold freeRow; split <;> simp_all [Instr.awaited]

theorem stageRow_onlyAwaited (t : Nat) : onlyAwaited (stageRow t) := by
  intro d hd; unfold stageRow; split <;> simp_all [Instr.awaited]

theorem heardRow_onlyAwaited (t : Nat) : onlyAwaited (heardRow t) := by
  intro d hd; unfold heardRow; split <;> simp_all [Instr.awaited]

theorem lossRow_onlyAwaited (lk t : Nat) : onlyAwaited (lossRow lk t) := by
  intro d hd; unfold lossRow; split <;> simp_all [Instr.awaited]

theorem replyRow_onlyAwaited (t : Nat) : onlyAwaited (replyRow t) := by
  intro d hd; unfold replyRow; split <;> simp_all [Instr.awaited]

theorem completionRow_onlyAwaited (t : Nat) : onlyAwaited (completionRow t) := by
  intro d hd; unfold completionRow; split <;> simp_all [Instr.awaited]

theorem recordRow_onlyAwaited (t : Nat) : onlyAwaited (recordRow t) := by
  intro d hd; unfold recordRow; split <;> simp_all [Instr.awaited]

theorem packageRow_onlyAwaited (t : Nat) : onlyAwaited (packageRow t) := by
  intro d hd; unfold packageRow; split <;> simp_all [Instr.awaited]

theorem messageRow_onlyAwaited (t : Nat) : onlyAwaited (messageRow t) := by
  intro d hd; unfold messageRow; split <;> simp_all [Instr.awaited]

/-! What is judged with no awaited event in the queue is judged as with none waiting. -/

section
variable {p : List Instr} (hp : quiet p) (b : Block)
include hp

theorem leaveWon_quiet (v t : Nat) : State.leaveWon { pending := p, blk := b } v t = State.leaveWon { pending := [], blk := b } v t := by
  unfold State.leaveWon; rw [State.settle_quiet (leaveRow_onlyAwaited t) hp]

theorem switchWon_quiet (m t : Nat) : State.switchWon { pending := p, blk := b } m t = State.switchWon { pending := [], blk := b } m t := by
  unfold State.switchWon; rw [State.settle_quiet _ hp]
  intro d hd; dsimp only; split <;> simp_all [Instr.awaited]

theorem stageWon_quiet (l t : Nat) : State.stageWon { pending := p, blk := b } l t = State.stageWon { pending := [], blk := b } l t := by
  unfold State.stageWon; rw [State.settle_quiet (stageRow_onlyAwaited t) hp]

theorem exitWon_quiet (lk t : Nat) : State.exitWon { pending := p, blk := b } lk t = State.exitWon { pending := [], blk := b } lk t := by
  unfold State.exitWon; rw [State.settle_quiet _ hp]
  intro d hd; dsimp only; split <;> simp_all [Instr.awaited]

theorem orderWon_quiet (lk t : Nat) : State.orderWon { pending := p, blk := b } lk t = State.orderWon { pending := [], blk := b } lk t := by
  unfold State.orderWon; rw [State.settle_quiet (heardRow_onlyAwaited t) hp]

theorem heardWon_quiet (lk t : Nat) : State.heardWon { pending := p, blk := b } lk t = State.heardWon { pending := [], blk := b } lk t := by
  unfold State.heardWon; rw [State.settle_quiet (heardRow_onlyAwaited t) hp]

theorem ackWon_quiet (lk t : Nat) : State.ackWon { pending := p, blk := b } lk t = State.ackWon { pending := [], blk := b } lk t := by
  unfold State.ackWon; rw [State.settle_quiet _ hp]
  intro d hd; dsimp only; split <;> simp_all [Instr.awaited]

theorem lightWon_quiet (lk t : Nat) : State.lightWon { pending := p, blk := b } lk t = State.lightWon { pending := [], blk := b } lk t := by
  unfold State.lightWon; rw [State.settle_quiet _ hp]
  intro d hd; dsimp only; split <;> simp_all [Instr.awaited]

theorem losesPartner_quiet (lk t : Nat) :
    State.losesPartner { pending := p, blk := b } lk t = State.losesPartner { pending := [], blk := b } lk t := by
  unfold State.losesPartner; rw [State.settle_quiet (lossRow_onlyAwaited lk t) hp]

theorem timeWon_quiet (t : Nat) : State.timeWon { pending := p, blk := b } t = State.timeWon { pending := [], blk := b } t := by
  unfold State.timeWon; rw [State.settle_quiet _ hp]
  intro d hd; dsimp only; split <;> simp_all [Instr.awaited]

theorem repliesWon_quiet (t : Nat) : State.repliesWon { pending := p, blk := b } t = State.repliesWon { pending := [], blk := b } t := by
  unfold State.repliesWon; rw [State.settle_quiet (replyRow_onlyAwaited t) hp]

theorem outcomeWon_quiet (t : Nat) : State.outcomeWon { pending := p, blk := b } t = State.outcomeWon { pending := [], blk := b } t := by
  unfold State.outcomeWon; rw [State.settle_quiet _ hp]
  intro d hd; dsimp only; split <;> simp_all [Instr.awaited]

theorem completionSeen_quiet (t : Nat) :
    State.completionSeen { pending := p, blk := b } t = State.completionSeen { pending := [], blk := b } t := by
  unfold State.completionSeen; rw [State.settle_quiet (completionRow_onlyAwaited t) hp]

theorem bondWon_quiet (seam group t : Nat) :
    State.bondWon { pending := p, blk := b } seam group t = State.bondWon { pending := [], blk := b } seam group t := by
  unfold State.bondWon; rw [State.settle_quiet _ hp]
  intro d hd; dsimp only; split <;> simp_all [Instr.awaited]

theorem ledgerWon_quiet (ini tag t : Nat) :
    State.ledgerWon { pending := p, blk := b } ini tag t = State.ledgerWon { pending := [], blk := b } ini tag t := by
  unfold State.ledgerWon; rw [State.settle_quiet (recordRow_onlyAwaited t) hp, completionSeen_quiet hp]

/-- WG_GRANT is awaited of the command in front of the queue only. -/
theorem grantWon_quiet (rail unit : Nat) :
    State.grantWon { pending := p, blk := b } rail unit = State.grantWon { pending := [], blk := b } rail unit := by
  unfold State.grantWon; rw [State.settle_quiet _ (quiet_take hp 1)]
  · rfl
  · intro d hd; dsimp only; split <;> simp_all [Instr.awaited]

theorem imageWon_quiet (t : Nat) : State.imageWon { pending := p, blk := b } t = State.imageWon { pending := [], blk := b } t := by
  unfold State.imageWon; rw [State.settle_quiet (packageRow_onlyAwaited t) hp]

theorem byteWon_quiet (t : Nat) : State.byteWon { pending := p, blk := b } t = State.byteWon { pending := [], blk := b } t := by
  unfold State.byteWon; rw [State.settle_quiet (packageRow_onlyAwaited t) hp]

theorem messageWon_quiet (via : Via) (t : Nat) :
    State.messageWon { pending := p, blk := b } via t = State.messageWon { pending := [], blk := b } via t := by
  unfold State.messageWon; rw [State.settle_quiet (messageRow_onlyAwaited t) hp]

theorem responseWon_quiet (via : Via) (t : Nat) :
    State.responseWon { pending := p, blk := b } via t = State.responseWon { pending := [], blk := b } via t := by
  unfold State.responseWon; rw [State.settle_quiet _ hp]
  intro d hd; dsimp only; split <;> simp_all [Instr.awaited]

end

/-- With no awaited event in the queue, a command does to the block what it does with none waiting. -/
theorem exec_quiet (c : Instr) {b : Block} {p : List Instr} {u : State} (h : exec c { pending := p, blk := b } = .next u)
    (hp : quiet p) : exec c { pending := [], blk := b } = .next { pending := [], blk := u.blk } := by
  cases c with
  | imageLimit t => exact State.answer_queue h (State.limit_queue (imageWon_quiet hp b t))
  | pushLimit t => exact State.answer_queue h (State.limit_queue (byteWon_quiet hp b t))
  | commitWindow t =>
    refine State.answer_queue h ?_
    rw [repliesWon_quiet hp, State.settle_quiet (replyRow_onlyAwaited t) hp]
    rfl
  | applyWait t => exact State.answer_queue h (State.limit_queue (outcomeWon_quiet hp b t))
  | exhaustionWindowEnd t =>
    exact State.answer_queue h (congrArg (fun done => b.eventIf t _ (fun b => b.windowEnd done)) (completionSeen_quiet hp b t))
  | drainWindowEnd t =>
    exact State.answer_queue h (congrArg (fun done => b.eventIf t _ (fun b => b.drainWindowEnd done)) (completionSeen_quiet hp b t))
  | hostBondLimit seam group t => exact State.answer_queue h (State.limit_queue (bondWon_quiet hp b seam group t))
  | ledgerTimeout ini tag t => exact State.answer_queue h (State.limit_queue (ledgerWon_quiet hp b ini tag t))
  | stageFail l t => exact State.answer_queue h (State.limit_queue (stageWon_quiet hp b l t))
  | idleExitTimeout lk t => exact State.answer_queue h (State.limit_queue (exitWon_quiet hp b lk t))
  | nakRepeat lk t => exact State.answer_queue h (State.limit_queue (orderWon_quiet hp b lk t))
  | replayTimeout lk t => exact State.answer_queue h (State.limit_queue (ackWon_quiet hp b lk t))
  | keepaliveTimeout lk t => exact State.answer_queue h (State.limit_queue (heardWon_quiet hp b lk t))
  | signalLossTimeout lk t => exact State.answer_queue h (State.limit_queue (lightWon_quiet hp b lk t))
  | timeRspTimeout t => exact State.answer_queue h (State.limit_queue (timeWon_quiet hp b t))
  | lmpStall via t => exact State.answer_queue h (State.limit_queue (messageWon_quiet hp b via t))
  | fwdTimeout via t => exact State.answer_queue h (State.limit_queue (responseWon_quiet hp b via t))
  | migrationTimeout m t => exact State.answer_queue h (State.limit_queue (switchWon_quiet hp b m t))
  | preemptCancel run t => exact State.answer_queue h (State.limit_queue (leaveWon_quiet hp b run t))
  | hostWakeLimit rail unit t => exact State.answer_queue h (State.limit_queue (grantWon_quiet hp b rail unit))
  | reserve k prio t =>
    exact State.answer_queue h (congrArg (fun (c : Block) => b.eventIf t _ (fun b => b.unlessWiped (fun b => b.reserve (c.at t) k prio)))
      (State.settle_quiet (freeRow_onlyAwaited t) hp))
  | flushStart lk v t =>
    exact State.answer_queue h (congrArg (fun lost => (b.at t).hostLink (wfLink lk) lk t (fun b => b.writeFlush lost lk v))
      (losesPartner_quiet hp b lk t))
  | _ => exact State.answer_queue h rfl

/-- Settles O5: only the limits, and what is judged as they are, look at the queue, and there at nothing but awaited events. -/
theorem queueKept : Obligations.QueueKept := by
  intro c b p q u h
  refine ⟨?_, exec_quiet c h, fun hc => ?_⟩
  · obtain ⟨b', hb⟩ := exec_answers c { pending := p, blk := b }
    rw [hb] at h
    cases h
    rfl
  · cases c with
    | imageLimit | pushLimit | commitWindow | applyWait | exhaustionWindowEnd | hostBondLimit | ledgerTimeout | stageFail
    | idleExitTimeout | nakRepeat | replayTimeout | keepaliveTimeout | signalLossTimeout | timeRspTimeout | lmpStall | fwdTimeout
    | migrationTimeout | preemptCancel | drainWindowEnd | hostWakeLimit | reserve | flushStart => exact hc.elim
    | _ => exact State.answer_queue h rfl

end Sys2Proof.Machine
end

section
/-! PROOFS. Transactions: which of several causes ends one (R29), and a completion that comes late (R28). -/

namespace Sys2Proof

/-- The element with the least key is one of the list, and none has a lesser key. -/
theorem leastBy_mem {α : Type} (key : α → Nat) {l : List α} (h : l ≠ []) :
    ∃ m ∈ l, leastBy key l = some m ∧ ∀ x ∈ l, key m ≤ key x := by
  induction l with
  | nil => exact absurd rfl h
  | cons x xs ih =>
    cases xs with
    | nil => exact ⟨x, by simp [leastBy]⟩
    | cons y ys =>
      obtain ⟨m, hm, he, hle⟩ := ih (by simp)
      rw [leastBy, he]
      by_cases hx : key x ≤ key m
      · refine ⟨x, by simp, if_pos hx, fun z hz => ?_⟩
        rcases List.mem_cons.1 hz with rfl | hz
        · exact Nat.le_refl _
        · exact Nat.le_trans hx (hle z hz)
      · refine ⟨m, List.mem_cons_of_mem _ hm, if_neg hx, fun z hz => ?_⟩
        rcases List.mem_cons.1 hz with rfl | hz
        · omega
        · exact hle z hz

end Sys2Proof

namespace Sys2Proof.Machine

open Sys2Proof

/-- In a list whose keys ascend, the first member of `cs` is the one with the least key. -/
theorem find?_least {key : Nat → Nat} {cs order : List Nat} {m : Nat} (hasc : order.Pairwise (fun a c => key a < key c))
    (hm : m ∈ order) (hcs : m ∈ cs) (hle : ∀ x ∈ cs, key m ≤ key x) : order.find? (fun c => cs.contains c) = some m := by
  induction order with
  | nil => exact absurd hm List.not_mem_nil
  | cons a l ih =>
    obtain ⟨hbelow, hasc⟩ := List.pairwise_cons.1 hasc
    rcases List.mem_cons.1 hm with rfl | hm
    · exact List.find?_cons_of_pos (List.contains_iff_mem.2 hcs)
    · have habsent : a ∉ cs := fun ha => absurd (hle a ha) (Nat.not_le_of_lt (hbelow m hm))
      rw [List.find?_cons_of_neg (fun ha => habsent (List.contains_iff_mem.1 ha))]
      exact ih hasc hm

/-- Settles O29: the first of the causes is the one with the least rank of R29, and the six stand in the order of their ranks. -/
theorem causeOrder : Obligations.CauseOrder := by
  intro cs hne hcs
  obtain ⟨m, hm, hfirst, hle⟩ := leastBy_mem Status.rank hne
  have hranks : [8, 5, 4, 3, 9, 6].Pairwise (fun a c => Status.rank a < Status.rank c) := by decide
  rw [Status.first, hfirst]
  exact (find?_least hranks (hcs m hm) hm hle).symm

/-- The status of a completion fits its four bits (R24). -/
theorem received_lt (c : Nat) : Status.received c < 16 := by
  unfold Status.received
  split
  · omega
  · decide

/-- An event of a code that does not coalesce makes an entry of its own (R480). -/
theorem logEvent_single (b : Block) {code : Nat} (h : logCoalesces code = false) (kind num data : Nat) :
    b.logEvent code kind num data = b.logNew code kind num data := by
  unfold Block.logEvent
  simp only [h, Bool.false_and, Bool.false_eq_true, if_false]
  split <;> rfl

/-- The entry that an event makes. -/
def Block.entry (b : Block) (code kind num data : Nat) : LogEntry :=
  ⟨b.ts, b.reg Reg.logSeq, code, kind, num, logSeverity code, 0, data⟩

/-- An event below LOG_MIN_SEVERITY is not written (R479). -/
theorem logNew_below {b : Block} {code : Nat} (h : logSeverity code < b.reg Reg.logMinSeverity) (kind num data : Nat) :
    b.logNew code kind num data = b := if_pos h

/-- An event that is written is the newest of the log; below severity 2 it sends no ALERT (R479, R481). -/
theorem logNew_head {b : Block} {code : Nat} (h : b.reg Reg.logMinSeverity ≤ logSeverity code) (hq : logSeverity code < 2)
    (kind num data : Nat) : (b.logNew code kind num data).health.log.head? = some (b.entry code kind num data) := by
  unfold Block.logNew Block.alert
  dsimp only
  rw [if_neg (Nat.not_lt.2 h), if_pos hq]
  rfl

/-- A register reads the same whatever the health record holds. -/
theorem reg_withHealth (b : Block) (x : Health) (k : Nat) : Block.reg { b with health := x } k = b.reg k := rfl

/-- The registers that the event log writes: its counts, and those of the CAN ports on which an ALERT is sent. -/
def logRegs : List Nat :=
  [Reg.logSeq, Reg.logLost, Reg.framesTx 0, Reg.tec 0, Reg.busState 0, Reg.framesTx 1, Reg.tec 1, Reg.busState 1]

theorem canSent_reg (b : Block) {p k : Nat} (h1 : k ≠ Reg.tec p) (h2 : k ≠ Reg.busState p) : (b.canSent p).reg k = b.reg k := by
  unfold Block.canSent Block.canState
  rw [Block.reg_setReg_ne _ _ h2, Block.reg_setReg_ne _ _ h1]

theorem alert_reg (b : Block) (e : LogEntry) {k : Nat} (hk : k ∉ logRegs) : (b.alert e).reg k = b.reg k := by
  simp only [logRegs, List.mem_cons, List.not_mem_nil, or_false, not_or] at hk
  obtain ⟨-, -, hf0, ht0, hs0, hf1, ht1, hs1⟩ := hk
  unfold Block.alert
  extract_lets send
  have hsend (b : Block) {p : Nat} (hf : k ≠ Reg.framesTx p) (ht : k ≠ Reg.tec p) (hs : k ≠ Reg.busState p) :
      (send b p).reg k = b.reg k := by
    simp only [send]
    split
    · rw [Block.reg_emit, canSent_reg _ ht hs, Block.reg_count_ne _ _ hf]
    · rfl
  split
  · rfl
  · rw [hsend _ hf1 ht1 hs1, hsend _ hf0 ht0 hs0]

theorem logNew_reg (b : Block) (code kind num data : Nat) {k : Nat} (hk : k ∉ logRegs) :
    (b.logNew code kind num data).reg k = b.reg k := by
  have hseq : k ≠ Reg.logSeq := fun h => hk (by simp [logRegs, h])
  have hlost : k ≠ Reg.logLost := fun h => hk (by simp [logRegs, h])
  unfold Block.logNew
  dsimp only
  split
  · rfl
  · rw [alert_reg _ _ hk, Block.reg_setReg_ne _ _ hseq, reg_withHealth]
    split
    · rfl
    · rw [Block.reg_count_ne b 1 hlost]

/-- An event leaves every register but those of the log as it was. -/
theorem logEvent_reg (b : Block) (code kind num data : Nat) {k : Nat} (hk : k ∉ logRegs) :
    (b.logEvent code kind num data).reg k = b.reg k := by
  unfold Block.logEvent
  dsimp only
  split
  · split
    · rfl
    · exact logNew_reg b _ _ _ _ hk
  · exact logNew_reg b _ _ _ _ hk

theorem logUnstated_reg (b : Block) (kind num : Nat) {k : Nat} (hk : k ∉ logRegs) : (b.logUnstated kind num).reg k = b.reg k :=
  logEvent_reg _ _ _ _ _ hk

/-- The DATA of an entry on a late completion holds both counts, both statuses and the tag, each in its field. -/
theorem lateData_fields (beats status tag done st : Nat) (hb : beats < 128) (hs : status < 16) (ht : tag < 1024) (hd : done < 128) :
    let x := beats + status * 2 ^ 8 + tag * 2 ^ 16 + done * 2 ^ 32 + st * 2 ^ 44
    bitsOf x 6 0 = beats ∧ bitsOf x 11 8 = status ∧ bitsOf x 31 16 = tag ∧ bitsOf x 38 32 = done ∧ bitsOf x 47 44 = st % 16 := by
  simp only [bitsOf, Nat.shiftRight_eq_div_pow]
  omega

/-- A late completion changes nothing but the log and its count (R28). -/
theorem late_eq (b : Block) (ini tag status beats : Nat) :
    b.late ini tag status beats = (b.count Reg.lateCompletions 1).logNew 0x0403 0 ini
      (beats % 128 + status % 16 * 2 ^ 8 + tag * 2 ^ 16 + (b.ledgerAt ini tag).beatsDone % 128 * 2 ^ 32 +
        (b.ledgerAt ini tag).status * 2 ^ 44) := by
  unfold Block.late
  exact logEvent_single _ (by decide) _ _ _

/-- Settles O28: LATE_COMPLETION counts and makes one entry of code 0x0403, of severity 1. -/
theorem lateCompletion : Obligations.LateCompletion := by
  intro s ini tag status beats hc hi ht hl
  have hsev : logSeverity 0x0403 = 1 := by decide
  have hmin (b : Block) : (b.count Reg.lateCompletions 1).reg Reg.logMinSeverity = b.reg Reg.logMinSeverity :=
    Block.reg_count_ne b 1 (by decide)
  refine ⟨s.becomes (s.blk.late ini tag (Status.received (status % 16)) (beats % 128)), ?_, rfl, ?_, ?_, ?_, ?_, ?_, ?_, fun hm => ?_, fun hm => ?_⟩
  · have hopen : ((s.blk.ledgerAt ini tag).state != .opened) = true := by simpa using hl
    exact State.answers (by simp [hi, ht]) (if_pos (by simp [hc, hopen]))
  iterate 5 simp [late_eq]
  · rw [State.becomes_blk, Block.late, logEvent_reg _ _ _ _ _ (by decide), Block.reg_count]
  · rw [State.becomes_blk, late_eq]
    refine ⟨_, logNew_head (by rw [hmin, hsev]; exact hm) (by decide) _ _ _, rfl, rfl, rfl, ?_⟩
    have hf := lateData_fields (beats % 128) (Status.received (status % 16)) tag ((s.blk.ledgerAt ini tag).beatsDone % 128)
      (s.blk.ledgerAt ini tag).status (Nat.mod_lt _ (by decide)) (received_lt _) ht (Nat.mod_lt _ (by decide))
    simpa [Block.entry, Nat.mod_eq_of_lt (received_lt _)] using hf
  · rw [State.becomes_blk, late_eq, logNew_below (by rw [hmin, hsev]; exact hm), Block.count_health]

end Sys2Proof.Machine
end

section
/-! PROOFS. A run's END (R125) that comes while a phase change of the run waits for its switch (R204): the contexts asked for it are
given up with the end. -/

namespace Sys2Proof.Machine

open Sys2Proof

/-- Run 7 in region 0, which waits for the switch to its next phase in slot 1, while its design presents END with STATUS OK at the edge
just taken. -/
def endsInPhaseChange : Block :=
  { clk := { mode := .run, lastEdge := some 0 }
    regs := [(Reg.run 0, 7), (Reg.spanAnchor 0, 0)]
    rgn := { edgeAt := [(0, some 0)], fb := [(0, 2 ^ 869)] }
    disp := { runs := [(7, { state := .switching, set := [0], nextPhase := 1, nextSlots := [1] })] } }

/-- The slots of the phase change that a run waits for, after a command. -/
def nextSlotsAfter (run : Nat) : Host.Outcome State Fault Refusal → List Nat
  | .next u => (u.blk.runAt run).nextSlots
  | _ => []

/-- An END drops the slots of the phase change that its run waits for. -/
theorem doneEnd_drops_nextSlots : nextSlotsAfter 7 (exec (.doneEnd 0 0 0) { pending := [], blk := endsInPhaseChange }) = [] := by
  decide +kernel

/-- Refutes O21: the clause on END leaves the run's next slots as they are, and a run that waits for the switch of a phase change has
some; its END drops them. -/
theorem not_ringsComplete : ¬ Obligations.RingsComplete := by
  intro h
  obtain ⟨-, -, -, -, hdone, -⟩ := h { pending := [], blk := endsInPhaseChange } 0 0 0 endsInPhaseChange
    (Block.at_past _ (by decide)) (by decide) (by decide)
  obtain ⟨hend, -⟩ := hdone 0 7 0 (by decide) (by decide +kernel) (by decide +kernel) (by decide +kernel) (by decide +kernel)
    (by decide +kernel) (by decide +kernel) (by decide +kernel) (by decide +kernel)
  have hkept : nextSlotsAfter 7 (exec (.doneEnd 0 0 0) { pending := [], blk := endsInPhaseChange }) = [1] := by
    rw [hend 0 (by decide)]
    decide +kernel
  rw [doneEnd_drops_nextSlots] at hkept
  exact absurd hkept (by decide)

end Sys2Proof.Machine
end

section
/-! PROOFS. Placement: what PREEMPTION and PREEMPT_CANCEL do in each case of R199 to R201, R203 and R214. -/

namespace Sys2Proof.Machine

open Sys2Proof

/-! PREEMPTION of a run whose drain is complete (R203, R214). -/

section
variable {b : Block} {v : Nat} (hstate : (b.runAt v).state = .preempting) (hdone : (b.runAt v).done = none)
  (hret : (b.runAt v).retiring = none) (hdrained : b.drained v = true)
include hstate hdone hret hdrained

/-- A run that yielded leaves to the tail of its list. -/
theorem preemption_yielded (hy : (b.runAt v).yielded = true) : b.preemption v = (b.park v true).refreshBorders := by
  unfold Block.preemption
  simp [hstate, hdone, hret, hdrained, hy]

/-- A run that the host preempts leaves to the head of its list, and ends the host's command where that is still under way. -/
theorem preemption_host (hy : (b.runAt v).yielded = false) (hh : (b.runAt v).hostPreempt = true) :
    b.preemption v = (let c := ((b.park v false).count Reg.preemptions 1).refreshBorders
      if c.disp.hcmd.any (fun h => h.kind == 3 && h.run == v) then c.endHostPreempt v Status.ok else c) := by
  unfold Block.preemption
  simp [hstate, hdone, hret, hdrained, hy, hh]

end

/-! PREEMPTION of a running run for a reservation (R199, R200). -/

section
variable {b : Block} {v k : Nat} {q : Reservation} (hstate : (b.runAt v).state = .running) (htick : b.clock % tick = 0)
  (hmode : b.fmode fnPlacement = 0) (hq : b.reservationOver v = some q) (hk : b.servant (b.runAt q.run).home = some k)
  (hqual : b.qualifies k v q.run = true) (hx : (b.runAt q.run).state = .ready ∨ (b.runAt q.run).state = .preempted)
include hstate htick hmode hq hk hqual hx

/-- A run that qualifies is preempted once the contexts of the preempting run are staged, and they are staged first. -/
theorem preemption_reserved : b.preemption v =
    if (b.runAt q.run).staging = true ∧ (b.runAt q.run).set = q.set then
      if b.staged q.run then b.raisePreempt k q.run q.set ((b.holders q.set).filter (fun y => b.qualifies k y q.run))
      else if q.set.any b.staging then b else b.stagePreempt k q.run q.set
    else b.stagePreempt k q.run q.set := by
  unfold Block.preemption
  simp [hstate, htick, hmode, hq, hk, hqual, hx]

end

/-! PREEMPT_CANCEL (R201, R214). -/

theorem preemptCancel_due {b : Block} {v : Nat} (hd : b.cancelDue v = true) (hl : b.hostLate v = false) :
    b.preemptCancel v = b.cancelPreempt v := by
  unfold Block.preemptCancel
  simp [hd, hl]

theorem preemptCancel_late {b : Block} {v : Nat} (hl : b.hostLate v = true) :
    b.preemptCancel v = (if b.cancelDue v then b.cancelPreempt v else b).endHostPreempt v Status.timeout := by
  unfold Block.preemptCancel
  simp [hl]

/-! SWITCH_EDGE (R72, R204). -/

theorem switchEdge_of {b : Block} {r : Nat} {q : SwitchReq} (hq : b.switchOf r = some q) :
    b.switchEdge r = ((q.regions.foldl (b.switchRegion q) b).endSwitch q Status.ok).refreshBorders := by
  unfold Block.switchEdge
  rw [hq]

/-- A switch that no run asked for only exchanges the planes. -/
theorem takeSwitch_plain {b : Block} {r : Nat} {q : SwitchReq} (hq : b.switchOf r = some q) (hn : q.run = none) :
    b.takeSwitch r = b.switchEdge r := by
  unfold Block.takeSwitch
  rw [hq]
  simp only [hn]

/-- The run whose phase change the switch was goes on in its new phase. -/
theorem takeSwitch_phase {b : Block} {r x : Nat} {q : SwitchReq} (hq : b.switchOf r = some q) (hx : q.run = some x) :
    b.takeSwitch r = (if ((b.switchEdge r).runAt x).state = .switching ∧ ((b.switchEdge r).runAt x).nextSlots ≠ [] then
      ((b.switchEdge r).phaseDone x).refreshBorders else b.switchEdge r) := by
  unfold Block.takeSwitch
  rw [hq]
  simp [hx]

/-- Settles O23: each command of placement falls under its conditions, and does what the case of its rule says. -/
theorem placementCompletes : Obligations.PlacementCompletes := by
  intro s t b hb hc
  refine ⟨fun k hk hs hr hf => ?_, fun k prio hk hp hr => ?_, fun run hrun hst => ?_, fun r q hr hst hq => ?_,
    fun run hrun hstate hdone hret hdr hf => ?_, fun run q k hrun hstate htick hmode hq hk hqual hf hx => ?_, fun run hrun hw => ?_⟩
  · exact State.answers hk (Block.eventIf_falls hb hc (by simp [hs, hr]) (Block.unlessWiped_falls hf))
  · intro freed hf
    exact State.answers (by simp [hk, hp]) (Block.eventIf_falls hb hc hr (Block.unlessWiped_falls hf))
  · exact State.answers hrun (Block.eventIf_falls hb hc hst rfl)
  · have hfall (c : Block) (h : b.takeSwitch r = c) : exec (.switchEdge r t) s = .next (s.becomes c) :=
      State.answers hr (Block.eventIf_falls hb hc hst h)
    rw [← switchEdge_of hq]
    refine ⟨fun hn => hfall _ (takeSwitch_plain hq hn), fun x hx hs hn => hfall _ ?_, fun x hx hs => hfall _ ?_⟩
    · rw [takeSwitch_phase hq hx, if_pos ⟨hs, hn⟩]
    · rw [takeSwitch_phase hq hx, if_neg (fun ⟨h, hn⟩ => hs.elim (· h) hn)]
  · have hfall (c : Block) (h : b.unstalled.preemption run = c) : exec (.preemption run t) s = .next (s.becomes c) :=
      State.answers hrun (Block.event_falls hb hc ((Block.unlessWiped_falls hf).trans h))
    have hdr' : b.unstalled.drained run = true := hdr
    refine ⟨fun hy => hfall _ (preemption_yielded hstate hdone hret hdr' hy), fun hy hh => ?_⟩
    have hcase := preemption_host (b := b.unstalled) hstate hdone hret hdr' hy hh
    refine ⟨fun hn => hfall _ (hcase.trans ?_), fun h hsome hkind hrun' => hfall _ (hcase.trans ?_)⟩
    · simp [hn]
    · simp [hsome, hkind, hrun', Block.endHostPreempt]
  · have hfall (c : Block) (h : b.unstalled.preemption run = c) : exec (.preemption run t) s = .next (s.becomes c) :=
      State.answers hrun (Block.event_falls hb hc ((Block.unlessWiped_falls hf).trans h))
    have hcase := preemption_reserved (b := b.unstalled) hstate htick hmode hq hk hqual hx
    refine ⟨fun hs he hstaged => hfall _ (hcase.trans ?_), fun hs he hstaged hany => hfall _ (hcase.trans ?_),
      fun hs => hfall _ (hcase.trans ?_)⟩
    · simp [hs, he, hstaged]
    · simp [hs, he, hstaged, hany]
    · simp [hs]
  · have hfall (c : Block) (h : b.preemptCancel run = c) : exec (.preemptCancel run t) s = .next (s.becomes c) :=
      State.answers hrun (State.limit_done hw (Block.event_falls hb hc h))
    refine ⟨fun hd hl => ⟨fun x hx => hfall _ ?_, fun hn => hfall _ ?_⟩, fun hl => hfall _ ?_⟩
    · rw [preemptCancel_due hd hl, Block.cancelPreempt, hx]
    · rw [preemptCancel_due hd hl, Block.cancelPreempt, hn]
    · exact preemptCancel_late hl

end Sys2Proof.Machine
end

section
/-! PROOFS. Migration (R220 to R240): each command falls under its conditions. -/

namespace Sys2Proof.Machine

open Sys2Proof

/-- An engine's work that falls at its time and meets no wipe (R155) is done on the block as its work finds it. -/
theorem Block.event_unwiped {a b : Block} {t : Nat} {f : Block → Block} (hb : a.at t = b) (hc : b.clocked = true)
    (hf : b.fallsNow f = true) : a.event t (fun b => b.unlessWiped f) = f b.unstalled :=
  Block.event_falls hb hc (Block.unlessWiped_falls hf)

/-- Settles O26: each command of migration falls under the conditions of its rule. -/
theorem migrationCompletes : Obligations.MigrationCompletes := by
  intro s t b hb hc
  refine ⟨fun k entry die hk hd he => ?_, fun hdue => ?_, fun frame hs _ h0 => ?_, fun frame hs _ h0 => ?_, fun v hs h0 => ?_,
    fun k r m hk _ _ _ hf => ?_, fun m j cause hm _ _ _ hf => ?_, fun m hm hdue hw => ?_, fun m hs h0 => ?_, fun m j hm _ hf => ?_,
    fun v hs h0 hf => ?_, fun bank hbank h2 hf => ?_⟩
  · exact State.answers (by rw [hk, hd, decide_eq_true he]; rfl) (Block.event_falls hb hc rfl)
  · exact State.answers rfl (Block.eventIf_falls hb hc hdue rfl)
  · exact State.answers rfl (Block.host_done hs h0)
  · exact State.answers rfl (Block.host_done hs h0)
  · exact State.answers rfl (Block.host_done hs h0)
  · exact State.answers hk (Block.event_unwiped hb hc hf)
  · exact State.answers hm (Block.event_unwiped hb hc hf)
  · exact State.answers hm (State.limit_done hw (Block.eventIf_falls hb hc hdue rfl))
  · subst hb
    exact State.answers rfl (Block.host_done hs h0)
  · exact State.answers hm (Block.event_unwiped hb hc hf)
  · subst hb
    exact State.answers rfl ((Block.unlessWiped_falls hf).trans (Block.host_done hs h0))
  · exact State.answers hbank (Block.eventIf_falls hb hc (by simpa using h2) (Block.unlessWiped_falls hf))

end Sys2Proof.Machine
end

section
/-! PROOFS. The times of a link (R325 to R342), routes and swarm time (R345 to R353). -/

namespace Sys2Proof.Machine

open Sys2Proof

/-- An event of a link falls on it with what has come due there settled, and the link then sends what it may. -/
theorem Block.linkEvent_falls {a b : Block} {lk t : Nat} {f : Block → Block} (hb : a.at t = b) (hc : b.clocked = true)
    (hl : b.startsLink lk = true) : a.linkEvent lk t f = (f (b.settleLink lk)).pumpLink lk :=
  Block.event_falls hb hc (if_pos hl)

/-- An event of a link whose condition holds falls. -/
theorem Block.linkEventIf_falls {a b : Block} {lk t : Nat} {p : Block → Bool} {f : Block → Block} (hb : a.at t = b)
    (hc : b.clocked = true) (hl : b.startsLink lk = true) (hp : p (b.settleLink lk) = true) :
    a.linkEventIf lk t p f = (f (b.settleLink lk)).pumpLink lk :=
  (Block.linkEvent_falls hb hc hl).trans (by simp only [hp, if_true])

/-- Settles O37: each time of a link that has run out has its effect. -/
theorem linkTimersComplete : Obligations.LinkTimersComplete := by
  intro s t lk b hb hc hlk hl c x
  refine ⟨fun ha => ?_, fun hdue => ?_, fun hi hs => ?_, fun hi h0 hs hw => ?_, fun h0 hs ha => ?_, fun hd ha hs hw => ?_,
    fun hr ha hs hw => ?_, fun ha hs => ?_, fun hh hi hs hw => ?_, fun hh hi h0 hs hdark hw => ?_, fun v hs h0 => ?_⟩
  · exact State.answers hlk (Block.linkEventIf_falls hb hc hl (beq_iff_eq.2 ha))
  · exact State.answers hlk (Block.linkEventIf_falls hb hc hl hdue)
  · exact State.answers hlk (Block.linkEventIf_falls hb hc hl (by simpa using ⟨hi, hs⟩))
  · exact State.answers hlk (State.limit_done hw (Block.linkEventIf_falls hb hc hl (by simpa using ⟨hi, h0, hs⟩)))
  · exact State.answers hlk (Block.linkEventIf_falls hb hc hl (by simpa using ⟨⟨h0, hs⟩, ha⟩))
  · exact State.answers hlk (State.limit_done hw (Block.linkEventIf_falls hb hc hl (by simpa using ⟨⟨hd, ha⟩, hs⟩)))
  · exact State.answers hlk (State.limit_done hw (Block.linkEventIf_falls hb hc hl (by simpa using ⟨⟨by simpa using hr, ha⟩, hs⟩)))
  · exact State.answers hlk (Block.linkEventIf_falls hb hc hl (by simpa using ⟨ha, hs⟩))
  · exact State.answers hlk (State.limit_done hw (Block.linkEventIf_falls hb hc hl (by simpa using ⟨⟨hh, hi⟩, hs⟩)))
  · exact State.answers hlk (State.limit_done hw (Block.linkEventIf_falls hb hc hl
      (by simpa using ⟨⟨⟨hh, hi⟩, h0, hs⟩, by simpa using hdark⟩)))
  · subst hb
    refine State.answers rfl ?_
    rw [Block.hostLink, if_pos hlk, Block.host_done hs h0]

/-- Settles O38: each event of routes and swarm time falls under its condition. -/
theorem swarmCompletes : Obligations.SwarmCompletes := by
  intro s t b hb hc
  refine ⟨fun node lk hn hlk h0 hs => ?_, fun node hn => ?_, fun node hn hd => ?_, fun v hs h0 => ?_, fun frac hs => ?_,
    fun id at' hsent hs hw => ?_⟩
  · exact State.answers (by rw [hn, hlk]; rfl) (Block.eventIf_falls hb hc (decide_eq_true ⟨h0, hs⟩) rfl)
  · exact State.answers hn (Block.event_falls hb hc rfl)
  · exact State.answers hn (Block.eventIf_falls hb hc hd rfl)
  · exact State.answers rfl (Block.host_done hs h0)
  · exact State.answers rfl (Block.eventIf_falls hb hc (decide_eq_true hs) rfl)
  · exact State.answers rfl (State.limit_done hw (Block.eventIf_falls hb hc (by simpa [hsent] using hs) rfl))

end Sys2Proof.Machine
end

section
/-! PROOFS. The wake governor (R430 to R433) and the fabric divider (R420). -/

namespace Sys2Proof.Machine

open Sys2Proof

/-- Settles O39: each event of the governor falls under its conditions, and the host's writes have their effects. -/
theorem governorCompletes : Obligations.GovernorCompletes := by
  intro s t b hb hc
  refine ⟨fun htick => ?_, fun r prio hr hp hs hret => ?_, fun l prio hl hp hs hoff hwake hen => ?_, fun v hs h0 => ?_,
    fun rail unit hrail hunit hmode hw => ?_, fun v hs h0 => ?_⟩
  · exact State.answers rfl (Block.eventIf_falls hb hc (beq_iff_eq.2 htick) rfl)
  · refine State.answers ?_ (Block.event_falls hb hc ?_)
    · simp [wfRail, hr, hp]
    · simp [Block.wakeUnit, hs, hret]
  · refine State.answers ?_ (Block.event_falls hb hc ?_)
    · simp [wfRail, hl, hp]
    · simp [Block.wakeUnit, hs, hoff, hwake, hen]
  · refine State.answers rfl ((Block.host_done (f := fun b => b.writeWgGrant v) hs h0).trans ?_)
    unfold Block.writeWgGrant at h0 ⊢
    rw [Block.guarded_ok _ _ _ h0]
  · refine State.answers ?_ (State.limit_done hw (Block.eventIf_falls hb hc (beq_iff_eq.2 hmode) rfl))
    rw [hrail, hunit]
    rfl
  · subst hb
    refine State.answers rfl ((Block.host_done (f := fun b => b.writeFabricDiv v) hs h0).trans ?_)
    unfold Block.writeFabricDiv at h0 ⊢
    rw [Block.guarded_ok _ _ _ h0]
    rfl

end Sys2Proof.Machine
end

section
/-! PROOFS. Commits (R407 to R417): what each message, reply and window edge does to the commit that runs. -/

namespace Sys2Proof.Machine

open Sys2Proof

/-! Replies of units (R410). -/

section
variable {b : Block} {u : Nat} {c : CommitRun} (hrun : b.commit.run = some c) (hab : b.unitAbsent u = false)
  (hs : c.unitSince.isSome = true) (hw : replyOf (b.reg Reg.unitReplies) u = rcAwaited)
include hrun hab hs hw

/-- A unit in reach that replies STAGED, or whose shadow does, is counted; the last of them decides. -/
theorem unitReply_staged (code : Nat) :
    b.unitReply u rcStaged code = (let d := b.setReg Reg.unitReplies (putReply (b.reg Reg.unitReplies) u rcStaged)
      if d.unitsStaged = true then d.allStaged c else d) := by
  have hsince : c.unitSince.isNone = false := by simpa using hs
  have hcode : (if rcStaged = rcAbsent then 0 else if b.shadowed u = true then rcStaged else rcStaged) = rcStaged := by
    rw [if_neg (by decide), ite_self]
  unfold Block.unitReply
  simp only [hab, Bool.false_eq_true, if_false, hcode, hrun, hsince, hw]
  simp

/-- A unit that takes part itself and replies REFUSED aborts a local commit. -/
theorem unitReply_refused (hp : c.part = false) (hsh : b.shadowed u = false) (code : Nat) :
    b.unitReply u rcRefused code = (b.setReg Reg.unitReplies (putReply (b.reg Reg.unitReplies) u rcRefused)).decideAbort c false u
      (refusalCode rcRefused code) := by
  have hsince : c.unitSince.isNone = false := by simpa using hs
  have hcode : (if rcRefused = rcAbsent then 0 else if b.shadowed u = true then rcStaged else rcRefused) = rcRefused := by
    rw [if_neg (by decide), hsh]
    rfl
  have hne : rcRefused ≠ rcStaged := by decide
  unfold Block.unitReply
  simp only [hab, Bool.false_eq_true, if_false, hcode, hrun, hsince, hw, hp]
  simp [hne]

end

/-! The window edge (R410, R414). -/

theorem commitWindow_units {b heard : Block} {c : CommitRun} (hrun : b.commit.run = some c) (hu : b.windowOver c.unitSince 100 = true) :
    b.commitWindow heard = b.unitWindow c heard := by
  unfold Block.commitWindow
  simp only [hrun, hu, if_true]

theorem commitWindow_nodes {b heard : Block} {c : CommitRun} (hrun : b.commit.run = some c) (hu : b.windowOver c.unitSince 100 = false)
    (hn : b.windowOver c.nodeSince (b.reg Reg.swarmWindowUs) = true) : b.commitWindow heard = b.nodeWindow c heard := by
  unfold Block.commitWindow
  simp only [hrun, hu, hn, Bool.false_eq_true, if_false, if_true]

/-! The messages of a swarm commit (R414 to R416). -/

/-- A PREPARE of a later epoch that finds no commit running begins one here as participant. -/
theorem prepare_begins {b : Block} {epoch : Nat} (groups coord : Nat) (hrun : (b.epochAnswer 0x10 none).commit.run = none)
    (he : (b.epochAnswer 0x10 none).reg Reg.lastEpoch < epoch) :
    b.prepare epoch groups coord = ((b.epochAnswer 0x10 none).beginCommit.setRegs
      [(Reg.partEpoch, epoch), (Reg.partCoord, coord)]).prepareUnits { epoch := epoch, groups := groups, part := true } := by
  unfold Block.prepare
  simp [hrun, Abort.first, Nat.not_le.2 he]

/-- An ABORT_EPOCH of the epoch that a participant stages or holds discards the change. -/
theorem abortEpoch_discards {b : Block} {epoch : Nat} {c : CommitRun}
    (hrun : (b.epochAnswer 0x12 (some (0x92, []))).commit.run = some c) (hp : c.part = true) (he : c.epoch = epoch)
    (ha : c.applyAt = none) : b.abortEpoch epoch = (b.epochAnswer 0x12 (some (0x92, []))).discardHeld c := by
  unfold Block.abortEpoch
  simp [hrun, hp, he, ha]

/-- COMMIT_RESOLVE in doubt is not aborted, and ends the doubt as its value says. -/
theorem writeResolve_doubt {b : Block} {v : Nat} {c : CommitRun} (hv : checkValue Reg.commitResolve v = Abort.none)
    (hp : b.reg Reg.partState = 2) (hrun : b.commit.run = some c) :
    b.writeResolve v = (Abort.none, let d := b.count Reg.resolves 1
      if v = 1 then d.applyHeld c (d.epochAfter 0) false else d.discardHeld c) := by
  unfold Block.writeResolve
  rw [Block.guarded_ok]
  · simp only [hrun]
  · simp [Block.guarded, badValue, hv, hp, Abort.first]

/-- Settles O42: each event of a commit falls, and does to the commit what its rule says. -/
theorem commitsComplete : Obligations.CommitsComplete := by
  intro s t b hb hc
  refine ⟨fun v hs h0 => ?_, fun c hrun u code hu hab hsince hp hw => ?_, fun hwon => ?_, fun c hdue => ?_, fun hrun x rest hwait => ?_,
    fun hrun x due rest hretry hdue => ?_, ?_, fun node epoch reply code hn => ?_, fun epoch applyAt c hh => ?_, ?_,
    fun node epoch hn hs => ?_, fun epoch applyAt c hh ha => ?_, fun hdue hw => ?_, fun hs hp c hrun => ?_,
    fun node epoch applied hn => ?_⟩
  · subst hb
    exact State.answers rfl (Block.host_done hs h0)
  · refine ⟨?_, fun hsh => ?_⟩
    · exact State.answers hu (Block.event_falls hb hc (unitReply_staged hrun hab hsince hw code))
    · exact State.answers hu (Block.event_falls hb hc (unitReply_refused hrun hab hsince hw hp hsh code))
  · refine ⟨fun c hrun hu => ?_, fun c hrun hu hn => ?_⟩
    · exact State.answers rfl (State.limit_done hwon (Block.event_falls hb hc (commitWindow_units hrun hu)))
    · exact State.answers rfl (State.limit_done hwon (Block.event_falls hb hc (commitWindow_nodes hrun hu hn)))
  · exact State.answers rfl (Block.event_falls hb hc (by rw [hdue]))
  · exact State.answers rfl (Block.eventIf_falls hb hc (by rw [hrun]; rfl) (by rw [Block.deviceCommit, hwait]))
  · exact State.answers rfl (Block.eventIf_falls hb hc (by rw [hrun]; rfl) (by rw [Block.commitRetry, hretry]; exact if_pos hdue))
  · intro d epoch groups coord hn hrun he
    exact State.answers hn (Block.event_falls hb hc (prepare_begins groups coord hrun he))
  · exact State.answers hn (Block.event_falls hb hc rfl)
  · exact State.answers rfl (Block.event_falls hb hc (by rw [Block.applyMessage, hh]))
  · intro d epoch c hrun hp he ha
    exact State.answers rfl (Block.event_falls hb hc (abortEpoch_discards hrun hp he ha))
  · exact State.answers hn (if_pos hs)
  · exact State.answers rfl (Block.event_falls hb hc (by simp [Block.queryOk, hh, ha]))
  · exact State.answers rfl (State.limit_done hw (Block.eventIf_falls hb hc hdue rfl))
  · subst hb
    have h1 := writeResolve_doubt (v := 1) (by decide +kernel) hp hrun
    have h2 := writeResolve_doubt (v := 2) (by decide +kernel) hp hrun
    refine ⟨State.answers rfl ((Block.host_of _ _ hs).trans ?_), State.answers rfl ((Block.host_of _ _ hs).trans ?_)⟩
    · rw [h1]
      rfl
    · rw [h2]
      rfl
  · exact State.answers hn (Block.event_falls hb hc rfl)

end Sys2Proof.Machine
end

section
/-! PROOFS. Stack health (R465 to R489). -/

namespace Sys2Proof.Machine

open Sys2Proof

/-- A group that awaits the host is acted on once its limit has come (R471). -/
theorem bondLimit_due {b : Block} {seam group : Nat} {x : Exhausted} (hx : b.awaitsHost seam group = some x)
    (hd : x.e0 + ms (b.reg Reg.hostBondLimitMs) ≤ b.run) : b.bondLimit seam group = b.actOn x := by
  unfold Block.bondLimit
  rw [hx]
  exact if_pos hd

/-- The count of power bond alarms is none of the registers that the log writes. -/
theorem powerBondAlarms_notMem_logRegs : ∀ seam < 6, Reg.powerBondAlarms seam ∉ logRegs := by decide

theorem powerBondAlarm_count (b : Block) {seam : Nat} (h : seam < 6) : (b.powerBondAlarm seam).reg (Reg.powerBondAlarms seam) =
    satAdd (b.reg (Reg.powerBondAlarms seam)) 1 (regTop (Reg.powerBondAlarms seam)) := by
  rw [Block.powerBondAlarm, logUnstated_reg _ _ _ (powerBondAlarms_notMem_logRegs seam h), Block.reg_count]

/-- A record of an octet whose limit has come is closed with TIMEOUT (R331, R484). -/
theorem ledgerTimeout_octet {b : Block} {ini tag : Nat} {e : Egress} (h : 256 ≤ ini) (h' : ini < 320)
    (he : (b.octetLedger (ini - 256))[tag]? = some e) (hd : e.since + us e.limit ≤ b.run) :
    b.ledgerTimeout ini tag = ((((b.closeEgress e).octetAnswer (ini - 256) e Status.timeout e.beats).count Reg.ledgerTimeouts 1).ledgerReport
      ini tag Status.timeout e.beats).retryOctet (ini - 256) := by
  unfold Block.ledgerTimeout
  rw [if_pos ⟨h, h'⟩, he]
  exact if_pos hd

/-- A write of 1 to LOG_CLEAR empties the ring (R489). -/
theorem writeLogClear_one (b : Block) : b.writeLogClear 1 = (Abort.none, { b with health := { b.health with log := [] } }) := by
  have hv : checkValue Reg.logClear 1 = Abort.none := by decide +kernel
  simp [Block.writeLogClear, Block.guarded, badValue, hv, Abort.first]

/-- Settles O44: each event of stack health falls under its conditions. -/
theorem healthCompletes : Obligations.HealthCompletes := by
  intro s t b hb hc
  refine ⟨fun seam group visits hs hg hi => ?_, fun visits hs h0 => ?_, fun htick => ?_, fun hs h0 => ?_,
    fun seam group x hs hx hd hw => ?_, fun seam hs => ⟨?_, ?_⟩, fun die k hd hk _ _ _ => ?_, fun htick => ?_,
    fun die k hd hk _ _ => ?_, fun die hd _ => ?_, fun ini tag hi ht _ _ _ hw => ?_, fun ini tag e h h' ht he hd hw => ?_,
    fun hs => ?_, fun v hs h0 => ?_, fun h hh => ?_⟩
  · exact State.answers (by rw [hs, decide_eq_true hg]; rfl) (Block.eventIf_falls hb hc hi rfl)
  · subst hb
    exact State.answers rfl (Block.host_done hs h0)
  · exact State.answers rfl (Block.eventIf_falls hb hc (beq_iff_eq.2 htick) rfl)
  · subst hb
    exact State.answers rfl (Block.host_done hs h0)
  · exact State.answers hs (State.limit_done hw (Block.event_falls hb hc (bondLimit_due hx hd)))
  · exact State.answers hs (Block.event_falls hb hc rfl)
  · exact powerBondAlarm_count b (of_decide_eq_true hs)
  · exact State.answers (by rw [hd, decide_eq_true hk]; rfl) (Block.event_falls hb hc rfl)
  · exact State.answers rfl (Block.eventIf_falls hb hc (beq_iff_eq.2 htick) rfl)
  · exact State.answers (by rw [hd, decide_eq_true hk]; rfl) (Block.event_falls hb hc rfl)
  · exact State.answers hd (Block.event_falls hb hc rfl)
  · exact State.answers (by rw [hi, decide_eq_true ht]; rfl) (State.limit_done hw (Block.event_falls hb hc rfl))
  · refine State.answers ?_ (State.limit_done hw (Block.event_falls hb hc (ledgerTimeout_octet h h' he hd)))
    have hi : wfInitiator ini = true := decide_eq_true (by omega)
    rw [hi, decide_eq_true ht]
    rfl
  · refine State.answers rfl ((Block.host_of _ _ hs).trans ?_)
    rw [writeLogClear_one]
  · subst hb
    exact State.answers rfl (Block.host_done hs h0)
  · exact State.answers rfl (Block.event_falls hb hc (by rw [Block.handoverEnd, hh]; rfl))

end Sys2Proof.Machine
end

section
/-! PROOFS. What an access to user memory leaves alone: the clocks with the resets, and the configuration. -/

namespace Sys2Proof.Machine

open Sys2Proof

/-- The clocks and the configuration of a block. -/
def Block.clkCfg (b : Block) : Clk × Cfg := (b.clk, b.cfg)

@[simp] theorem Block.setReg_clkCfg (b : Block) (k v : Nat) : (b.setReg k v).clkCfg = b.clkCfg := rfl

@[simp] theorem Block.count_clkCfg (b : Block) (k d : Nat) : (b.count k d).clkCfg = b.clkCfg := rfl

@[simp] theorem Block.logEvent_clkCfg (b : Block) (code kind num data : Nat) : (b.logEvent code kind num data).clkCfg = b.clkCfg := by
  simp [Block.clkCfg]

@[simp] theorem Block.setBankState_clkCfg (b : Block) (bank st : Nat) : (b.setBankState bank st).clkCfg = b.clkCfg :=
  (Block.setReg b (Reg.bankState bank) st).logEvent_clkCfg 0x0301 2 bank st

@[simp] theorem Block.setLineState_clkCfg (b : Block) (l : Nat) (v p : Bool) : (b.setLineState l v p).clkCfg = b.clkCfg := rfl

@[simp] theorem Block.writeColumn_clkCfg (b : Block) (l w x : Nat) : (b.writeColumn l w x).clkCfg = b.clkCfg := rfl

@[simp] theorem Block.invalidate_clkCfg (b : Block) (l : Nat) (i : Option Nat) : (b.invalidate l i).clkCfg = b.clkCfg := rfl

@[simp] theorem Block.storeWords_clkCfg (b : Block) (l d : Nat) : (b.storeWords l d).clkCfg = b.clkCfg := by
  unfold Block.storeWords
  exact foldl_keeps Block.clkCfg _ (fun b i => b.writeColumn_clkCfg l _ _) _ b

@[simp] theorem Block.retireLimit_clkCfg (b : Block) (bank : Nat) : (b.retireLimit bank).clkCfg = b.clkCfg := by
  unfold Block.retireLimit
  split
  · simp
  · rfl

@[simp] theorem Block.notePosition_clkCfg (b : Block) (bank l j : Nat) : (b.notePosition bank l j).clkCfg = b.clkCfg := by
  unfold Block.notePosition
  dsimp only
  split
  · rfl
  · split <;> rfl

@[simp] theorem Block.readWord_clkCfg (b : Block) (l i : Nat) : (b.readWord l i).2.2.clkCfg = b.clkCfg := by
  unfold Block.readWord
  dsimp only
  split
  · rfl
  · rfl
  · split
    · rfl
    · rw [foldl_keeps Block.clkCfg _ (fun b j => b.notePosition_clkCfg _ l j), Block.count_clkCfg]
      split <;> rfl

@[simp] theorem Block.readWords_clkCfg (b : Block) (l n : Nat) : (b.readWords l n).2.2.clkCfg = b.clkCfg := by
  induction n with
  | zero => rfl
  | succ n ih => exact (Block.readWord_clkCfg _ l n).trans ih

@[simp] theorem Block.voteLine_clkCfg (b : Block) (l : Nat) : (b.voteLine l).2.2.clkCfg = b.clkCfg := by
  unfold Block.voteLine
  dsimp only
  split <;> rfl

@[simp] theorem Block.newUe_clkCfg (b : Block) (l n : Nat) : (b.newUe l n).clkCfg = b.clkCfg := by
  unfold Block.newUe
  dsimp only
  split
  · rfl
  · simp

@[simp] theorem Block.afterRead_clkCfg (b : Block) (l : Nat) : (b.afterRead l).clkCfg = b.clkCfg := by
  unfold Block.afterRead
  split
  · simp
  · rfl

@[simp] theorem Block.noteState_clkCfg (b : Block) (l : Nat) (was now : Bool) : (b.noteState l was now).clkCfg = b.clkCfg := by
  unfold Block.noteState
  dsimp only
  split
  · rfl
  · split
    · rfl
    · split <;> rfl

@[simp] theorem Block.writeLine_clkCfg (b : Block) (l data mask : Nat) (poison : Bool) (i : Option Nat) :
    (b.writeLine l data mask poison i).2.clkCfg = b.clkCfg := by
  unfold Block.writeLine
  dsimp only
  split
  · simp
  · split
    · simp
    · rw [Block.noteState_clkCfg, Block.storeWords_clkCfg]
      split <;> simp

@[simp] theorem Block.readLine_clkCfg (b : Block) (l : Nat) : (b.readLine l).2.2.clkCfg = b.clkCfg := by
  have hvote := b.voteLine_clkCfg l
  unfold Block.readLine
  split
  next hv => rw [hv] at hvote; exact hvote
  next hv =>
    rw [hv] at hvote
    dsimp only
    split <;> simpa using hvote

theorem Block.writeLine_cfg (b : Block) (l data mask : Nat) (poison : Bool) (i : Option Nat) :
    (b.writeLine l data mask poison i).2.cfg = b.cfg :=
  congrArg Prod.snd (b.writeLine_clkCfg l data mask poison i)

@[simp] theorem Block.writeLine_clk (b : Block) (l data mask : Nat) (poison : Bool) (i : Option Nat) :
    (b.writeLine l data mask poison i).2.clk = b.clk :=
  congrArg Prod.fst (b.writeLine_clkCfg l data mask poison i)

@[simp] theorem Block.readLine_clk (b : Block) (l : Nat) : (b.readLine l).2.2.clk = b.clk :=
  congrArg Prod.fst (b.readLine_clkCfg l)

end Sys2Proof.Machine
end

section
/-! PROOFS. Packages, fuses and attestation (R370, R378 to R383). A failed package's library bytes are zeroed while its command ends. -/

namespace Sys2Proof.Machine

open Sys2Proof

/-! Writes of memory change nothing of the configuration. -/

@[simp] theorem Block.writeBytes_cfg (b : Block) (a n v : Nat) : (b.writeBytes a n v).2.cfg = b.cfg := by
  unfold Block.writeBytes
  refine foldl_keeps (fun acc : Nat × Block => acc.2.cfg) _ (fun acc i => ?_) _ _
  exact Block.writeLine_cfg _ _ _ _ _ _

@[simp] theorem Block.zeroLibrary_cfg (b : Block) (l : List (Nat × Nat)) : (b.zeroLibrary l).cfg = b.cfg := by
  unfold Block.zeroLibrary
  exact foldl_keeps Block.cfg _ (fun b e => b.writeBytes_cfg e.1 e.2 0) l b

/-! PACKAGE_END (R378 to R381). -/

theorem keepFirmware_pkgJob (b : Block) (slot : Nat) (f : Firm) : (b.keepFirmware slot f).cfg.pkgJob = b.cfg.pkgJob := by
  unfold Block.keepFirmware
  by_cases hs : slot = 0 <;> simp only [hs, if_true, if_false] <;> split <;> simp

theorem jobDone_pkgJob (b : Block) (j : PkgJob) (f : Firm) : (b.jobDone j f).cfg.pkgJob = b.cfg.pkgJob := by
  unfold Block.jobDone
  dsimp only
  split
  · rw [Block.setReg_cfg, Block.count_cfg]
  · split
    · exact keepFirmware_pkgJob b 0 f
    · split
      · exact keepFirmware_pkgJob b 1 f
      · split
        · rw [Block.setReg_cfg]
        · rfl

/-- A package command whose package has been read is over once it has reported. -/
theorem packageEnd_pkgJob {b : Block} {j : PkgJob} (hj : b.cfg.pkgJob = some j) (hu : j.unread = false) :
    b.packageEnd.cfg.pkgJob = none := by
  unfold Block.packageEnd
  simp only [hj, hu, Bool.false_eq_true, if_false, Block.setReg_cfg]
  split
  · simp [Block.logPackage]
  · split
    · exact jobDone_pkgJob _ _ _
    · rfl

/-! The host's writes that are not aborted. -/

/-- A package command that is not aborted does what its code says. -/
theorem writePkgCmd_accepted {b : Block} {v : Nat} (h : (b.writePkgCmd v).1 = 0) : (b.writePkgCmd v).2 =
    (if v = 1 then b.installJob 1 2
     else if v = 2 then (if b.reg Reg.fwActive = 0 then b.jobFailed 2 3 6 [] [] else b.installJob 2 3)
     else if v = 3 then (if b.reg Reg.fwActive = 1 then b.jobFailed 3 3 6 [] [] else b.installJob 3 3)
     else if v = 4 then b.installJob 4 4
     else if b.ucodeLoadable (b.reg Reg.pkgScarab) then
       b.openJob { cmd := 5, type := 4, code := 0, status := Status.ok, firm := b.cfg.staged, scarab := b.reg Reg.pkgScarab }
     else b.openJob { cmd := 5, type := 4, code := 0, status := Status.accessDenied }) := by
  unfold Block.writePkgCmd at h ⊢
  rw [Block.guarded_ok _ _ _ h]

/-- A write of 1 to ATTEST_GO while no report is being made starts one. -/
theorem writeAttestGo_idle {b : Block} (h : b.reg Reg.attestStatus < 128) : b.writeAttestGo 1 = (Abort.none,
    { b with cfg := { b.cfg with attest := some (bytesVal b.reportBytes) } }.setReg Reg.attestStatus 0x80) := by
  have hv : checkValue Reg.attestGo 1 = Abort.none := by decide +kernel
  have hbit : (b.reg Reg.attestStatus).testBit 7 = false := Nat.testBit_lt_two_pow h
  simp [Block.writeAttestGo, Block.guarded, badValue, hv, hbit, Abort.first]

/-- Settles O46: each command of packages, fuses and attestation has its effect, and the end of each reports. -/
theorem packagesAndFusesComplete : Obligations.PackagesAndFusesComplete := by
  intro s t b hb hc
  refine ⟨fun hs => ?_, fun j hj hu => ⟨?_, packageEnd_pkgJob hj hu⟩, fun op slot v hjob => ?_, fun r hr => ?_⟩
  · subst hb
    have pkg {v : Nat} {c : Block} (h0 : ((s.blk.at t).writePkgCmd v).1 = 0) (h : ((s.blk.at t).writePkgCmd v).2 = c) :
        (s.blk.at t).host (fun b => b.writePkgCmd v) = c.result 0 := by
      rw [Block.host_done (f := fun b => b.writePkgCmd v) hs h0, h]
    refine ⟨fun h0 => ?_, fun h0 ha => ?_, fun h0 ha => ?_, fun h0 => ?_, fun h0 => ?_, fun h0 => ?_, fun h0 => ?_, fun h0 => ?_,
      fun h0 => ?_, fun h0 => ?_, fun ha => ?_⟩
    · exact State.answers rfl (pkg h0 (writePkgCmd_accepted h0))
    · exact State.answers rfl (pkg h0 ((writePkgCmd_accepted h0).trans (if_neg ha)))
    · exact State.answers rfl (pkg h0 ((writePkgCmd_accepted h0).trans (if_neg ha)))
    · exact State.answers rfl (pkg h0 (writePkgCmd_accepted h0))
    · exact State.answers rfl (pkg h0 rfl)
    iterate 5 exact State.answers rfl (Block.host_done hs h0)
    · refine State.answers rfl ((Block.host_of _ _ hs).trans ?_)
      rw [writeAttestGo_idle ha]
  · exact State.answers rfl (Block.event_falls hb hc rfl)
  · exact State.answers rfl (Block.event_falls hb hc (by rw [Block.fuseDone, hjob]))
  · exact State.answers rfl (Block.event_falls hb hc (by simp only [Block.attestDone, hr, Block.draw]))

end Sys2Proof.Machine
end

section
/-! PROOFS. Configuration (R359 to R377) and the slave ports (R510 to R515). -/

namespace Sys2Proof.Machine

open Sys2Proof

/-- Settles O47: each event of configuration falls under its conditions, and the slave ports answer. -/
theorem configurationCompletes : Obligations.ConfigurationCompletes := by
  intro s t b hb hc
  refine ⟨fun bytes hd => ?_, fun bytes hd hl hp => ?_, fun bytes p hp hl => ?_, fun off bytes ho => ?_, fun hself hi hp hs hw => ?_,
    fun hpush hi hp hs hw => ?_, fun hst htick hs => ?_, fun hch => ?_, fun pcsn pvalid w hm => ?_, fun bytes => ⟨?_, ?_⟩,
    fun hcs hm => ?_⟩
  · exact State.answers rfl (Block.event_falls hb hc (if_pos hd))
  · exact State.answers rfl (Block.event_falls hb hc ((if_neg hd).trans (if_pos (by rw [hl, hp]; rfl))))
  · exact State.answers rfl (Block.event_falls hb hc (by simp only [hp, hl, if_true]))
  · exact State.answers (decide_eq_true ho) (Block.event_falls hb hc rfl)
  · exact State.answers rfl (State.limit_done hw (Block.eventIf_falls hb hc (by rw [hself, hi, hp, decide_eq_true hs]; rfl) rfl))
  · have hbytes : (b.cfg.pkg.isSome || !b.cfg.unit.isEmpty) = true := by simpa using hp
    exact State.answers rfl (State.limit_done hw (Block.eventIf_falls hb hc
      (by rw [hpush, hi, hbytes, decide_eq_true hs]; rfl) rfl))
  · exact State.answers rfl (Block.eventIf_falls hb hc (by rw [hst, htick, decide_eq_true hs]; rfl) rfl)
  · exact State.answers rfl (Block.eventIf_falls hb hc hch rfl)
  · exact State.answers rfl (Block.eventIf_falls hb hc (beq_iff_eq.2 hm) rfl)
  · exact State.answers rfl (Block.event_falls hb hc rfl)
  · exact State.answers rfl (Block.event_falls hb hc rfl)
  · have hport : (s.blk.clocked && s.blk.reg Reg.modePins == 2) = true := by rw [hcs, hm]; rfl
    exact ⟨State.answers rfl (if_pos hport), State.answers rfl (if_pos hport)⟩

end Sys2Proof.Machine
end

section
/-! PROOFS. A die-level reset (R444 to R448). Lowering the fence retries what the fence held back: none of it touches the clocks and the
resets, so the reset under way stays over. -/

namespace Sys2Proof.Machine

open Sys2Proof

/-! Memory changes nothing of the clocks and the resets. -/

@[simp] theorem Block.markChunk_clk (b : Block) (l : Nat) : (b.markChunk l).clk = b.clk := rfl

@[simp] theorem Block.cachePut_clk (b : Block) (p l d : Nat) : (b.cachePut p l d).clk = b.clk := rfl

@[simp] theorem Block.readBytes_clk (b : Block) (a n : Nat) : (b.readBytes a n).2.2.clk = b.clk := by
  unfold Block.readBytes
  refine foldl_keeps (fun acc : Nat × Bool × Block => acc.2.2.clk) _ (fun acc i => ?_) _ _
  exact Block.readLine_clk _ _

@[simp] theorem Block.strayWrite_clk (b : Block) (l : Nat) : (b.strayWrite l).clk = b.clk := by
  unfold Block.strayWrite
  split <;> rfl

@[simp] theorem Block.bankRead_clk (b : Block) (l : Nat) : (b.bankRead l).2.2.clk = b.clk := by
  unfold Block.bankRead
  split
  · rfl
  · split
    · rfl
    · exact b.readLine_clk l

@[simp] theorem Block.bankWrite_clk (b : Block) (l data mask : Nat) (poison : Bool) (i : Option Nat) :
    (b.bankWrite l data mask poison i).2.2.clk = b.clk := by
  unfold Block.bankWrite
  split
  · rfl
  · split
    · rfl
    · dsimp only
      rw [Block.markChunk_clk, Block.writeLine_clk, Block.strayWrite_clk]

@[simp] theorem Block.portRead_clk (b : Block) (r l : Nat) (c : Bool) : (b.portRead r l c).2.2.clk = b.clk := by
  unfold Block.portRead
  dsimp only
  split
  · rfl
  · simp [apply_ite Prod.snd, apply_ite Block.clk]

@[simp] theorem Block.portWrite_clk (b : Block) (r l data mask : Nat) : (b.portWrite r l data mask).2.2.clk = b.clk := by
  unfold Block.portWrite
  dsimp only
  split <;> exact Block.bankWrite_clk _ _ _ _ _ _

/-! The networks and the ledger. -/

@[simp] theorem Block.countBytes_clk (b : Block) (rx : Bool) (net ini units : Nat) : (b.countBytes rx net ini units).clk = b.clk := by
  unfold Block.countBytes
  split <;> rfl

@[simp] theorem Block.countSent_clk (b : Block) (net : Nat) (ini : Option Nat) (units : Nat) :
    (b.countSent net ini units).clk = b.clk := by
  unfold Block.countSent
  split
  · simp
  · rfl

@[simp] theorem Block.enter_clk (b : Block) (net stn port word c cport units : Nat) :
    (b.enter net stn port word c cport units).clk = b.clk := rfl

@[simp] theorem Block.takeOff_clk (b : Block) (net ini tag : Nat) : (b.takeOff net ini tag).clk = b.clk := rfl

@[simp] theorem Block.passWay_clk (b : Block) (net a c units : Nat) : (b.passWay net a c units).clk = b.clk := rfl

@[simp] theorem Block.enterLatency_clk (b : Block) (net ini cycles : Nat) : (b.enterLatency net ini cycles).clk = b.clk := by
  unfold Block.enterLatency
  dsimp only
  split <;> rfl

@[simp] theorem Block.tapTraffic_clk (b : Block) (ini stn beats : Nat) (write : Bool) (st : Nat) :
    (b.tapTraffic ini stn beats write st).clk = b.clk := by
  simp [Block.tapTraffic, apply_ite Block.clk]

@[simp] theorem Block.meets_clk (b : Block) (a n : Nat) : (b.meets a n).clk = b.clk := by
  unfold Block.meets
  split <;> rfl

@[simp] theorem Block.tapRead_clk (b : Block) (ini a n : Nat) : (b.tapRead ini a n).2.2.clk = b.clk := by
  simp [Block.tapRead, apply_ite Prod.snd, apply_ite Block.clk]

@[simp] theorem Block.sendReq_clk (b : Block) (f : Nat) : (b.sendReq f).clk = b.clk := by simp [Block.sendReq]

@[simp] theorem Block.sendRsp_clk (b : Block) (stn port f : Nat) : (b.sendRsp stn port f).clk = b.clk := by simp [Block.sendRsp]

@[simp] theorem Block.sendDat_clk (b : Block) (stn port s : Nat) (beats : List Beat) : (b.sendDat stn port s beats).clk = b.clk := by
  unfold Block.sendDat Block.sendBeats
  dsimp only
  rw [Block.emit_clk, if_pos rfl]
  split <;> simp

@[simp] theorem Block.setLedger_clk (b : Block) (ini tag : Nat) (e : LedgerEntry) : (b.setLedger ini tag e).clk = b.clk := rfl

@[simp] theorem Block.setTag_clk (b : Block) (r tag : Nat) (x : Tag) : (b.setTag r tag x).clk = b.clk := rfl

@[simp] theorem Block.holdRequest_clk (b : Block) (q : HeldReq) : (b.holdRequest q).clk = b.clk := rfl

@[simp] theorem Block.ledgerClose_clk (b : Block) (ini tag status beats : Nat) : (b.ledgerClose ini tag status beats).clk = b.clk := by
  unfold Block.ledgerClose Block.ledgerReport
  dsimp only
  split
  · split <;> simp
  · rfl

@[simp] theorem Block.settleAcks_clk (b : Block) : b.settleAcks.clk = b.clk := by
  unfold Block.settleAcks
  -- `congrArg` has the kernel compare the two blocks; comparing their clocks it would compute the flit.
  exact foldl_keeps Block.clk _ (fun b a => (congrArg Block.clk (by rfl)).trans (b.sendRsp_clk _ _ _)) _ _

@[simp] theorem Block.finishTag_clk (b : Block) (r tag status data beats : Nat) : (b.finishTag r tag status data beats).clk = b.clk := by
  unfold Block.finishTag
  dsimp only
  split
  · simp
  · rfl

/-! Contexts: the orders of a region. -/

@[simp] theorem Block.setDesc_clk (b : Block) (p s : Nat) (d : SlotDesc) : (b.setDesc p s d).clk = b.clk := rfl

@[simp] theorem Block.setMap_clk (b : Block) (p s m : Nat) : (b.setMap p s m).clk = b.clk := rfl

@[simp] theorem Block.clearDesc_clk (b : Block) (p s : Nat) : (b.clearDesc p s).clk = b.clk := rfl

@[simp] theorem Block.setWaiting_clk (b : Block) (p : Nat) (l : List CtxOp) : (b.setWaiting p l).clk = b.clk := rfl

@[simp] theorem Block.setSwitchPending_clk (b : Block) (r : Nat) (v : Bool) : (b.setSwitchPending r v).clk = b.clk := rfl

@[simp] theorem Block.loseState_clk (b : Block) (p s : Nat) : (b.loseState p s).clk = b.clk := by
  unfold Block.loseState
  split <;> rfl

@[simp] theorem Block.emptyShadow_clk (b : Block) (r : Nat) : (b.emptyShadow r).clk = b.clk := by
  unfold Block.emptyShadow
  dsimp only [Block.setReg_clk]
  split <;> simp

@[simp] theorem Block.unshadow_clk (b : Block) (r s : Nat) : (b.unshadow r s).clk = b.clk := by
  unfold Block.unshadow
  split <;> simp

@[simp] theorem Block.startPrefetch_clk (b : Block) (op : CtxOp) : (b.startPrefetch op).clk = b.clk := by
  unfold Block.startPrefetch
  dsimp only [Block.setReg_clk]
  split <;> simp

@[simp] theorem Block.startEngine_clk (b : Block) (op : CtxOp) : (b.startEngine op).clk = b.clk := by
  unfold Block.startEngine
  dsimp only
  split <;> simp

@[simp] theorem Block.noteFailure_clk (b : Block) (r kind status : Nat) : (b.noteFailure r kind status).clk = b.clk := by
  unfold Block.noteFailure
  split <;> rfl

@[simp] theorem Block.boundRetire_clk (b : Block) (r s : Nat) : (b.boundRetire r s).clk = b.clk := rfl

@[simp] theorem Block.relocated_clk (b : Block) (op : CtxOp) (status : Nat) : (b.relocated op status).clk = b.clk := by
  simp [Block.relocated, apply_ite Block.clk]

@[simp] theorem Block.ctxDone_clk (b : Block) (op : CtxOp) (status : Nat) : (b.ctxDone op status).clk = b.clk := by
  unfold Block.ctxDone
  split <;> simp

@[simp] theorem Block.begins_clk (b : Block) (op : CtxOp) : (b.begins op).2.clk = b.clk := by
  unfold Block.begins
  split
  · split <;> simp
  · dsimp only
    split <;> simp

@[simp] theorem Block.pump_clk (b : Block) (p n : Nat) : (b.pump p n).clk = b.clk := by
  induction n generalizing b with
  | zero => rfl
  | succ n ih =>
    unfold Block.pump
    split
    · rfl
    · split
      · rfl
      · next op rest _ =>
        dsimp only
        split
        · simp [ih]
        · split
          · simp [ih]
          · split
            · rfl
            · generalize (if op.passed || op.ending.isSome then op else b.judgeOp op) = o
              split
              · simp [ih, apply_ite Block.clk]
              · split
                · rfl
                · split
                  · simp
                  · have hbegins := Block.begins_clk (b.setWaiting p rest) o
                    split <;> (next h => rw [h] at hbegins; simpa [ih] using hbegins)

@[simp] theorem Block.serve_clk (b : Block) (p : Nat) : (b.serve p).clk = b.clk := by
  have hone (b : Block) (p : Nat) : (b.serveOne p).clk = b.clk := Block.pump_clk _ _ _
  unfold Block.serve
  exact (foldl_keeps Block.clk _ hone _ _).trans (hone b p)

@[simp] theorem Block.ctxSubmit_clk (b : Block) (op : CtxOp) : (b.ctxSubmit op).clk = b.clk := by
  unfold Block.ctxSubmit
  split <;> simp

@[simp] theorem Block.endSwitch_clk (b : Block) (q : SwitchReq) (status : Nat) : (b.endSwitch q status).clk = b.clk := by
  unfold Block.endSwitch
  dsimp only
  split
  · exact foldl_keeps Block.clk _ (fun b r => b.setReg_clk _ _) _ _
  · exact foldl_keeps Block.clk _ (fun b r => b.noteFailure_clk r 5 status) _ _

@[simp] theorem Block.judgeSwitch_clk (b : Block) (q : SwitchReq) : (b.judgeSwitch q).clk = b.clk := by
  unfold Block.judgeSwitch
  split
  · rw [foldl_keeps Block.clk _ (fun b r => b.setSwitchPending_clk r false), Block.endSwitch_clk]
  · rfl

/-! Dispatch: the words that a run's bridge presents. -/

@[simp] theorem Block.setRun_clk (b : Block) (x : Nat) (run : Run) : (b.setRun x run).clk = b.clk := rfl

@[simp] theorem Block.cacheSet_clk (b : Block) (k : Nat) (c : KernelItem) : (b.cacheSet k c).clk = b.clk := rfl

@[simp] theorem Block.kernelDesc_clk (b : Block) (k n : Nat) : (b.kernelDesc k n).2.2.clk = b.clk := by
  unfold Block.kernelDesc
  split
  · rfl
  · dsimp only
    split <;> simp

@[simp] theorem Block.imageEntry_clk (b : Block) (k n desc i : Nat) : (b.imageEntry k n desc i).2.2.clk = b.clk := by
  unfold Block.imageEntry
  split
  · rfl
  · dsimp only
    split <;> simp

@[simp] theorem Block.assignByte_clk (b : Block) (k n desc i : Nat) : (b.assignByte k n desc i).2.2.clk = b.clk := by
  unfold Block.assignByte
  split
  · rfl
  · dsimp only
    split <;> simp

@[simp] theorem Block.phaseImages_clk (b : Block) (k n desc phase : Nat) : (b.phaseImages k n desc phase).2.2.clk = b.clk := by
  unfold Block.phaseImages
  refine foldl_keeps (fun acc : Nat × List Nat × Block => acc.2.2.clk) _ (fun acc i => ?_) _ _
  simp [apply_ite Prod.snd, apply_ite Block.clk]

@[simp] theorem Block.drainTo_clk (b : Block) (x status result : Nat) : (b.drainTo x status result).clk = b.clk := by
  unfold Block.drainTo
  exact foldl_keeps Block.clk _ (fun b r => b.setSwitchPending_clk r true) _ _

@[simp] theorem Block.scarabLoad_clk (b : Block) (k n desc r s i : Nat) : (b.scarabLoad k n desc r s i).clk = b.clk := by
  simp [Block.scarabLoad]

@[simp] theorem Block.issue_clk (b : Block) (k n desc : Nat) (set : List Nat) (plan : List (Nat × Bool)) (images : List Nat) :
    (b.issue k n desc set plan images).clk = b.clk := by
  unfold Block.issue
  dsimp only
  rw [foldl_keeps Block.clk, foldl_keeps Block.clk]
  · exact fun b e => b.scarabLoad_clk _ _ _ _ _ _
  · intro b e
    split
    · rfl
    · exact b.ctxSubmit_clk _

@[simp] theorem Block.tryPhase_clk (b : Block) (k x : Nat) : (b.tryPhase k x).clk = b.clk := by
  unfold Block.tryPhase
  dsimp only
  split
  · rfl
  · split
    · simp
    · split
      · simp
      · split <;> simp

@[simp] theorem Block.deliverDone_clk (b : Block) (x w : Nat) : (b.deliverDone x w).clk = b.clk := by
  unfold Block.deliverDone
  dsimp only
  split
  · rfl
  · split
    · simp
    · split
      · rfl
      · exact foldl_keeps Block.clk _ (fun b r => b.setSwitchPending_clk r true) _ _
    · split
      · rfl
      · split
        · simp
        · rw [Block.tryPhase_clk, foldl_keeps Block.clk _ (fun b r => b.setSwitchPending_clk r true)]
          simp

@[simp] theorem Block.deliverHeld_clk (b : Block) : b.deliverHeld.clk = b.clk := by
  unfold Block.deliverHeld
  refine foldl_keeps Block.clk _ (fun b r => ?_) _ _
  dsimp only
  split
  · simp
  · rfl

/-! The requests that waited for the fence. -/

@[simp] theorem Block.mapRead_clk (b : Block) (r a : Nat) : (b.mapRead r a).2.2.clk = b.clk := by
  unfold Block.mapRead
  split
  · split <;> simp
  · simp

@[simp] theorem Block.refill_clk (b : Block) (r x page a : Nat) : (b.refill r x page a).2.2.clk = b.clk := by
  simp [Block.refill, apply_ite Prod.snd, apply_ite Block.clk]

@[simp] theorem Block.riserRequest_clk (b : Block) (q : HeldReq) (node a mapAddr : Nat) : (b.riserRequest q node a mapAddr).clk = b.clk := by
  simp [Block.riserRequest, apply_ite Block.clk]

@[simp] theorem Block.access_clk (b : Block) (q : HeldReq) (mapAddr e : Nat) : (b.access q mapAddr e).clk = b.clk := by
  simp [Block.access, apply_ite Block.clk]

@[simp] theorem Block.perform_clk (b : Block) (q : HeldReq) (x kd : Nat) : (b.perform q x kd).clk = b.clk := by
  unfold Block.perform
  dsimp only
  split
  · simp
  · split
    · simp
    · split
      · simp
      · split
        · simp
        · split
          · simp
          · split
            · simp
            · split
              · simp
              · split <;> simp

@[simp] theorem Block.performFor_clk (b : Block) (q : HeldReq) : (b.performFor q).clk = b.clk := by
  unfold Block.performFor
  split
  · simp
  · dsimp only [Block.runKernel]
    split <;> simp

@[simp] theorem Block.retryHeld_clk (b : Block) : b.retryHeld.clk = b.clk := by
  unfold Block.retryHeld
  exact foldl_keeps Block.clk _ (fun b q => b.performFor_clk q) _ _

@[simp] theorem Block.refreshBorders_clk (b : Block) : b.refreshBorders.clk = b.clk := by
  unfold Block.refreshBorders
  refine foldl_keeps Block.clk _ (fun acc r => ?_) _ _
  split
  · rfl
  · simp [Block.refreshBorder]

/-! The reset. -/

/-- Once the fence is lowered no die-level reset is under way. -/
theorem Block.fenceLower_dieReset (b : Block) : b.fenceLower.clk.dieReset = none := by
  unfold Block.fenceLower
  split
  · assumption
  · next x _ =>
    rw [Block.refreshBorders_clk, Block.retryHeld_clk]
    have hjudged (u : Block) (l : List SwitchReq) : (l.foldl (fun b q => b.judgeSwitch q) u).clk = u.clk :=
      foldl_keeps Block.clk _ (fun b q => b.judgeSwitch_clk q) l u
    have hdrains (u : Block) (d : Nat) : (u.drainsAfresh d).clk = u.clk := rfl
    split
    · rw [hdrains, hjudged, Block.deliverHeld_clk, Block.setRegs_clk]
    · split
      · rw [hdrains, hjudged, Block.deliverHeld_clk, Block.setRegs_clk]
      · rw [hjudged, Block.deliverHeld_clk, Block.setRegs_clk]

/-- A write of DIE_RESET with no reset and no commit under way is not aborted. -/
theorem Block.writeDieReset_accepted {b : Block} {v : Nat} (hv : v ≤ 6) (hd : b.clk.dieReset = none) (hr : b.commit.run = none) :
    b.writeDieReset v = (Abort.none, if v = 0 then b.resetDevice 3 else b.raiseFence v) := by
  have hval : ∀ v ≤ 6, checkValue Reg.dieReset v = Abort.none := by decide +kernel
  simp [Block.writeDieReset, Block.guarded, badValue, hval v hv, hd, hr, Abort.first]

/-- The host's write of DIE_RESET raises the fence, or resets the device for layer 0. -/
theorem Block.host_writeDieReset {b : Block} {v : Nat} (hs : b.served = true) (hv : v ≤ 6) (hd : b.clk.dieReset = none)
    (hr : b.commit.run = none) :
    b.host (fun b => b.writeDieReset v) = (if v = 0 then b.resetDevice 3 else b.raiseFence v).result 0 := by
  rw [Block.host_of _ _ hs, Block.writeDieReset_accepted hv hd hr]

/-- Settles O49: each step of a die-level reset falls when its time has come, and the last one ends the reset. -/
theorem dieResetCompletes : Obligations.DieResetCompletes := by
  intro s t b hb hc
  refine ⟨fun hs hd hr => ⟨fun layer h1 h6 => ?_, ?_⟩, fun x hx => ⟨fun hst htick hdue => ?_, fun hst hdue => ?_,
    fun hst hdue => ?_, fun hst hdue htick => ⟨?_, b.fenceLower_dieReset⟩⟩⟩
  · subst hb
    exact State.answers rfl ((Block.host_writeDieReset hs h6 hd hr).trans (by rw [if_neg (by omega)]))
  · subst hb
    exact State.answers rfl (Block.host_writeDieReset hs (by omega) hd hr)
  · exact State.answers rfl (Block.eventIf_falls hb hc (by simp [Block.windowDue, hx, hst, htick, hdue]) rfl)
  · exact State.answers rfl (Block.eventIf_falls hb hc (by simp [Block.dieAt, hx, hst, hdue]) (by simp only [hx]))
  · exact State.answers rfl (Block.eventIf_falls hb hc (by simp [Block.dieAt, hx, hst, hdue]) (by simp only [hx]))
  · have hdue1 : x.stepAt + 1 ≤ b.run := hdue
    exact State.answers rfl (Block.eventIf_falls hb hc (by simp [Block.dieAt, hx, hst, htick, hdue1]) rfl)

end Sys2Proof.Machine
end

section
/-! PROOFS. The writes of the dictionary and its transports: stalled transfers, forwarded messages and CAN frames (R387 to R405). -/

namespace Sys2Proof.Machine

open Sys2Proof

/-- No counter of a port stands where NODE_ID stands. -/
theorem nodeId_ne_port {p : Nat} (hp : wfPort p = true) : Reg.nodeId ≠ Reg.rec p ∧ Reg.nodeId ≠ Reg.busState p := by
  have hp2 : p < 2 := of_decide_eq_true hp
  simp only [Reg.nodeId, Reg.rec, Reg.busState]
  omega

/-- A frame received leaves the node's number as it is. -/
theorem Block.canReceived_node (b : Block) {p : Nat} (hp : wfPort p = true) : (b.canReceived p).node = b.node := by
  obtain ⟨hrec, hbus⟩ := nodeId_ne_port hp
  unfold Block.canReceived Block.canState Block.node
  split
  · rw [Block.reg_setReg_ne _ _ hbus, Block.reg_setReg_ne _ _ hrec]
  · rw [Block.reg_setReg_ne _ _ hbus, Block.reg_setReg_ne _ _ hrec]
    rfl

/-- An extended FD frame with a request to this node is counted and taken as a message (R402, R403). -/
theorem Block.canFrame_request {b : Block} {port id : Nat} {bytes : List Byte} (hp : wfPort port = true) (hw : b.canWorks port = true)
    (hbit : id.testBit 0 = false) (hfn : bitsOf id 28 25 = 3) (hnode : bitsOf id 24 13 = b.node) (hlen : 8 ≤ bytes.length) :
    b.canFrame port .fdExtended id bytes =
      ((b.canReceived port).count (Reg.framesRx port) 1).lmpMessage (frameMessage port (bitsOf id 12 1) bytes) := by
  have hshort : ¬ bytes.length < 8 := by omega
  unfold Block.canFrame
  simp [hw, hbit, hfn, hnode, Block.canReceived_node b hp, hshort]

/-- Settles O54: each write, limit, response and frame has its effect under its conditions. -/
theorem transportsComplete : Obligations.TransportsComplete := by
  intro s t b hb hc
  refine ⟨fun via u hv hs => ⟨fun idx sub len v hw => ?_, fun v hw => ?_⟩, fun via x hv hx hd hw => ?_,
    fun via node ch id f w c hv hn hm hf hcr hsince hch hd => ?_, fun via f w hv hf hsince hd hw => ?_,
    fun port id bytes hp hcan hbit hfn hnode hlen => ?_⟩
  · exact State.answers hv (Block.host_answered (f := fun b => b.dictWrite via idx sub len v) hs hw)
  · exact State.answers hv (Block.host_answered (f := fun b => b.writeUsb4Enable via v) hs hw)
  · exact State.answers hv (State.limit_done hw (Block.event_falls hb hc (by simp only [hx, hd, if_true])))
  · exact State.answers (by rw [hv, hn, hm]; rfl) (Block.event_falls hb hc (by simp only [hf, hcr, hsince, hch, hd, and_self, if_true]))
  · have hvia : f.via = via := by simpa using List.find?_some hf
    exact State.answers hv (State.limit_done hw (Block.event_falls hb hc
      (by simp only [hf, hsince, hd, if_true, Block.abortForward, hvia])))
  · exact State.answers hp (Block.event_falls hb hc (Block.canFrame_request hp hcan hbit hfn hnode hlen))

end Sys2Proof.Machine
end

section
/-! PROOFS. Single bits of a number: the bit that `putBit` inverts, and the number that a list of places makes. -/

namespace Sys2Proof

/-- Inverting a bit twice gives the number back. -/
theorem flip_flip (x n : Nat) : x ^^^ 2 ^ n ^^^ 2 ^ n = x := by
  rw [Nat.xor_assoc, Nat.xor_self, Nat.xor_zero]

/-- Adding the power of a bit that is clear inverts the bit. -/
theorem xor_two_pow_of_clear {x i : Nat} (h : x.testBit i = false) : x ^^^ 2 ^ i = x + 2 ^ i := by
  induction i generalizing x with
  | zero =>
    have heven : x % 2 = 0 := by
      rw [Nat.testBit_zero] at h
      have := of_decide_eq_false h
      omega
    have hhalf : (x ^^^ 2 ^ 0) / 2 = x / 2 := by rw [Nat.xor_div_two, Nat.pow_zero, Nat.div_eq_of_lt Nat.one_lt_two, Nat.xor_zero]
    have hlow : (x ^^^ 2 ^ 0) % 2 = 1 ↔ ¬(x % 2 = 1 ↔ 2 ^ 0 % 2 = 1) := Nat.xor_mod_two_eq_one
    rw [Nat.pow_zero] at hhalf hlow ⊢
    omega
  | succ i ih =>
    have hhalf : (x ^^^ 2 ^ (i + 1)) / 2 = x / 2 + 2 ^ i := by
      rw [Nat.xor_div_two, Nat.pow_succ, Nat.mul_div_cancel _ Nat.two_pos, ih (by rwa [← Nat.testBit_succ])]
    have hlow : (x ^^^ 2 ^ (i + 1)) % 2 = 1 ↔ ¬(x % 2 = 1 ↔ 2 ^ (i + 1) % 2 = 1) := Nat.xor_mod_two_eq_one
    rw [Nat.pow_succ] at hhalf hlow ⊢
    omega

/-- Inverting one bit changes that bit only. -/
theorem testBit_flip (x n k : Nat) : (x ^^^ 2 ^ n).testBit k = (x.testBit k != decide (n = k)) := by
  rw [Nat.testBit_xor, Nat.testBit_two_pow]

/-- Giving a bit its other value inverts it. -/
theorem putBit_not (x i : Nat) : putBit x i (!x.testBit i) = x ^^^ 2 ^ i := by
  cases h : x.testBit i with
  | false => rw [xor_two_pow_of_clear h, putBit, h]; rfl
  | true =>
    have hclear : (x ^^^ 2 ^ i).testBit i = false := by rw [testBit_flip, h, decide_eq_true rfl]; rfl
    have hback : x = (x ^^^ 2 ^ i) + 2 ^ i := (flip_flip x i).symm.trans (xor_two_pow_of_clear hclear)
    have hput : putBit x i (!true) = x - 2 ^ i := by rw [putBit, h]; rfl
    omega

theorem testBit_bitsOf (x hi lo i : Nat) : (bitsOf x hi lo).testBit i = (decide (i < hi + 1 - lo) && x.testBit (lo + i)) := by
  rw [bitsOf, Nat.testBit_mod_two_pow, Nat.testBit_shiftRight]

theorem testBit_putBit_true (x i k : Nat) : (putBit x i true).testBit k = (decide (i = k) || x.testBit k) := by
  cases h : x.testBit i with
  | true =>
    have hsame : putBit x i true = x := by simp [putBit, h]
    rw [hsame]
    by_cases hk : i = k <;> simp_all
  | false =>
    have hflip := putBit_not x i
    rw [h] at hflip
    rw [show putBit x i true = x ^^^ 2 ^ i from hflip, testBit_flip]
    by_cases hk : i = k <;> simp_all

theorem testBit_maskOf (l : List Nat) (k : Nat) : (maskOf l).testBit k = decide (k ∈ l) := by
  induction l with
  | nil => simp [maskOf]
  | cons i l ih => rw [maskOf, testBit_putBit_true, ih]; simp [eq_comm]

/-- Places that are all different add up. -/
theorem maskOf_eq_sum {l : List Nat} (h : l.Nodup) : maskOf l = (l.map (2 ^ ·)).sum := by
  induction l with
  | nil => rfl
  | cons i l ih =>
    obtain ⟨hi, hl⟩ := List.nodup_cons.1 h
    have hclear : (maskOf l).testBit i = false := by simp [testBit_maskOf, hi]
    rw [maskOf, putBit, hclear, ih hl, List.map_cons, List.sum_cons, Nat.add_comm]
    rfl

/-- Of the places below `n + 1`, the last counts `2 ^ n`. -/
theorem maskOf_filter_range_succ (p : Nat → Bool) (n : Nat) :
    maskOf ((List.range (n + 1)).filter p) = 2 ^ n * b2n (p n) + maskOf ((List.range n).filter p) := by
  rw [maskOf_eq_sum (List.nodup_range.filter p), maskOf_eq_sum (List.nodup_range.filter p), List.range_succ, List.filter_append,
    List.map_append, List.sum_append, Nat.add_comm]
  cases h : p n <;> simp [h, b2n]

theorem nthD_map_range {α : Type} (f : Nat → α) (d : α) {n j : Nat} (h : j < n) : nthD ((List.range n).map f) j d = f j := by
  have hget (l : List α) : nthD l j d = l.getD j d := by
    induction l generalizing j with
    | nil => rfl
    | cons x l ih =>
      cases j with
      | zero => rfl
      | succ j => exact ih (by omega)
  simp [hget, h]

end Sys2Proof
end

section
/-! PROOFS. The cells of the mesh: what a lookup table puts out (R34), and the next value of a flip-flop (R36). -/

namespace Sys2Proof.Machine

open Sys2Proof

/-- The number that five LUT inputs make: I0 is its lowest bit (R34). -/
theorem maskOf_five (v : Nat → Bool) : maskOf ((List.range 5).filter v) =
    16 * b2n (v 4) + 8 * b2n (v 3) + 4 * b2n (v 2) + 2 * b2n (v 1) + b2n (v 0) := by
  simp only [maskOf_filter_range_succ, List.range_zero, List.filter_nil, maskOf]
  omega

/-- With I5 as a sixth input its bit counts 32. -/
theorem maskOf_six (v : Nat → Bool) : maskOf ((List.range 6).filter v) = 32 * b2n (v 5) + maskOf ((List.range 5).filter v) :=
  maskOf_filter_range_succ v 5

/-- The number made by the values of a list of signals. -/
theorem maskOf_signals (n : Nat) (f : Nat → Sig) :
    maskOf ((List.range n).filter (fun j => (nthD ((List.range n).map f) j (Sig.const false)).v)) =
      maskOf ((List.range n).filter (fun j => (f j).v)) := by
  refine congrArg maskOf (List.filter_congr fun j hj => ?_)
  rw [nthD_map_range f _ (List.mem_range.1 hj)]

/-- The value of LUT input k that place `m` of a cell sees. -/
def Block.lutInput (b : Block) (fuel : Nat) (path : List (Nat × Nat × Node)) (p c : Nat) (m : Node) (k : Nat) : Bool :=
  (b.evalFrom fuel ((p, c, m) :: path) p c (.input k)).v

/-- X1 off a loop is the bit of the upper half of LUT_TABLE that I0 to I4 name. -/
theorem Block.evalFrom_x1 (b : Block) (fuel p c : Nat) {path : List (Nat × Nat × Node)} (h : path.contains (p, c, .x1) = false) :
    (b.evalFrom (fuel + 1) path p c .x1).v =
      (b.activeRec p c).testBit (32 + maskOf ((List.range 5).filter (b.lutInput fuel path p c .x1))) := by
  rw [Block.evalFrom, if_neg (by rw [h]; exact Bool.false_ne_true)]
  exact congrArg (fun i => (b.activeRec p c).testBit (32 + i)) (maskOf_signals 5 _)

/-- P off a loop is the bit of LUT_TABLE that its inputs name: six, or five with SPLIT = 1. -/
theorem Block.evalFrom_p (b : Block) (fuel p c : Nat) {path : List (Nat × Nat × Node)} (h : path.contains (p, c, .p) = false) :
    (b.evalFrom (fuel + 1) path p c .p).v = (b.activeRec p c).testBit
      (maskOf ((List.range (if (b.activeRec p c).testBit 184 then 5 else 6)).filter (b.lutInput fuel path p c .p))) := by
  rw [Block.evalFrom, if_neg (by rw [h]; exact Bool.false_ne_true)]
  simp only [List.length_map, List.length_range]
  exact congrArg (b.activeRec p c).testBit (maskOf_signals _ _)

/-- The next value of a flip-flop whose segments are all fit: set or reset before the clock enable (R36). -/
theorem Block.nextQ_fit (b : Block) (p c : Nat) {n : Nat} (hn : n < 2)
    (hce : ((b.ceSr p c).1.after tImux).unfit b.clk.fabricDiv = false)
    (hsr : ((b.ceSr p c).2.after tImux).unfit b.clk.fabricDiv = false)
    (hd : (b.dInput p c n).unfit b.clk.fabricDiv = false) :
    let w := b.activeRec p c
    let o := 6 * n
    b.nextQ p c n = (if w.testBit (193 + o) ∧ (b.ceSr p c).2.v then w.testBit (194 + o)
      else if w.testBit (192 + o) = false ∨ (b.ceSr p c).1.v then (b.dInput p c n).v
      else w.testBit (222 + n), false) := by
  intro w o
  have ho : (if n = 0 then 0 else 6) = o := by
    simp only [o]
    split <;> omega
  simp only [Block.nextQ, ho, hce, hsr, hd, Bool.and_false, Bool.false_eq_true, if_false]
  by_cases hset : w.testBit (193 + o) ∧ (b.ceSr p c).2.v
  · simp [hset, w]
  · by_cases hclk : w.testBit (192 + o) = false ∨ (b.ceSr p c).1.v
    · simp [hset, hclk, w]
    · simp [hset, hclk, w]

/-- Settles O18: X1 and P read LUT_TABLE at the number of the inputs, and a flip-flop follows set or reset, clock enable, hold. -/
theorem cellComputes : Obligations.CellComputes := by
  refine ⟨fun b fuel p c path => ⟨fun h => ?_, fun h hsplit => ?_, fun h hsplit => ?_⟩, fun b p c n hn => ?_⟩
  · rw [Block.evalFrom_x1 b fuel p c h, maskOf_five]
    rfl
  · rw [Block.evalFrom_p b fuel p c h, hsplit, if_neg Bool.false_ne_true, maskOf_six, maskOf_five]
    rfl
  · rw [Block.evalFrom_p b fuel p c h, hsplit, if_pos rfl, maskOf_five]
    rfl
  · intro w o hce hsr hd
    exact b.nextQ_fit p c hn hce hsr hd

end Sys2Proof.Machine
end

section
/-! PROOFS. The cell record (R55 to R59): its crossed parity names the one bit that is wrong. -/

namespace Sys2Proof.Machine

open Sys2Proof

/-- Where one place at most, `x`, is picked, the places picked below `m` are it alone or none. -/
theorem filter_range_unique {m x : Nat} {p : Nat → Bool} (h : ∀ i < m, p i = decide (i = x)) :
    (List.range m).filter p = if x < m then [x] else [] := by
  have hx : (List.range m).filter p = (List.range m).filter (· == x) :=
    List.filter_congr fun i hi => by rw [h i (List.mem_range.1 hi)]; rfl
  rw [hx, List.filter_beq, List.count_range]
  split <;> rfl

/-- Their number is then odd if it is one of them. -/
theorem odd_countP_unique {m x : Nat} {p : Nat → Bool} (h : ∀ i < m, p i = decide (i = x)) :
    ((List.range m).countP p % 2 == 1) = decide (x < m) := by
  rw [List.countP_eq_length_filter, filter_range_unique h]
  by_cases hx : x < m <;> simp [hx]

/-- The parity of the exclusive or of two choices is that of their parities. -/
theorem odd_countP_bne (l : List Nat) (f g : Nat → Bool) :
    (l.countP (fun i => f i != g i) % 2 == 1) = ((l.countP f % 2 == 1) != (l.countP g % 2 == 1)) := by
  induction l with
  | nil => rfl
  | cons x l ih =>
    have hstep (n : Nat) : ((n + 1) % 2 == 1) = !(n % 2 == 1) := by
      rcases Nat.mod_two_eq_zero_or_one n with h | h <;> simp [Nat.add_mod, h]
    simp only [List.countP_cons]
    cases hf : f x <;> cases hg : g x <;> simp [hstep, ih]

theorem popCount_eq_countP (n x : Nat) : popCount n x = (List.range n).countP x.testBit := by
  induction n with
  | zero => rfl
  | succ n ih =>
    rw [popCount, ih, List.range_succ, List.countP_append, Nat.add_comm]
    cases h : x.testBit n <;> simp [h, b2n]

theorem rowParity_eq (w j : Nat) : rowParity w j = ((List.range 16).countP (fun i => w.testBit (16 * j + i)) % 2 == 1) := by
  unfold rowParity parityOf
  rw [popCount_eq_countP]
  refine congrArg (· % 2 == 1) (List.countP_congr fun i hi => ?_)
  have hi16 : i < 16 * j + 15 + 1 - 16 * j := by
    have := List.mem_range.1 hi
    omega
  rw [testBit_bitsOf, decide_eq_true hi16, Bool.true_and]

theorem colParity_eq (w c : Nat) : colParity w c = ((List.range 14).countP (fun j => w.testBit (16 * j + c)) % 2 == 1) := by
  unfold colParity
  rw [List.countP_eq_length_filter]

/-- A wrong bit turns the parity of its own row only. -/
theorem rowParity_flip (w n j : Nat) : rowParity (w ^^^ 2 ^ n) j = (rowParity w j != decide (n / 16 = j)) := by
  have hplace : ∀ i < 16, decide (n = 16 * j + i) = decide (i = if n / 16 = j then n % 16 else 16) :=
    fun i hi => decide_eq_decide.2 (by split <;> omega)
  have hodd : ((List.range 16).countP (fun i => decide (n = 16 * j + i)) % 2 == 1) = decide (n / 16 = j) :=
    (odd_countP_unique hplace).trans (decide_eq_decide.2 (by split <;> omega))
  simp only [rowParity_eq, testBit_flip]
  rw [odd_countP_bne, hodd]

/-- A wrong bit of the 224 data bits turns the parity of its own column only. -/
theorem colParity_flip (w n : Nat) {c : Nat} (hc : c < 16) :
    colParity (w ^^^ 2 ^ n) c = (colParity w c != decide (n < 224 ∧ n % 16 = c)) := by
  have hplace : ∀ j < 14, decide (n = 16 * j + c) = decide (j = if n % 16 = c then n / 16 else 14) :=
    fun j hj => decide_eq_decide.2 (by split <;> omega)
  have hodd : ((List.range 14).countP (fun j => decide (n = 16 * j + c)) % 2 == 1) = decide (n < 224 ∧ n % 16 = c) :=
    (odd_countP_unique hplace).trans (decide_eq_decide.2 (by split <;> omega))
  simp only [colParity_eq, testBit_flip]
  rw [odd_countP_bne, hodd]

/-- A parity that agreed disagrees once it or its data turn, but not both. -/
theorem bne_bne_cancel (a p q : Bool) : ((a != p) != (a != q)) = (p != q) := by
  cases a <;> simp

/-- The row that one wrong bit of a good record points to (R58). -/
theorem rowSyndrome_flip {w : Nat} (hw : rowSyndrome w = []) (n : Nat) :
    rowSyndrome (w ^^^ 2 ^ n) = if n < 224 then [n / 16] else if n < 238 then [n - 224] else [] := by
  have hgood : ∀ j < 14, w.testBit (224 + j) = rowParity w j := by simpa [rowSyndrome] using hw
  have hone : ∀ j < 14, ((w ^^^ 2 ^ n).testBit (224 + j) != rowParity (w ^^^ 2 ^ n) j) =
      decide (j = if n < 224 then n / 16 else n - 224) := by
    intro j hj
    rw [testBit_flip, rowParity_flip, hgood j hj, bne_bne_cancel, Bool.eq_iff_iff]
    simp only [bne_iff_ne, ne_eq, decide_eq_decide, decide_eq_true_eq]
    split <;> omega
  rw [rowSyndrome, filter_range_unique hone]
  by_cases hdata : n < 224
  · simp only [hdata, if_true]
    exact if_pos (by omega)
  · simp only [hdata, if_false]
    exact ite_congr (propext (by omega)) (fun _ => rfl) (fun _ => rfl)

/-- The column that it points to. -/
theorem colSyndrome_flip {w : Nat} (hw : colSyndrome w = []) (n : Nat) :
    colSyndrome (w ^^^ 2 ^ n) = if n < 224 then [n % 16] else if 238 ≤ n ∧ n < 254 then [n - 238] else [] := by
  have hgood : ∀ c < 16, w.testBit (238 + c) = colParity w c := by simpa [colSyndrome] using hw
  have hone : ∀ c < 16, ((w ^^^ 2 ^ n).testBit (238 + c) != colParity (w ^^^ 2 ^ n) c) =
      decide (c = if n < 224 then n % 16 else if 238 ≤ n then n - 238 else 16) := by
    intro c hc
    rw [testBit_flip, colParity_flip w n hc, hgood c hc, bne_bne_cancel, Bool.eq_iff_iff]
    simp only [bne_iff_ne, ne_eq, decide_eq_decide, decide_eq_true_eq]
    split
    · omega
    · split <;> omega
  rw [colSyndrome, filter_range_unique hone]
  by_cases hdata : n < 224
  · simp only [hdata, if_true]
    exact if_pos (by omega)
  · by_cases hcol : 238 ≤ n
    · simp only [hdata, hcol, if_true, if_false, true_and]
      exact ite_congr (propext (by omega)) (fun _ => rfl) (fun _ => rfl)
    · simp only [hdata, hcol, if_false, false_and]
      rfl

/-- No data or parity bit is part of the seal. -/
theorem seal_flip (w : Nat) {n : Nat} (hn : n < 254) : bitsOf (w ^^^ 2 ^ n) 255 254 = bitsOf w 255 254 := by
  refine Nat.eq_of_testBit_eq fun i => ?_
  have hne : n ≠ 254 + i := by omega
  rw [testBit_bitsOf, testBit_bitsOf, testBit_flip, decide_eq_false hne, Bool.bne_false]

/-- A record that loads is sealed and both its syndromes are empty (R57). -/
theorem recordLoads_checks {w : Nat} (h : recordLoads w = true) :
    bitsOf w 255 254 = 3 ∧ rowSyndrome w = [] ∧ colSyndrome w = [] := by
  unfold recordLoads at h
  simp only [Bool.and_eq_true, beq_iff_eq, List.isEmpty_iff] at h
  obtain ⟨⟨⟨⟨⟨hseal, hrow⟩, hcol⟩, -⟩, -⟩, -⟩ := h
  exact ⟨hseal, hrow, hcol⟩

theorem mendSeal_sealed {w : Nat} (h : bitsOf w 255 254 = 3) (loaded : Bool) : mendSeal w loaded = (w, false) :=
  if_neg (by omega)

/-- A sealed record with empty syndromes passes. -/
theorem checkRecord_good {w : Nat} (hseal : bitsOf w 255 254 = 3) (hrow : rowSyndrome w = []) (hcol : colSyndrome w = []) :
    checkRecord w true = ⟨w, false, false, false, none⟩ := by
  simp only [checkRecord, mendSeal_sealed hseal, hrow, hcol]

/-- One wrong bit of a good record is inverted back: a data bit where its row and column cross, a parity bit by its own syndrome. -/
theorem checkRecord_flip {w n : Nat} (hseal : bitsOf w 255 254 = 3) (hrow : rowSyndrome w = []) (hcol : colSyndrome w = [])
    (hn : n < 254) : checkRecord (w ^^^ 2 ^ n) true = ⟨w, true, false, false, some n⟩ := by
  have hmend : putBit (w ^^^ 2 ^ n) n (!(w ^^^ 2 ^ n).testBit n) = w := by rw [putBit_not, flip_flip]
  have hseal' := (seal_flip w hn).trans hseal
  have hrow' := rowSyndrome_flip hrow n
  have hcol' := colSyndrome_flip hcol n
  by_cases hdata : n < 224
  · rw [if_pos hdata] at hrow' hcol'
    have hplace : 16 * (n / 16) + n % 16 = n := Nat.div_add_mod n 16
    simp only [checkRecord, mendSeal_sealed hseal', hrow', hcol', hplace, hmend]
  · by_cases hrowBit : n < 238
    · rw [if_neg hdata, if_pos hrowBit] at hrow'
      rw [if_neg hdata, if_neg (by omega)] at hcol'
      have hplace : 224 + (n - 224) = n := by omega
      simp only [checkRecord, mendSeal_sealed hseal', hrow', hcol', hplace, hmend]
    · rw [if_neg hdata, if_neg hrowBit] at hrow'
      rw [if_neg hdata, if_pos (by omega)] at hcol'
      have hplace : 238 + (n - 238) = n := by omega
      simp only [checkRecord, mendSeal_sealed hseal', hrow', hcol', hplace, hmend]

/-- Settles O19: a record that loads passes its check, and each single wrong bit of its data or parity is mended. -/
theorem recordMends : Obligations.RecordMends := by
  intro w n _ hload hn
  obtain ⟨hseal, hrow, hcol⟩ := recordLoads_checks hload
  exact ⟨checkRecord_good hseal hrow hcol, checkRecord_flip hseal hrow hcol hn⟩

end Sys2Proof.Machine
end

section
/-! PROOFS. Captures (R91) and the power states of a region (R126, R428). -/

namespace Sys2Proof.Machine

open Sys2Proof

/-- A device that is clocked and not yet started. -/
def unstarted : Block := { clk := { mode := .run } }

/-- Whether a capture of region r waits for its edge after a command. -/
def captureDueAfter (r : Nat) : Host.Outcome State Fault Refusal → Bool
  | .next u => u.blk.ctx.captureDue.look r
  | _ => false

/-- Before the global start CAPTURE_REQ is served at once and waits for no edge (R375, Table 11.12). -/
theorem captureReq_unstarted : captureDueAfter 9 (exec (.captureReq 9 1) { pending := [], blk := unstarted }) = false := by
  decide +kernel

/-- Refutes O16: the clause on CAPTURE_REQ lets the capture wait for an edge whether or not the global start has come; before it there is
no edge, and region 9's state is taken at once. -/
theorem not_captureAndMapsComplete : ¬ Obligations.CaptureAndMapsComplete := by
  intro h
  obtain ⟨hreq, -⟩ := h { pending := [], blk := unstarted } 0 9 unstarted (Block.at_past _ (by decide)) (by decide) (by decide)
  have hdue : captureDueAfter 9 (exec (.captureReq 9 1) { pending := [], blk := unstarted }) = true := by
    rw [hreq 1 (by decide) (by decide +kernel) (by decide +kernel) (by decide +kernel) (by decide +kernel)]
    decide +kernel
  rw [captureReq_unstarted] at hdue
  exact Bool.false_ne_true hdue

/-- Settles O17: the fabric edge and each change of a region's power state fall when they are due. -/
theorem regionPowerCompletes : Obligations.RegionPowerCompletes := by
  intro s t r b hb hc hr
  refine ⟨fun hedge => ?_, fun hnap => ?_, fun hsleep => ?_, fun hwake => ?_⟩
  · exact State.answers rfl (Block.eventIf_falls hb hc hedge rfl)
  · exact State.answers hr (Block.eventIf_falls hb hc hnap rfl)
  · exact State.answers hr (Block.eventIf_falls hb hc hsleep rfl)
  · exact State.answers hr (Block.eventIf_falls hb hc hwake rfl)

end Sys2Proof.Machine
end

section
/-! PROOFS. The orders of contexts (R66, R71, R78, R83, R84, R97) and the engines that carry them out (R75, R76, R79 to R84). -/

namespace Sys2Proof.Machine

open Sys2Proof

/-! Orders. A device's order is submitted; the host's is written to CMD_OP. -/

/-- Who orders other than the host is a scarab or a relocation. -/
theorem Who.device_of_ne_host {w : Who} (h : w ≠ .host) : w = .scarab ∨ w = .relocation := by
  cases w with
  | host => exact absurd rfl h
  | scarab => exact .inl rfl
  | relocation => exact .inr rfl

theorem Block.deviceCommand_clocked {b : Block} (hc : b.clocked = true) (op : CtxOp) : b.deviceCommand op = b.ctxSubmit op :=
  if_pos hc

/-- A guarded write none of whose conditions applies has its effect. -/
theorem Block.guarded_pass {b : Block} {cs : List (Bool × Nat)} (f : Block → Block) (h : Abort.first cs = 0) :
    b.guarded cs f = (0, f b) :=
  if_pos h

/-- The value of CMD_OP that orders an operation of a kind (R97). -/
def CtxKind.cmdOp : CtxKind → Nat
  | .load => 1 | .prefetch => 2 | .clear => 4 | .copy => 5

/-- The block after the host's order of a kind for region r: CMD_STATUS in progress, and the operation that the command objects
describe submitted (R97). -/
def Block.ordered (b : Block) (r : Nat) (kind : CtxKind) : Block :=
  (b.setReg (Reg.cmdStatus r) 128).ctxSubmit (b.cmdOpOf r kind)

/-- CMD_OP written with the value of a kind, and not aborted, orders an operation of that kind. -/
theorem Block.writeCmdOp_ordered {b : Block} {r : Nat} (kind : CtxKind)
    (h : Abort.first (b.cmdChecks (Reg.cmdOp r) kind.cmdOp r) = 0) : b.writeCmdOp r kind.cmdOp = (0, b.ordered r kind) := by
  cases kind with
  | load => exact Block.guarded_pass _ h
  | prefetch => exact Block.guarded_pass _ h
  | clear => exact Block.guarded_pass _ h
  | copy => exact Block.guarded_pass _ h

/-- CMD_OP written with 3, and not aborted, requests the switch of the region. -/
theorem Block.writeCmdOp_switch {b : Block} {r : Nat} (h : Abort.first (b.cmdChecks (Reg.cmdOp r) 3 r) = 0) :
    b.writeCmdOp r 3 =
      (0, (b.setReg (Reg.cmdStatus r) 128).requestSwitch { regions := [r], who := .host, run := none }) :=
  Block.guarded_pass _ h

/-- The host's order of a kind whose command objects are written and whose CMD_OP is not aborted is answered with 0. -/
theorem Block.hostCommand_answered {b u : Block} {r : Nat} {objs : List (Nat × Nat)} (kind : CtxKind) (hs : b.served = true)
    (hr : wfRegion r = true) (hw : b.writePlain objs = (0, u))
    (h : Abort.first (u.cmdChecks (Reg.cmdOp r) kind.cmdOp r) = 0) :
    b.host (inRecord (wfRegion r) fun b => b.hostCommand r kind.cmdOp objs) = (u.ordered r kind).result 0 := by
  refine Block.host_answered hs ?_
  rw [inRecord, if_pos hr, Block.hostCommand, hw]
  exact Block.writeCmdOp_ordered kind h

/-- Settles O14: a device's order is submitted at once; the host's is, where its command objects are written and CMD_OP is not
aborted. -/
theorem contextOrdersComplete : Obligations.ContextOrdersComplete := by
  intro s r slot hr hslot
  have hunit : (wfRegion r && wfSlot slot) = true := by rw [hr, hslot]; rfl
  refine ⟨fun hc w hw => ?_, fun hs => ?_⟩
  · have hcmd (op : CtxOp) := Block.deviceCommand_clocked hc op
    obtain rfl | rfl := Who.device_of_ne_host hw <;>
      exact ⟨fun src kernel image sig map => State.answers hunit (hcmd _), State.answers hunit (hcmd _),
        State.answers hunit (hcmd _),
        fun fromR fromSlot hf => State.answers (Bool.and_eq_true_iff.2 ⟨hunit, hf⟩) (hcmd _),
        fun rs hrs => State.answers hrs (if_pos hc)⟩
  · refine ⟨fun src kernel image sig map u hw h => ?_, fun u hw h => ?_, fun u hw h => ?_, fun fromR fromSlot u _ hw h => ?_,
      fun h => ?_⟩
    · exact State.answers rfl (Block.hostCommand_answered .load hs hr hw h)
    · exact State.answers rfl (Block.hostCommand_answered .prefetch hs hr hw h)
    · exact State.answers rfl (Block.hostCommand_answered .clear hs hr hw h)
    · exact State.answers rfl (Block.hostCommand_answered .copy hs hr hw h)
    · refine State.answers rfl (Block.host_answered hs ?_)
      rw [inRecord, if_pos hr]
      exact Block.writeCmdOp_switch h

/-! Engines. -/

/-- The block with the operations queued for an engine of a die replaced. -/
def Block.setEngineQueue (b : Block) (d : Nat) (l : List CtxOp) : Block :=
  { b with ctx := { b.ctx with engineQueue := b.ctx.engineQueue.put d l } }

section
variable {b : Block} {d : Nat} {op : CtxOp} {rest : List CtxOp} (hq : b.ctx.engineQueue.look d = op :: rest)
include hq

/-- The first operation of a queue that meets a fence ends there (R17). -/
theorem Block.loadEngineStart_fenced (hf : b.ctxFenced op = true) :
    b.loadEngineStart d = ((b.setEngineQueue d rest).ctxDone op Status.seamFence).serve op.phys := by
  simp [Block.loadEngineStart, Block.setEngineQueue, hq, hf]

/-- One that meets none, for which an engine is up and which has nothing to wait for, starts (R76, R79, R88). -/
theorem Block.loadEngineStart_starts (hf : b.ctxFenced op = false) (hup : (b.ctx.running.look d).length < b.enginesUp d)
    (hw : b.waitsWriteBack op = false) (ho : b.orderWaits op = false) :
    b.loadEngineStart d = ((b.setEngineQueue d rest).startEngine op).serve op.phys := by
  simp [Block.loadEngineStart, Block.setEngineQueue, hq, hf, hup, hw, ho]

end

theorem Block.clearEnd_running {b : Block} {r slot : Nat} {op : CtxOp} (h : b.runningOp .clear r slot = some op) :
    b.clearEnd r slot = (b.clearSlot r op.phys slot).endEngine op Status.ok := by
  unfold Block.clearEnd
  rw [h]

/-- Settles O15: the head of an engine's queue starts or ends as R17, R76, R79 and R88 say, and each end falls at its time. -/
theorem contextEnginesComplete : Obligations.ContextEnginesComplete := by
  intro s t r slot b hb hc hr hslot
  have hunit : (wfRegion r && wfSlot slot) = true := by rw [hr, hslot]; rfl
  refine ⟨fun die op rest hs hdie hq => ?_, fun _ _ => ?_, fun op hop => ?_, fun _ _ => ?_, fun _ _ => ?_, fun _ _ => ?_⟩
  · have hstart (u : Block) (h : s.blk.loadEngineStart die = u) : exec (.loadEngineStart die) s = .next (s.becomes u) :=
      State.answers hdie ((if_pos hs).trans h)
    exact ⟨fun hf hup hw ho => hstart _ (Block.loadEngineStart_starts hq hf hup hw ho),
      fun hf => hstart _ (Block.loadEngineStart_fenced hq hf)⟩
  · exact State.answers hunit (Block.event_falls hb hc rfl)
  · exact State.answers hunit (Block.event_falls hb hc (Block.clearEnd_running hop))
  · exact State.answers hunit (Block.event_falls hb hc rfl)
  · exact State.answers hr (Block.event_falls hb hc rfl)
  · exact State.answers hr (Block.event_falls hb hc rfl)

end Sys2Proof.Machine
end

section
/-! PROOFS. The region bridge (R93, R118 to R123, R133): requests taken up, completions presented, stream packets out and in. -/

namespace Sys2Proof.Machine

open Sys2Proof

/-! Requests (R120). -/

/-- The block with the requests that have passed at a region's bridge replaced. -/
def Block.setPassed (b : Block) (r : Nat) (l : List Nat) : Block :=
  { b with rgn := { b.rgn with passed := b.rgn.passed.put r l } }

section
variable {b : Block} {q : HeldReq} {w : Nat} {rest : List Nat} (hp : b.rgn.passed.look q.region = w :: rest)
include hp

theorem Block.requestPassed_head (hw : wireRequest q.region w = q) : b.requestPassed q = true := by
  unfold Block.requestPassed
  simp [hp, hw]

/-- A request that reuses a tag in use is counted and discarded. -/
theorem Block.memoryRequest_reused (hbusy : (b.setPassed q.region rest).tagBusy q.region q.tag = true) :
    b.memoryRequest q = (b.setPassed q.region rest).count (Reg.tagReuse q.region) 1 := by
  unfold Block.memoryRequest
  simp only [hp, List.tail_cons]
  exact if_pos hbusy

/-- One with a free tag opens it, and is sampled and performed. -/
theorem Block.memoryRequest_taken (hfree : (b.setPassed q.region rest).tagBusy q.region q.tag = false) :
    b.memoryRequest q = ((((b.setPassed q.region rest).setTag q.region q.tag { isOpen := true, write := q.write }).ledgerOpen
      q.region q.tag (b2n q.write) ((b.setPassed q.region rest).node * 2 ^ 52) 0 0 1).sampleRequest q).performFor q := by
  unfold Block.memoryRequest
  simp only [hp, List.tail_cons]
  exact if_neg (Bool.eq_false_iff.1 hfree)

end

/-! Completions (R93, R119, R120). -/

theorem Block.presents_of {b : Block} {r : Nat} (hl : b.clk.lastEdge = some b.clock) (he : b.rgn.edgeAt.look r = some b.clock)
    (hf : b.rgn.frozenEdge.look r ≠ some b.clock) (hv : (b.rgn.bf.look r).testBit 512 = false) : b.presents r = true := by
  unfold Block.presents Block.edgeNow
  simp [hl, he, hf, hv]

@[simp] theorem Block.tagAt_setTag (b : Block) (r tag : Nat) (x : Tag) : (b.setTag r tag x).tagAt r tag = x :=
  SMap.get_set _ _ _ _

@[simp] theorem Block.tagAt_count (b : Block) (k d r tag : Nat) : (b.count k d).tagAt r tag = b.tagAt r tag := rfl

/-- That a run has seen poison is kept in the run table, not in a bridge. -/
@[simp] theorem Block.tagAt_poisonRun (b : Block) (q r tag : Nat) : (b.poisonRun q).tagAt r tag = b.tagAt r tag := by
  unfold Block.poisonRun
  split <;> rfl

/-- The tag of a completion that has been presented keeps only the time of that edge. -/
theorem Block.tagAt_presentCompletion (b : Block) (r tag status data : Nat) :
    (b.presentCompletion r tag status data).tagAt r tag = { shown := some b.clock } := by
  unfold Block.presentCompletion
  split
  · rw [Block.tagAt_poisonRun, Block.tagAt_count, Block.tagAt_setTag]
  · rw [Block.tagAt_setTag]

/-! Streams (R121 to R123). -/

theorem Block.packetPassed_of {b : Block} {r ch : Nat} {beats : List Nat} (ho : b.rgn.outDone.look r = some (ch, beats))
    (ht : b.streamTag r = true) : b.packetPassed r ch beats = true := by
  unfold Block.packetPassed
  simp [ho, ht]

theorem Block.streamIn_arrives {b : Block} {sb : Nat} (h : b.delivers 1 sb = true) (r : Nat) (beats : List Beat) :
    b.streamIn r sb beats 0 = b.streamArrivesIn r sb beats := by
  unfold Block.streamIn
  simp [h]

/-- A packet all of whose beats the design has taken is done. -/
theorem Block.streamIn_taken {b : Block} {r : Nat} {q : InPacket} (h : b.rgn.inPacket.look r = some q)
    (ht : q.taken = q.beats.length) (h0 : q.taken ≠ 0) (beats : List Beat) :
    b.streamIn r q.sb beats q.taken = b.streamInDone r q := by
  unfold Block.streamIn
  rw [if_neg h0, h]
  exact if_pos ⟨rfl, rfl, ht⟩

/-- Settles O25: each command of the bridge falls under the conditions of its rule. -/
theorem bridgeCompletes : Obligations.BridgeCompletes := by
  intro s t r b hb hc hr
  refine ⟨fun tag write line mask data w rest htag hline hp hw => ?_, fun tag st d htag hdone hl he hf hv => ⟨?_, ?_⟩,
    fun ch x xs hch ho ht => ?_, fun sb x xs hd => ?_, fun sb x xs q hq hsb ht h0 => ?_⟩
  · have hfall (u : Block) (h : b.memoryRequest ⟨r, tag, write, line, mask.toNat, data.toNat⟩ = u) :
        exec (.memoryRequest r tag write line mask data t) s = .next (s.becomes u) :=
      State.answers (by rw [hr, htag, decide_eq_true hline]; rfl) (Block.eventIf_falls hb hc (Block.requestPassed_head hp hw) h)
    exact ⟨fun hbusy => hfall _ (Block.memoryRequest_reused hp hbusy), fun hfree => hfall _ (Block.memoryRequest_taken hp hfree)⟩
  · refine State.answers (by simp [hr, htag]) (Block.eventIf_falls hb hc (Block.presents_of hl he hf hv) ?_)
    rw [hdone]
  · rw [Block.tagAt_presentCompletion]
  · exact State.answers (by simp [hr, hch]) (Block.eventIf_falls hb hc (Block.packetPassed_of ho ht) rfl)
  · exact State.answers (by simp [hr]) (Block.event_falls hb hc (Block.streamIn_arrives hd r _))
  · refine State.answers (by simp [hr]) (Block.event_falls hb hc ?_)
    rw [← hsb]
    exact Block.streamIn_taken hq ht h0 _

end Sys2Proof.Machine
end

section
/-! PROOFS. The DT79 code (R144 to R148): a code word is a polynomial over GF(2) with the roots alpha and alpha^3, and so the
syndromes of one or two wrong bits tell which they are. -/

namespace Sys2Proof.Machine

open Sys2Proof

/-! Exclusive or is the addition of GF(2^7). -/

theorem xor_left_cancel_iff {x y z : Nat} : x ^^^ y = x ^^^ z ↔ y = z :=
  ⟨fun h => by simpa [← Nat.xor_assoc] using congrArg (x ^^^ ·) h, fun h => by rw [h]⟩

theorem xor_eq_zero_iff {x y : Nat} : x ^^^ y = 0 ↔ x = y := by
  rw [← Nat.xor_self x, xor_left_cancel_iff, eq_comm]

/-- Sums of sums, taken the other way about. -/
theorem xor_xor_xor_comm (a b c d : Nat) : (a ^^^ b) ^^^ (c ^^^ d) = (a ^^^ c) ^^^ (b ^^^ d) := by
  rw [Nat.xor_assoc, ← Nat.xor_assoc b, Nat.xor_comm b c, Nat.xor_assoc c, ← Nat.xor_assoc a]

/-- What is taken where a bit is set. -/
def pick (v : Bool) (x : Nat) : Nat := if v then x else 0

@[simp] theorem pick_false (x : Nat) : pick false x = 0 := rfl

@[simp] theorem pick_true (x : Nat) : pick true x = x := rfl

theorem pick_bne (u v : Bool) (x : Nat) : pick (u != v) x = pick u x ^^^ pick v x := by
  cases u <;> cases v <;> simp only [Bool.bne_false, Bool.bne_true, Bool.not_false, Bool.not_true, pick_false, pick_true,
    Nat.xor_zero, Nat.zero_xor, Nat.xor_self]

theorem pick_xor (v : Bool) (x y : Nat) : pick v (x ^^^ y) = pick v x ^^^ pick v y := by
  cases v
  · exact (Nat.xor_self 0).symm
  · rfl

theorem pick_lt {x : Nat} (v : Bool) (h : x < 2 ^ 7) : pick v x < 2 ^ 7 := by
  cases v
  · exact Nat.two_pow_pos 7
  · exact h

/-! Multiplication by alpha. -/

theorem gf7Double_eq (x : Nat) : gf7Double x = 2 * x ^^^ pick (x.testBit 6) 0x89 := by
  have htop : (2 * x).testBit 7 = x.testBit 6 := by rw [Nat.testBit_succ, Nat.mul_div_cancel_left x Nat.two_pos]
  unfold gf7Double
  dsimp only
  rw [htop]
  cases x.testBit 6
  · exact (Nat.xor_zero _).symm
  · rfl

theorem gf7Double_zero : gf7Double 0 = 0 := rfl

theorem gf7Double_xor (x y : Nat) : gf7Double (x ^^^ y) = gf7Double x ^^^ gf7Double y := by
  have htwice : 2 * (x ^^^ y) = 2 * x ^^^ 2 * y := by
    refine Nat.eq_of_testBit_eq fun i => ?_
    rw [Nat.testBit_xor]
    cases i with
    | zero => simp only [Nat.testBit_zero, Nat.mul_mod_right, Nat.zero_ne_one, decide_false, Bool.bne_false]
    | succ i => simp only [Nat.testBit_xor, Nat.testBit_succ, Nat.mul_div_cancel_left _ Nat.two_pos]
  rw [gf7Double_eq, gf7Double_eq, gf7Double_eq, Nat.testBit_xor, pick_bne, htwice, xor_xor_xor_comm]

theorem gf7Double_pick (v : Bool) (x : Nat) : gf7Double (pick v x) = pick v (gf7Double x) := by
  cases v
  · exact gf7Double_zero
  · rfl

theorem gf7Double_lt {x : Nat} (h : x < 2 ^ 7) : gf7Double x < 2 ^ 7 := by
  revert x
  decide

theorem gf7Double_eq_zero {x : Nat} (hx : x < 2 ^ 7) (h : gf7Double x = 0) : x = 0 := by
  revert x
  decide

theorem gf7Double_inj {x y : Nat} (hx : x < 2 ^ 7) (hy : y < 2 ^ 7) (h : gf7Double x = gf7Double y) : x = y := by
  rw [← xor_eq_zero_iff, ← gf7Double_xor] at h
  exact xor_eq_zero_iff.1 (gf7Double_eq_zero (Nat.xor_lt_two_pow hx hy) h)

/-! Multiplication: linear in both factors, commutative and associative, with inverses. -/

theorem gf7MulBits_succ (n x y : Nat) : gf7MulBits (n + 1) x y = pick (y.testBit 0) x ^^^ gf7MulBits n (gf7Double x) (y / 2) := rfl

theorem gf7MulBits_zero_right (n x : Nat) : gf7MulBits n x 0 = 0 := by
  induction n generalizing x with
  | zero => rfl
  | succ n ih => rw [gf7MulBits_succ, ih, Nat.zero_testBit, pick_false, Nat.xor_self]

theorem gf7MulBits_xor_right (n x y z : Nat) : gf7MulBits n x (y ^^^ z) = gf7MulBits n x y ^^^ gf7MulBits n x z := by
  induction n generalizing x y z with
  | zero => exact (Nat.xor_self 0).symm
  | succ n ih =>
    rw [gf7MulBits_succ, gf7MulBits_succ, gf7MulBits_succ, Nat.testBit_xor, pick_bne, Nat.xor_div_two, ih, xor_xor_xor_comm]

theorem gf7MulBits_xor_left (n x y z : Nat) : gf7MulBits n (x ^^^ y) z = gf7MulBits n x z ^^^ gf7MulBits n y z := by
  induction n generalizing x y z with
  | zero => exact (Nat.xor_self 0).symm
  | succ n ih =>
    rw [gf7MulBits_succ, gf7MulBits_succ, gf7MulBits_succ, pick_xor, gf7Double_xor, ih, xor_xor_xor_comm]

theorem gf7MulBits_double_left (n x y : Nat) : gf7MulBits n (gf7Double x) y = gf7Double (gf7MulBits n x y) := by
  induction n generalizing x y with
  | zero => exact gf7Double_zero.symm
  | succ n ih => rw [gf7MulBits_succ, gf7MulBits_succ, gf7Double_xor, gf7Double_pick, ih]

theorem gf7MulBits_lt (n : Nat) {x : Nat} (y : Nat) (h : x < 2 ^ 7) : gf7MulBits n x y < 2 ^ 7 := by
  induction n generalizing x y with
  | zero => exact Nat.two_pow_pos 7
  | succ n ih => exact Nat.xor_lt_two_pow (pick_lt _ h) (ih _ (gf7Double_lt h))

theorem gf7Mul_lt {x : Nat} (y : Nat) (h : x < 2 ^ 7) : gf7Mul x y < 2 ^ 7 := gf7MulBits_lt 7 y h

theorem gf7Mul_zero (x : Nat) : gf7Mul x 0 = 0 := gf7MulBits_zero_right 7 x

theorem gf7Mul_xor (x y z : Nat) : gf7Mul x (y ^^^ z) = gf7Mul x y ^^^ gf7Mul x z := gf7MulBits_xor_right 7 x y z

theorem xor_gf7Mul (x y z : Nat) : gf7Mul (x ^^^ y) z = gf7Mul x z ^^^ gf7Mul y z := gf7MulBits_xor_left 7 x y z

theorem gf7Mul_one (x : Nat) : gf7Mul x 1 = x := by
  have hlow : gf7Mul x 1 = x ^^^ gf7MulBits 6 (gf7Double x) 0 := rfl
  rw [hlow, gf7MulBits_zero_right, Nat.xor_zero]

theorem one_gf7Mul {x : Nat} (h : x < 2 ^ 7) : gf7Mul 1 x = x := by
  revert x
  decide +kernel

theorem zero_gf7Mul (x : Nat) : gf7Mul 0 x = 0 := by
  have h := xor_gf7Mul 0 0 x
  rwa [Nat.xor_self, Nat.xor_self] at h

theorem gf7Double_gf7Mul (x y : Nat) : gf7Mul (gf7Double x) y = gf7Double (gf7Mul x y) := gf7MulBits_double_left 7 x y

/-- A product's two right factors change places, taken bit by bit of the first. -/
theorem gf7MulBits_gf7Mul (n w x y : Nat) : gf7Mul (gf7MulBits n w y) x = gf7MulBits n (gf7Mul w x) y := by
  induction n generalizing w y with
  | zero => exact zero_gf7Mul x
  | succ n ih =>
    have hpick (v : Bool) : gf7Mul (pick v w) x = pick v (gf7Mul w x) := by
      cases v
      · exact zero_gf7Mul x
      · rfl
    rw [gf7MulBits_succ, gf7MulBits_succ, xor_gf7Mul, ih, hpick, gf7Double_gf7Mul]

theorem gf7Mul_right_comm (w x y : Nat) : gf7Mul (gf7Mul w y) x = gf7Mul (gf7Mul w x) y := gf7MulBits_gf7Mul 7 w x y

theorem gf7Mul_comm {x y : Nat} (hx : x < 2 ^ 7) (hy : y < 2 ^ 7) : gf7Mul x y = gf7Mul y x := by
  have h := gf7Mul_right_comm 1 x y
  rw [one_gf7Mul hx, one_gf7Mul hy] at h
  exact h.symm

theorem gf7Mul_assoc {x y z : Nat} (hx : x < 2 ^ 7) (hy : y < 2 ^ 7) : gf7Mul x (gf7Mul y z) = gf7Mul (gf7Mul x y) z := by
  rw [gf7Mul_comm hx (gf7Mul_lt z hy), gf7Mul_right_comm, gf7Mul_comm hy hx]

/-- The inverse of an element: its power 126 = 2 + 4 + 8 + 16 + 32 + 64. -/
def gf7Inv (x : Nat) : Nat :=
  let sq (y : Nat) := gf7Mul y y
  let x2 := sq x
  let x4 := sq x2
  let x8 := sq x4
  let x16 := sq x8
  let x32 := sq x16
  gf7Mul (gf7Mul (gf7Mul (gf7Mul (gf7Mul x2 x4) x8) x16) x32) (sq x32)

theorem gf7Inv_lt {x : Nat} (h : x < 2 ^ 7) : gf7Inv x < 2 ^ 7 := by
  have hsq : gf7Mul x x < 2 ^ 7 := gf7Mul_lt _ h
  exact gf7Mul_lt _ (gf7Mul_lt _ (gf7Mul_lt _ (gf7Mul_lt _ (gf7Mul_lt _ hsq))))

theorem gf7Inv_gf7Mul {x : Nat} (h : x < 2 ^ 7) (hx : x ≠ 0) : gf7Mul (gf7Inv x) x = 1 := by
  revert x
  decide +kernel

/-- A product is 0 only where a factor is. -/
theorem gf7Mul_ne_zero {x y : Nat} (hx : x < 2 ^ 7) (hy : y < 2 ^ 7) (hx0 : x ≠ 0) (hy0 : y ≠ 0) : gf7Mul x y ≠ 0 := by
  intro h
  refine hy0 ?_
  calc y = gf7Mul (gf7Mul (gf7Inv x) x) y := by rw [gf7Inv_gf7Mul hx hx0, one_gf7Mul hy]
    _ = gf7Mul (gf7Mul y (gf7Inv x)) x := by rw [gf7Mul_right_comm, gf7Mul_comm (gf7Inv_lt hx) hy]
    _ = gf7Mul (gf7Mul y x) (gf7Inv x) := gf7Mul_right_comm _ _ _
    _ = 0 := by rw [gf7Mul_comm hy hx, h, zero_gf7Mul]

/-! Powers of alpha. -/

theorem gf7Pow_succ (n : Nat) : gf7Pow (n + 1) = gf7Double (gf7Pow n) := rfl

theorem gf7Pow_lt (n : Nat) : gf7Pow n < 2 ^ 7 := by
  induction n with
  | zero => decide
  | succ n ih => exact gf7Double_lt ih

theorem gf7Pow_ne_zero (n : Nat) : gf7Pow n ≠ 0 := by
  induction n with
  | zero => decide
  | succ n ih => exact fun h => ih (gf7Double_eq_zero (gf7Pow_lt n) h)

theorem gf7Mul_gf7Pow (m n : Nat) : gf7Mul (gf7Pow m) (gf7Pow n) = gf7Pow (m + n) := by
  induction m with
  | zero => rw [Nat.zero_add]; exact one_gf7Mul (gf7Pow_lt n)
  | succ m ih => rw [gf7Pow_succ, gf7Double_gf7Mul, ih, Nat.succ_add, gf7Pow_succ]

/-- Alpha has order 127. -/
theorem gf7Pow_mod (n : Nat) : gf7Pow (n % 127) = gf7Pow n := by
  have hperiod (m : Nat) : gf7Pow (m + 127) = gf7Pow m := by
    rw [← gf7Mul_gf7Pow, show gf7Pow 127 = 1 by decide +kernel, gf7Mul_one]
  have hperiods (m k : Nat) : gf7Pow (m + 127 * k) = gf7Pow m := by
    induction k with
    | zero => rfl
    | succ k ih => rw [Nat.mul_succ, ← Nat.add_assoc, hperiod, ih]
  rw [← hperiods (n % 127) (n / 127), Nat.mod_add_div]

theorem gf7Pow_ne_one {n : Nat} (h : n < 127) (h0 : n ≠ 0) : gf7Pow n ≠ 1 := by
  revert n
  decide +kernel

/-- Its powers below 127 are all different. -/
theorem gf7Pow_inj {i j : Nat} (hi : i < 127) (hj : j < 127) : gf7Pow i = gf7Pow j ↔ i = j := by
  refine ⟨fun h => ?_, fun h => by rw [h]⟩
  induction i generalizing j with
  | zero => 
    by_cases h0 : j = 0
    · exact h0.symm
    · exact absurd h.symm (gf7Pow_ne_one hj h0)
  | succ i ih =>
    cases j with
    | zero => exact absurd h (gf7Pow_ne_one hi (Nat.succ_ne_zero i))
    | succ j => rw [ih (by omega) (by omega) (gf7Double_inj (gf7Pow_lt i) (gf7Pow_lt j) h)]

theorem gf7Pow_xor_ne_zero {i j : Nat} (hi : i < 127) (hj : j < 127) (h : i ≠ j) : gf7Pow i ^^^ gf7Pow j ≠ 0 :=
  fun h0 => h ((gf7Pow_inj hi hj).1 (xor_eq_zero_iff.1 h0))

/-! Words as polynomials: the sum of what the ones of a word stand for. -/

/-- The sum of the elements that `f` gives the ones of a word. -/
def syndrome (f : Nat → Nat) (n w : Nat) : Nat := (onesOf n w).foldl (fun a j => a ^^^ f j) 0

theorem syndrome_succ (f : Nat → Nat) (n w : Nat) : syndrome f (n + 1) w = syndrome f n w ^^^ pick (w.testBit n) (f n) := by
  rw [syndrome, onesOf, List.range_succ, List.filter_append, List.foldl_append]
  cases h : w.testBit n with
  | false =>
    rw [List.filter_cons_of_neg (by rw [h]; decide)]
    exact (Nat.xor_zero _).symm
  | true =>
    rw [List.filter_cons_of_pos h]
    rfl

theorem syndrome_congr {f g : Nat → Nat} {n w v : Nat} (hf : ∀ i < n, f i = g i) (hw : ∀ i < n, w.testBit i = v.testBit i) :
    syndrome f n w = syndrome g n v := by
  induction n with
  | zero => rfl
  | succ n ih =>
    rw [syndrome_succ, syndrome_succ, ih (fun i hi => hf i (by omega)) (fun i hi => hw i (by omega)), hf n (by omega), hw n (by omega)]

theorem syndrome_xor (f : Nat → Nat) (n w v : Nat) : syndrome f n (w ^^^ v) = syndrome f n w ^^^ syndrome f n v := by
  induction n with
  | zero => exact (Nat.xor_self 0).symm
  | succ n ih => rw [syndrome_succ, syndrome_succ, syndrome_succ, ih, Nat.testBit_xor, pick_bne, xor_xor_xor_comm]

theorem syndrome_zero (f : Nat → Nat) (n : Nat) : syndrome f n 0 = 0 := by
  induction n with
  | zero => rfl
  | succ n ih => rw [syndrome_succ, ih, Nat.zero_testBit, pick_false, Nat.xor_self]

/-- A word of one bit stands for that bit's element. -/
theorem syndrome_two_pow (f : Nat → Nat) (n j : Nat) : syndrome f n (2 ^ j) = pick (decide (j < n)) (f j) := by
  induction n with
  | zero => rfl
  | succ n ih =>
    rw [syndrome_succ, ih, Nat.testBit_two_pow]
    by_cases h : j = n
    · subst h
      simp only [Nat.lt_irrefl, Nat.lt_succ_self, decide_false, decide_true, pick_false, pick_true, Nat.zero_xor]
    · rw [decide_eq_false h, pick_false, Nat.xor_zero, decide_eq_decide.2 (show j < n + 1 ↔ j < n by omega)]

/-- A word put above `k` bits of another. -/
theorem syndrome_append (f : Nat → Nat) {k c : Nat} (hc : c < 2 ^ k) (n w : Nat) :
    syndrome f (k + n) (w * 2 ^ k + c) = syndrome f k c ^^^ syndrome (fun i => f (k + i)) n w := by
  induction n with
  | zero =>
    refine Eq.trans (syndrome_congr (fun _ _ => rfl) fun i hi => ?_) (Nat.xor_zero _).symm
    rw [Nat.mul_comm, Nat.testBit_two_pow_mul_add _ hc, if_pos (by omega)]
  | succ n ih =>
    rw [← Nat.add_assoc, syndrome_succ, syndrome_succ, ih, Nat.xor_assoc, Nat.mul_comm, Nat.testBit_two_pow_mul_add _ hc,
      if_neg (by omega), Nat.add_sub_cancel_left]

theorem syndrome_double (f : Nat → Nat) (n w : Nat) : gf7Double (syndrome f n w) = syndrome (fun i => gf7Double (f i)) n w := by
  induction n with
  | zero => exact gf7Double_zero
  | succ n ih => rw [syndrome_succ, syndrome_succ, gf7Double_xor, gf7Double_pick, ih]

/-! The encoder (R145): a code word is a multiple of the generator polynomial, whose roots alpha and alpha^3 are. -/

/-- Whether the elements `f` are the powers of a root of the generator polynomial x^14 + x^9 + x^8 + x^6 + x^5 + x^4 + x^2 + x + 1. -/
def isRoot (f : Nat → Nat) : Prop := ∀ m, f (m + 14) = syndrome (fun i => f (m + i)) 14 0x0377

/-- A power of alpha is a root if it is one of the polynomial itself, not shifted. -/
theorem isRoot_gf7Pow {e : Nat} (h : gf7Pow (e * 14) = syndrome (fun i => gf7Pow (e * i)) 14 0x0377) :
    isRoot fun i => gf7Pow (e * i) := by
  have hshift (k : Nat) : gf7Pow (k + e * 14) = syndrome (fun i => gf7Pow (k + e * i)) 14 0x0377 := by
    induction k with
    | zero => simpa only [Nat.zero_add] using h
    | succ k ih => simp only [Nat.succ_add, gf7Pow_succ, ih, syndrome_double]
  intro m
  simp only [Nat.mul_add, hshift]

theorem dtCheckStep_lt (n d : Nat) {r : Nat} (h : r < 2 ^ 14) : dtCheckStep n d r < 2 ^ 14 := by
  induction n generalizing r with
  | zero => exact h
  | succ n ih =>
    rw [dtCheckStep]
    refine ih ?_
    have hlow : (2 * r) % 2 ^ 14 < 2 ^ 14 := Nat.mod_lt _ (by decide)
    split
    · exact Nat.xor_lt_two_pow hlow (by decide)
    · exact hlow

/-- A shift of the check register takes each bit to the next power; the bit shifted out counts the 14th. -/
theorem syndrome_shift (f : Nat → Nat) (r : Nat) :
    syndrome f 14 ((2 * r) % 2 ^ 14) ^^^ pick (r.testBit 13) (f 14) = syndrome (fun i => f (1 + i)) 14 r := by
  have hdouble : syndrome f (1 + 14) (r * 2 ^ 1 + 0) = syndrome (fun i => f (1 + i)) 14 r := by
    rw [syndrome_append f (by decide), syndrome_zero, Nat.zero_xor]
  have htop : (2 * r).testBit 14 = r.testBit 13 := by rw [Nat.testBit_succ, Nat.mul_div_cancel_left r Nat.two_pos]
  rw [← hdouble, show r * 2 ^ 1 + 0 = 2 * r by omega, Nat.add_comm 1, syndrome_succ f 14, htop]
  refine congrArg (· ^^^ _) (syndrome_congr (fun _ _ => rfl) fun i hi => ?_)
  rw [Nat.testBit_mod_two_pow, decide_eq_true hi, Bool.true_and]

/-- One step of the check register: at a root, everything in it moves up by one power, and the data bit counts the 14th. -/
theorem syndrome_checkStep {f : Nat → Nat} (hf : isRoot f) (m r : Nat) (v : Bool) :
    syndrome (fun i => f (m + i)) 14 (if v != r.testBit 13 then (2 * r) % 2 ^ 14 ^^^ 0x0377 else (2 * r) % 2 ^ 14) =
      syndrome (fun i => f (m + 1 + i)) 14 r ^^^ pick v (f (14 + m)) := by
  have hshift := syndrome_shift (fun i => f (m + i)) r
  have hroot : syndrome (fun i => f (m + i)) 14 0x0377 = f (14 + m) := by rw [← hf m, Nat.add_comm]
  have hfeed (u : Bool) (x : Nat) : syndrome (fun i => f (m + i)) 14 (if u then x ^^^ 0x0377 else x) =
      syndrome (fun i => f (m + i)) 14 x ^^^ pick u (f (14 + m)) := by
    cases u
    · exact (Nat.xor_zero _).symm
    · exact (syndrome_xor _ _ _ _).trans (by rw [hroot]; rfl)
  simp only [Nat.add_assoc] at hshift ⊢
  rw [hfeed, ← hshift, Nat.add_comm m 14, pick_bne, Nat.xor_comm (pick v _), Nat.xor_assoc]

/-- The check register holds, at a root, what was in it and the data bits taken, both shifted up. -/
theorem syndrome_dtCheckStep {f : Nat → Nat} (hf : isRoot f) (n d r : Nat) :
    syndrome f 14 (dtCheckStep n d r) = syndrome (fun i => f (n + i)) 14 r ^^^ syndrome (fun i => f (14 + i)) n d := by
  induction n generalizing r with
  | zero =>
    simp only [Nat.zero_add]
    exact (Nat.xor_zero _).symm
  | succ n ih =>
    rw [dtCheckStep, ih, syndrome_checkStep hf, syndrome_succ _ n d, Nat.xor_assoc, Nat.xor_comm (pick _ _)]

/-- The data and check bits of a code word, without the overall parity. -/
def dtBody (d : Nat) : Nat := d % 2 ^ 64 * 2 ^ 14 + dtCheck d

theorem dtCheck_lt (d : Nat) : dtCheck d < 2 ^ 14 := dtCheckStep_lt 64 d (by decide)

/-- They vanish at a root together. -/
theorem syndrome_dtBody {f : Nat → Nat} (hf : isRoot f) (d : Nat) : syndrome f 78 (dtBody d) = 0 := by
  have hcheck : syndrome f 14 (dtCheck d) = syndrome (fun i => f (14 + i)) 64 d := by
    rw [dtCheck, syndrome_dtCheckStep hf, syndrome_zero, Nat.zero_xor]
  have hlow : syndrome (fun i => f (14 + i)) 64 (d % 2 ^ 64) = syndrome (fun i => f (14 + i)) 64 d :=
    syndrome_congr (fun _ _ => rfl) fun i hi => by rw [Nat.testBit_mod_two_pow, decide_eq_true hi, Bool.true_and]
  have happend := syndrome_append f (dtCheck_lt d) 64 (d % 2 ^ 64)
  rw [hcheck, hlow, Nat.xor_self] at happend
  exact happend

/-! The syndromes of code words (R146). -/

theorem dtS1_eq (w : Nat) : dtS1 w = syndrome (fun j => gf7Pow (1 * j)) 78 w :=
  Eq.trans rfl (syndrome_congr (f := gf7Pow) (fun j _ => by rw [Nat.one_mul]) fun _ _ => rfl)

theorem dtS3_eq (w : Nat) : dtS3 w = syndrome (fun j => gf7Pow (3 * j)) 78 w :=
  Eq.trans rfl (syndrome_congr (f := fun j => gf7Pow (3 * j % 127)) (fun j _ => gf7Pow_mod (3 * j)) fun _ _ => rfl)

theorem isRoot_alpha : isRoot fun j => gf7Pow (1 * j) := isRoot_gf7Pow (by decide +kernel)

theorem isRoot_alphaCubed : isRoot fun j => gf7Pow (3 * j) := isRoot_gf7Pow (by decide +kernel)

theorem dtBody_lt (d : Nat) : dtBody d < 2 ^ 78 := by
  have hcheck := dtCheck_lt d
  have hdata : d % 2 ^ 64 < 2 ^ 64 := Nat.mod_lt _ (by decide)
  unfold dtBody
  omega

/-- The parity bit of a code word is set where its data and check bits have odd parity. -/
theorem dtEncode_eq (d : Nat) : dtEncode d = if parityOf 78 (dtBody d) then dtBody d ^^^ 2 ^ 78 else dtBody d := by
  have hclear : (dtBody d).testBit 78 = false := Nat.testBit_lt_two_pow (dtBody_lt d)
  have hput : dtEncode d = putBit (dtBody d) 78 (parityOf 78 (dtBody d)) := by
    unfold dtEncode dtBody
    rfl
  rw [hput, putBit, hclear, xor_two_pow_of_clear hclear]
  simp only [Bool.false_eq_true, if_false]

theorem testBit_dtEncode (d : Nat) {i : Nat} (h : i < 78) : (dtEncode d).testBit i = (dtBody d).testBit i := by
  rw [dtEncode_eq]
  split
  · rw [testBit_flip, decide_eq_false (by omega), Bool.bne_false]
  · rfl

theorem dtS1_dtEncode (d : Nat) : dtS1 (dtEncode d) = 0 := by
  rw [dtS1_eq, ← syndrome_dtBody isRoot_alpha d]
  exact syndrome_congr (fun _ _ => rfl) fun i hi => testBit_dtEncode d hi

theorem dtS3_dtEncode (d : Nat) : dtS3 (dtEncode d) = 0 := by
  rw [dtS3_eq, ← syndrome_dtBody isRoot_alphaCubed d]
  exact syndrome_congr (fun _ _ => rfl) fun i hi => testBit_dtEncode d hi

/-- A wrong bit turns the parity where it is among the bits counted. -/
theorem parityOf_flip (n x j : Nat) : parityOf n (x ^^^ 2 ^ j) = (parityOf n x != decide (j < n)) := by
  have hbits : (x ^^^ 2 ^ j).testBit = fun i => x.testBit i != decide (j = i) := funext (testBit_flip x j)
  unfold parityOf
  rw [popCount_eq_countP, popCount_eq_countP, hbits, ← odd_countP_unique (p := fun i => decide (j = i))
      (fun i _ => decide_eq_decide.2 eq_comm),
    ← odd_countP_bne]

theorem dtSp_dtEncode (d : Nat) : dtSp (dtEncode d) = false := by
  have hbody : parityOf 79 (dtBody d) = parityOf 78 (dtBody d) := by
    have hclear : (dtBody d).testBit 78 = false := Nat.testBit_lt_two_pow (dtBody_lt d)
    rw [parityOf, popCount, hclear]
    simp only [b2n, Bool.false_eq_true, if_false, Nat.zero_add, parityOf]
  rw [dtSp, dtEncode_eq]
  split
  · next h => rw [parityOf_flip, hbody, h]; rfl
  · next h => rw [hbody, Bool.eq_false_iff.2 h]

/-- With both syndromes 0 no bit is wrong, or the parity bit alone. -/
theorem dtDecode_of_zero {w : Nat} (h1 : dtS1 w = 0) (h3 : dtS3 w = 0) :
    dtDecode w = if dtSp w then .single 78 else .clean :=
  if_pos ⟨h1, h3⟩

theorem dtDecode_clean {w : Nat} (h1 : dtS1 w = 0) (h3 : dtS3 w = 0) (hp : dtSp w = false) : dtDecode w = .clean := by
  rw [dtDecode_of_zero h1 h3, hp]
  exact if_neg Bool.false_ne_true

theorem dtData_dtEncode {d : Nat} (h : d < 2 ^ 64) : dtData (dtEncode d) = d := by
  have hcheck := dtCheck_lt d
  have hbits : dtData (dtEncode d) = bitsOf (dtBody d) 77 14 := by
    refine Nat.eq_of_testBit_eq fun i => ?_
    rw [dtData, testBit_bitsOf, testBit_bitsOf]
    by_cases hi : i < 77 + 1 - 14
    · rw [testBit_dtEncode d (by omega)]
    · rw [decide_eq_false hi, Bool.false_and, Bool.false_and]
  rw [hbits, bitsOf, dtBody, Nat.shiftRight_eq_div_pow]
  omega

/-- Settles O12: a code word is a multiple of the generator polynomial with even overall parity. -/
theorem dt79Clean : Obligations.Dt79Clean := fun d h =>
  ⟨dtS1_dtEncode d, dtS3_dtEncode d, dtSp_dtEncode d, dtDecode_clean (dtS1_dtEncode d) (dtS3_dtEncode d) (dtSp_dtEncode d),
    dtData_dtEncode h⟩

/-! A wrong bit adds its power of alpha to S1, and the cube of that to S3. -/

/-- The cube of an element. -/
def cube (x : Nat) : Nat := gf7Mul x (gf7Mul x x)

theorem cube_gf7Pow (j : Nat) : cube (gf7Pow j) = gf7Pow (3 * j) := by
  rw [cube, gf7Mul_gf7Pow, gf7Mul_gf7Pow, show j + (j + j) = 3 * j by omega]

theorem dtS1_flip (w : Nat) {j : Nat} (h : j < 78) : dtS1 (w ^^^ 2 ^ j) = dtS1 w ^^^ gf7Pow j := by
  rw [dtS1_eq, dtS1_eq, syndrome_xor, syndrome_two_pow, decide_eq_true h, pick_true, Nat.one_mul]

theorem dtS3_flip (w : Nat) {j : Nat} (h : j < 78) : dtS3 (w ^^^ 2 ^ j) = dtS3 w ^^^ cube (gf7Pow j) := by
  rw [dtS3_eq, dtS3_eq, syndrome_xor, syndrome_two_pow, decide_eq_true h, pick_true, cube_gf7Pow]

/-- The parity bit, position 78, is in neither syndrome. -/
theorem dtS1_flip_parity (w : Nat) : dtS1 (w ^^^ 2 ^ 78) = dtS1 w := by
  rw [dtS1_eq, dtS1_eq, syndrome_xor, syndrome_two_pow, decide_eq_false (by omega), pick_false, Nat.xor_zero]

theorem dtS3_flip_parity (w : Nat) : dtS3 (w ^^^ 2 ^ 78) = dtS3 w := by
  rw [dtS3_eq, dtS3_eq, syndrome_xor, syndrome_two_pow, decide_eq_false (by omega), pick_false, Nat.xor_zero]

/-- Each wrong bit of the 79 turns the overall parity. -/
theorem dtSp_flip (w : Nat) {j : Nat} (h : j < 79) : dtSp (w ^^^ 2 ^ j) = !dtSp w := by
  rw [dtSp, dtSp, parityOf_flip, decide_eq_true h, Bool.bne_true]

/-! The decoder (R147). -/

/-- The position of a power of alpha is found. -/
theorem dtLog_gf7Pow {j : Nat} (hj : j < 78) : dtLog (gf7Pow j) = some j := by
  refine List.find?_range_eq_some.2 ⟨beq_iff_eq.2 rfl, List.mem_range.2 hj, fun i hi => ?_⟩
  rw [Bool.not_eq_true', beq_eq_false_iff_ne, Ne, gf7Pow_inj (by omega) (by omega)]
  exact Nat.ne_of_lt hi

/-- Where S3 is the cube of S1, one bit of the first 78 is wrong, and the overall parity tells whether it is the only one. -/
theorem dtDecode_cube {w j : Nat} (hj : j < 78) (h1 : dtS1 w = gf7Pow j) (h3 : dtS3 w = cube (gf7Pow j)) :
    dtDecode w = if dtSp w then .single j else .double j 78 := by
  have hne := gf7Pow_ne_zero j
  unfold dtDecode
  dsimp only
  rw [h1, h3, if_neg (fun h => hne h.1), if_neg hne, if_pos (show cube (gf7Pow j) = gf7Mul (gf7Pow j) (gf7Mul (gf7Pow j) (gf7Pow j)) from rfl),
    dtLog_gf7Pow hj]

/-- The places among the first `n` where one of two holds. -/
theorem filter_range_pair {p : Nat → Bool} {j k : Nat} (hjk : j < k) {n : Nat} (h : ∀ i < n, p i = decide (i = j ∨ i = k)) :
    (List.range n).filter p = (if j < n then [j] else []) ++ if k < n then [k] else [] := by
  induction n with
  | zero => rfl
  | succ n ih =>
    rw [List.range_succ, List.filter_append, ih fun i hi => h i (by omega)]
    have hlast : p n = decide (n = j ∨ n = k) := h n (by omega)
    by_cases hnj : n = j
    · subst hnj
      rw [List.filter_cons_of_pos (by rw [hlast]; exact decide_eq_true (.inl rfl)), if_neg (Nat.lt_irrefl n), if_neg (by omega),
        if_pos (Nat.lt_succ_self n), if_neg (by omega)]
      rfl
    · by_cases hnk : n = k
      · subst hnk
        rw [List.filter_cons_of_pos (by rw [hlast]; exact decide_eq_true (.inr rfl)), if_pos hjk, if_neg (Nat.lt_irrefl n),
          if_pos (by omega), if_pos (Nat.lt_succ_self n)]
        rfl
      · have hj : j < n + 1 ↔ j < n := by omega
        have hk : k < n + 1 ↔ k < n := by omega
        rw [List.filter_cons_of_neg (by rw [hlast, decide_eq_false (fun h => h.elim hnj hnk)]; exact Bool.false_ne_true),
          List.filter_nil, List.append_nil]
        simp only [hj, hk]

/-! The algebra of the decoder's equations. -/

section
variable {a b : Nat} (ha : a < 2 ^ 7) (hb : b < 2 ^ 7)
include ha hb

/-- The square of a sum is the sum of the squares. -/
theorem gf7Mul_self_xor : gf7Mul (a ^^^ b) (a ^^^ b) = gf7Mul a a ^^^ gf7Mul b b := by
  rw [gf7Mul_xor, xor_gf7Mul, xor_gf7Mul, gf7Mul_comm hb ha, xor_xor_xor_comm, Nat.xor_comm (gf7Mul a b), xor_xor_xor_comm,
    Nat.xor_self, Nat.xor_zero]

/-- The cube of a sum. -/
theorem cube_xor : cube (a ^^^ b) = cube a ^^^ cube b ^^^ gf7Mul (gf7Mul a b) (a ^^^ b) := by
  have hleft : gf7Mul b (gf7Mul a a) = gf7Mul (gf7Mul a b) a := by rw [gf7Mul_assoc hb ha, gf7Mul_comm hb ha]
  have hright : gf7Mul a (gf7Mul b b) = gf7Mul (gf7Mul a b) b := gf7Mul_assoc ha hb
  rw [cube, gf7Mul_self_xor ha hb, xor_gf7Mul, gf7Mul_xor, gf7Mul_xor, gf7Mul_xor, hleft, hright, cube, cube]
  ac_rfl

/-- With S1 = a + b and S3 = a^3 + b^3 the quadratic of R147 is (a + b)(z + a)(z + b). -/
theorem quadratic_factors {z : Nat} (hz : z < 2 ^ 7) :
    gf7Mul (a ^^^ b) (gf7Mul z z) ^^^ gf7Mul (gf7Mul (a ^^^ b) (a ^^^ b)) z ^^^ (cube a ^^^ cube b ^^^ cube (a ^^^ b)) =
      gf7Mul (a ^^^ b) (gf7Mul (z ^^^ a) (z ^^^ b)) := by
  have hab : a ^^^ b < 2 ^ 7 := Nat.xor_lt_two_pow ha hb
  have hcubes : cube a ^^^ cube b ^^^ cube (a ^^^ b) = gf7Mul (a ^^^ b) (gf7Mul a b) := by
    rw [cube_xor ha hb, ← Nat.xor_assoc, Nat.xor_self, Nat.zero_xor, gf7Mul_comm (gf7Mul_lt b ha) hab]
  have hroots : gf7Mul (z ^^^ a) (z ^^^ b) = gf7Mul z z ^^^ gf7Mul (a ^^^ b) z ^^^ gf7Mul a b := by
    rw [gf7Mul_xor, xor_gf7Mul, xor_gf7Mul, xor_gf7Mul, gf7Mul_comm hz hb]
    ac_rfl
  rw [hcubes, hroots, ← gf7Mul_assoc hab hab, gf7Mul_xor _ _ (gf7Mul a b), gf7Mul_xor _ (gf7Mul z z)]

/-- The cube of a sum of two is not the sum of their cubes. -/
theorem cube_xor_ne (ha0 : a ≠ 0) (hb0 : b ≠ 0) (hab : a ^^^ b ≠ 0) : cube a ^^^ cube b ≠ cube (a ^^^ b) := by
  rw [cube_xor ha hb, Ne, ← xor_eq_zero_iff, ← Nat.xor_assoc, Nat.xor_self, Nat.zero_xor]
  exact gf7Mul_ne_zero (gf7Mul_lt b ha) (Nat.xor_lt_two_pow ha hb) (gf7Mul_ne_zero ha hb ha0 hb0) hab

end

/-- The quadratic has the two wrong positions for its roots. -/
theorem dtRoots_pair {j k : Nat} (hjk : j < k) (hk : k < 78) :
    dtRoots (gf7Pow j ^^^ gf7Pow k) (cube (gf7Pow j) ^^^ cube (gf7Pow k)) = [j, k] := by
  have hsum := gf7Pow_xor_ne_zero (i := j) (j := k) (by omega) (by omega) (Nat.ne_of_lt hjk)
  have hlt (i n : Nat) : gf7Pow i ^^^ gf7Pow n < 2 ^ 7 := Nat.xor_lt_two_pow (gf7Pow_lt i) (gf7Pow_lt n)
  have hzero {i : Nat} (hi : i < 78) :
      gf7Mul (gf7Pow j ^^^ gf7Pow k) (gf7Mul (gf7Pow i ^^^ gf7Pow j) (gf7Pow i ^^^ gf7Pow k)) = 0 ↔ i = j ∨ i = k := by
    constructor
    · intro h
      by_cases hij : i = j
      · exact .inl hij
      by_cases hik : i = k
      · exact .inr hik
      exact absurd h (gf7Mul_ne_zero (hlt j k) (gf7Mul_lt _ (hlt i j)) hsum (gf7Mul_ne_zero (hlt i j) (hlt i k)
        (gf7Pow_xor_ne_zero (by omega) (by omega) hij) (gf7Pow_xor_ne_zero (by omega) (by omega) hik)))
    · rintro (rfl | rfl)
      · rw [Nat.xor_self, zero_gf7Mul, gf7Mul_zero]
      · rw [Nat.xor_self, gf7Mul_zero, gf7Mul_zero]
  unfold dtRoots
  dsimp only
  rw [filter_range_pair hjk fun i hi => ?_, if_pos (Nat.lt_trans hjk hk), if_pos hk]
  · rfl
  · refine (congrArg (· == 0) (quadratic_factors (gf7Pow_lt j) (gf7Pow_lt k) (gf7Pow_lt i))).trans ?_
    rw [Bool.eq_iff_iff, beq_iff_eq, decide_eq_true_iff]
    exact hzero hi

theorem dtDecode_pair {w j k : Nat} (hjk : j < k) (hk : k < 78) (h1 : dtS1 w = gf7Pow j ^^^ gf7Pow k)
    (h3 : dtS3 w = cube (gf7Pow j) ^^^ cube (gf7Pow k)) (hp : dtSp w = false) : dtDecode w = .double j k := by
  have hsum := gf7Pow_xor_ne_zero (i := j) (j := k) (by omega) (by omega) (Nat.ne_of_lt hjk)
  have hcube : cube (gf7Pow j) ^^^ cube (gf7Pow k) ≠
      gf7Mul (gf7Pow j ^^^ gf7Pow k) (gf7Mul (gf7Pow j ^^^ gf7Pow k) (gf7Pow j ^^^ gf7Pow k)) :=
    cube_xor_ne (gf7Pow_lt j) (gf7Pow_lt k) (gf7Pow_ne_zero j) (gf7Pow_ne_zero k) hsum
  unfold dtDecode
  dsimp only
  rw [h1, h3, if_neg (fun h => hsum h.1), if_neg hsum, if_neg hcube, hp, if_neg Bool.false_ne_true, dtRoots_pair hjk hk]

/-- An outcome inverts the positions that it names. -/
theorem apply_single (w j : Nat) : (DtOutcome.single j).apply w = w ^^^ 2 ^ j := putBit_not w j

theorem apply_double (w j k : Nat) : (DtOutcome.double j k).apply w = w ^^^ 2 ^ j ^^^ 2 ^ k := by
  unfold DtOutcome.apply
  dsimp only
  rw [putBit_not w j, putBit_not]

section
variable {w : Nat} (h1 : dtS1 w = 0) (h3 : dtS3 w = 0) (hp : dtSp w = false)
include h1 h3 hp

theorem dtDecode_oneWrong {j : Nat} (hj : j < 79) : dtDecode (w ^^^ 2 ^ j) = .single j := by
  have hpar : dtSp (w ^^^ 2 ^ j) = true := by
    rw [dtSp_flip w hj, hp, Bool.not_false]
  by_cases htop : j = 78
  · subst htop
    rw [dtDecode_of_zero ((dtS1_flip_parity w).trans h1) ((dtS3_flip_parity w).trans h3), if_pos hpar]
  · have hlow : j < 78 := by omega
    rw [dtDecode_cube hlow (by rw [dtS1_flip w hlow, h1, Nat.zero_xor]) (by rw [dtS3_flip w hlow, h3, Nat.zero_xor]), if_pos hpar]

theorem dtDecode_twoWrong {j k : Nat} (hjk : j < k) (hk : k < 79) : dtDecode (w ^^^ 2 ^ j ^^^ 2 ^ k) = .double j k := by
  have hpar : dtSp (w ^^^ 2 ^ j ^^^ 2 ^ k) = false := by
    rw [dtSp_flip _ hk, dtSp_flip w (Nat.lt_trans hjk hk), hp, Bool.not_false, Bool.not_true]
  have hlow : j < 78 := by omega
  have hj1 : dtS1 (w ^^^ 2 ^ j) = gf7Pow j := by rw [dtS1_flip w hlow, h1, Nat.zero_xor]
  have hj3 : dtS3 (w ^^^ 2 ^ j) = cube (gf7Pow j) := by rw [dtS3_flip w hlow, h3, Nat.zero_xor]
  by_cases htop : k = 78
  · subst htop
    rw [dtDecode_cube hlow (by rw [dtS1_flip_parity, hj1]) (by rw [dtS3_flip_parity, hj3]), hpar, if_neg Bool.false_ne_true]
  · have hlow' : k < 78 := by omega
    exact dtDecode_pair hjk hlow' (by rw [dtS1_flip _ hlow', hj1]) (by rw [dtS3_flip _ hlow', hj3]) hpar

end

/-- Settles O13: the syndromes of one wrong bit are a power of alpha and its cube, those of two the sums of both, and the decoder solves
for them. -/
theorem dt79Corrects : Obligations.Dt79Corrects := by
  intro d _
  refine ⟨fun j hj => ⟨dtDecode_oneWrong (dtS1_dtEncode d) (dtS3_dtEncode d) (dtSp_dtEncode d) hj, ?_⟩,
    fun j k hjk hk => ⟨dtDecode_twoWrong (dtS1_dtEncode d) (dtS3_dtEncode d) (dtSp_dtEncode d) hjk hk, ?_⟩⟩
  · rw [apply_single, flip_flip]
  · rw [apply_double, Nat.xor_assoc _ (2 ^ k), Nat.xor_comm (2 ^ k), ← Nat.xor_assoc, flip_flip, flip_flip]

end Sys2Proof.Machine
end

section
/-! PROOFS. Lines of stacked memory (R129, R144, R147, R162): what a read of a line depends on, and what a write of one leaves behind. -/

namespace Sys2Proof

/-- A list of bytes gives back its value, cut to its length. -/
theorem bytesVal_bytesOf (n x : Nat) : bytesVal (bytesOf n x) = x % 256 ^ n := by
  induction n generalizing x with
  | zero => simp [bytesOf, bytesVal, Nat.mod_one]
  | succ n ih =>
    rw [bytesOf, bytesVal, ih, BitVec.toNat_ofNat, show 256 ^ (n + 1) = 256 * 256 ^ n from Nat.pow_succ']
    exact (Nat.mod_mul (a := 256)).symm

theorem length_bytesOf (n x : Nat) : (bytesOf n x).length = n := by
  induction n generalizing x with
  | zero => rfl
  | succ n ih => rw [bytesOf, List.length_cons, ih]

end Sys2Proof

namespace Sys2Proof.Machine

open Sys2Proof

/-! The data arrays: a column word written, and what it leaves alone. -/

theorem Mem.cells_setCells (m : Mem) (a : Nat) (vs : List Byte) :
    (List.range vs.length).map (fun j => (m.setCells a vs).cell (a + j)) = vs := by
  induction vs generalizing m a with
  | nil => rfl
  | cons v vs ih =>
    have hhead : ((m.setCell a v).setCells (a + 1) vs).cell a = v := by
      rw [Mem.cell_setCells_out _ _ _ (.inl (Nat.lt_succ_self a)), Mem.cell_setCell]
    rw [List.length_cons, List.range_succ_eq_map, List.map_cons, List.map_map, Mem.setCells, Nat.add_zero a, hhead]
    refine congrArg (v :: ·) (Eq.trans (List.map_congr_left fun j _ => ?_) (ih (m.setCell a v) (a + 1)))
    rw [Function.comp_apply, Nat.succ_eq_add_one, Nat.add_comm j 1, Nat.add_assoc]

/-- A column word reads as written. -/
theorem Mem.colWord_setColWord (m : Mem) (w v : Nat) : (m.setColWord w v).colWord w = v % 2 ^ 80 := by
  have hcells := Mem.cells_setCells m (10 * w) (bytesOf 10 v)
  rw [length_bytesOf] at hcells
  rw [Mem.colWord, Mem.setColWord, hcells, bytesVal_bytesOf, show 256 ^ 10 = 2 ^ 80 by decide]

theorem Block.writeColumn_cell (b : Block) (l w x : Nat) {a : Nat} (h : a < 10 * w ∨ 10 * w + 10 ≤ a) :
    (b.writeColumn l w x).mem.cell a = b.mem.cell a :=
  Mem.cell_setCells_out _ _ _ (by rwa [length_bytesOf])

@[simp] theorem Block.writeColumn_reg (b : Block) (l w x k : Nat) : (b.writeColumn l w x).reg k = b.reg k := rfl

theorem Mem.setCells_lines (m : Mem) (a : Nat) (vs : List Byte) : (m.setCells a vs).lines = m.lines := by
  induction vs generalizing m a with
  | nil => rfl
  | cons v vs ih => exact ih _ _

@[simp] theorem Block.writeColumn_lines (b : Block) (l w x : Nat) : (b.writeColumn l w x).mem.lines = b.mem.lines :=
  Mem.setCells_lines _ _ _

theorem Block.notePosition_cells (b : Block) (bank l j : Nat) : (b.notePosition bank l j).mem.cells = b.mem.cells := by
  unfold Block.notePosition
  dsimp only
  split
  · rfl
  · split <;> rfl

theorem Mem.cell_congr {m n : Mem} (h : m.cells = n.cells) (a : Nat) : m.cell a = n.cell a := by
  rw [Mem.cell, Mem.cell, h]

/-! What a word read can do: nothing, or its correction written back, counted and noted. -/

/-- The block after a word of a line has been corrected as an outcome says: written back, counted and noted for column repair. -/
def Block.corrected (b : Block) (l i : Nat) (o : DtOutcome) (y : Nat) : Block :=
  let b := b.writeColumn l (8 * l + i) y
  match bankOfLine l with
  | none => b
  | some bank =>
    let b := match o with
      | .single _ => b.count (Reg.ce1 bank) 1
      | _ => b.count (Reg.ce2 bank) 1
    o.positions.foldl (fun b j => b.notePosition bank l j) (b.count (Reg.cePass bank) 1)

/-- A word read answers the data of the word as decoded, and corrects what is found correctable. -/
theorem Block.readWord_eq (b : Block) (l i : Nat) {x : Nat} {o : DtOutcome} (hx : b.readColumn l (8 * l + i) = x) (ho : dtDecode x = o) :
    b.readWord l i = (dtData (o.apply x), o == .uncorrectable,
      if o = .clean ∨ o = .uncorrectable then b else b.corrected l i o (o.apply x)) := by
  unfold Block.readWord Block.corrected
  simp only [hx, ho]
  cases o with
  | clean => rfl
  | uncorrectable => rfl
  | single j => cases bankOfLine l <;> rfl
  | double j k => cases bankOfLine l <;> rfl

/-- The positions that the decoder names are among the 79 of a code word. -/
theorem dtDecode_positions (w : Nat) : ∀ j ∈ (dtDecode w).positions, j < 79 := by
  have hlog {x i : Nat} (hi : dtLog x = some i) : i < 78 := List.mem_range.1 (List.mem_of_find?_eq_some hi)
  have hroots {x y i : Nat} (hi : i ∈ dtRoots x y) : i < 78 := by
    unfold dtRoots at hi
    exact List.mem_range.1 (List.mem_filter.1 hi).1
  unfold dtDecode
  dsimp only
  split
  · split <;> simp [DtOutcome.positions]
  split
  · simp [DtOutcome.positions]
  split
  · split
    · next hi =>
      have := hlog hi
      split <;> simp [DtOutcome.positions] <;> omega
    · simp [DtOutcome.positions]
  split
  · simp [DtOutcome.positions]
  split
  · next j k hjk =>
    have hj := hroots (i := j) (by rw [hjk]; simp)
    have hk := hroots (i := k) (by rw [hjk]; simp)
    simp [DtOutcome.positions]
    omega
  · simp [DtOutcome.positions]

/-! What reads and corrections leave alone. -/

theorem Block.corrected_cell (b : Block) (l i : Nat) (o : DtOutcome) (y : Nat) {a : Nat}
    (h : a < 10 * (8 * l + i) ∨ 10 * (8 * l + i) + 10 ≤ a) : (b.corrected l i o y).mem.cell a = b.mem.cell a := by
  have hnote (c : Block) (bank : Nat) (js : List Nat) : (js.foldl (fun b j => b.notePosition bank l j) c).mem.cells = c.mem.cells :=
    foldl_keeps (fun b : Block => b.mem.cells) _ (fun b j => b.notePosition_cells bank l j) js c
  rw [← b.writeColumn_cell l (8 * l + i) y h]
  refine Mem.cell_congr ?_ a
  unfold Block.corrected
  dsimp only
  split
  · rfl
  · rw [hnote, Block.count_mem]
    split <;> rw [Block.count_mem]

theorem Block.repairInUse_congr {b c : Block} {bank : Nat} (h : c.reg (Reg.repair bank) = b.reg (Reg.repair bank)) :
    c.repairInUse bank = b.repairInUse bank := by
  rw [Block.repairInUse, Block.repairInUse, h]

theorem Block.setReg_repairInUse (b : Block) {k : Nat} (v bank : Nat) (h : Reg.repair bank ≠ k) :
    (b.setReg k v).repairInUse bank = b.repairInUse bank :=
  Block.repairInUse_congr (b.reg_setReg_ne v h)

theorem Block.count_repairInUse (b : Block) {k : Nat} (d bank : Nat) (h : Reg.repair bank ≠ k) :
    (b.count k d).repairInUse bank = b.repairInUse bank :=
  Block.repairInUse_congr (b.reg_count_ne d h)

/-- Arming a repair takes no position into use. -/
theorem Block.notePosition_repairInUse (b : Block) (bank l : Nat) {j : Nat} (hj : j < 79) (k : Nat) :
    (b.notePosition bank l j).repairInUse k = b.repairInUse k := by
  unfold Block.notePosition
  dsimp only
  split
  · rfl
  · split
    · next harm =>
      by_cases hk : k = bank
      · subst hk
        have hnew : (2 ^ 14 + j).testBit 15 = false := Nat.testBit_lt_two_pow (by omega)
        have hold : (b.reg (Reg.repair k)).testBit 15 = false := Nat.testBit_lt_two_pow (Nat.lt_trans harm.2 (by decide))
        rw [Block.repairInUse, Block.repairInUse, Block.reg_setReg, hnew, hold]
        rfl
      · exact Block.setReg_repairInUse _ _ _ (by simp only [Reg.repair]; omega)
    · rfl

theorem Block.corrected_repairInUse (b : Block) (l i y bank : Nat) {o : DtOutcome} (ho : ∀ j ∈ o.positions, j < 79) :
    (b.corrected l i o y).repairInUse bank = b.repairInUse bank := by
  have hnote (c : Block) (k : Nat) {js : List Nat} (hjs : ∀ j ∈ js, j < 79) :
      (js.foldl (fun b j => b.notePosition k l j) c).repairInUse bank = c.repairInUse bank := by
    induction js generalizing c with
    | nil => rfl
    | cons j js ih =>
      rw [List.foldl_cons, ih _ fun i hi => hjs i (List.mem_cons_of_mem j hi), Block.notePosition_repairInUse _ _ _ (hjs j (by simp))]
  have hwrite : (b.writeColumn l (8 * l + i) y).repairInUse bank = b.repairInUse bank := rfl
  unfold Block.corrected
  dsimp only
  split
  · exact hwrite
  · rw [hnote _ _ ho, Block.count_repairInUse _ _ _ (by simp only [Reg.repair, Reg.cePass]; omega), ← hwrite]
    split <;> exact Block.count_repairInUse _ _ _ (by simp only [Reg.repair, Reg.ce1, Reg.ce2]; omega)

/-! What the decoder sees of a column. -/

/-- A column reads the same where its ten bytes and the repairs in use are the same. -/
theorem Block.readColumn_congr {b c : Block} (l : Nat) {w : Nat} (hcell : ∀ a, 10 * w ≤ a → a < 10 * w + 10 → c.mem.cell a = b.mem.cell a)
    (hrep : ∀ bank, c.repairInUse bank = b.repairInUse bank) : c.readColumn l w = b.readColumn l w := by
  have hword : c.mem.colWord w = b.mem.colWord w := by
    rw [Mem.colWord, Mem.colWord]
    refine congrArg bytesVal (List.map_congr_left fun j hj => ?_)
    have := List.mem_range.1 hj
    exact hcell _ (by omega) (by omega)
  rw [Block.readColumn, Block.readColumn, hword, funext hrep]

theorem Block.readWord_cell (b : Block) (l i : Nat) {a : Nat} (h : a < 10 * (8 * l + i) ∨ 10 * (8 * l + i) + 10 ≤ a) :
    (b.readWord l i).2.2.mem.cell a = b.mem.cell a := by
  rw [b.readWord_eq l i rfl rfl]
  dsimp only
  split
  · rfl
  · exact b.corrected_cell l i _ _ h

/-- Reading a word changes no other column. -/
theorem Block.readWord_readColumn (b : Block) (l i k : Nat) {w : Nat} (h : w ≠ 8 * l + i) :
    (b.readWord l i).2.2.readColumn k w = b.readColumn k w := by
  refine Block.readColumn_congr k (fun a ha ha' => b.readWord_cell l i (by omega)) fun bank => ?_
  rw [b.readWord_eq l i rfl rfl]
  dsimp only
  split
  · rfl
  · exact b.corrected_repairInUse l i _ bank (dtDecode_positions _)

/-- Reading the first words of a line changes no other column. -/
theorem Block.readWords_readColumn (b : Block) (l n k : Nat) {w : Nat} (h : ∀ i < n, w ≠ 8 * l + i) :
    (b.readWords l n).2.2.readColumn k w = b.readColumn k w := by
  induction n with
  | zero => rfl
  | succ n ih =>
    rw [Block.readWords, ← ih fun i hi => h i (by omega)]
    exact Block.readWord_readColumn _ l n k (h n (by omega))

/-- What a line's words read as depends on their columns alone. -/
theorem Block.readWords_congr {b c : Block} {l n : Nat} (h : ∀ i < n, c.readColumn l (8 * l + i) = b.readColumn l (8 * l + i)) :
    (c.readWords l n).1 = (b.readWords l n).1 ∧ (c.readWords l n).2.1 = (b.readWords l n).2.1 := by
  induction n with
  | zero => exact ⟨rfl, rfl⟩
  | succ n ih =>
    obtain ⟨hd, hu⟩ := ih fun i hi => h i (by omega)
    have hcol (e : Block) : (e.readWords l n).2.2.readColumn l (8 * l + n) = e.readColumn l (8 * l + n) :=
      e.readWords_readColumn l n l fun i hi => by omega
    have hn := h n (by omega)
    simp only [Block.readWords, Block.readWord_eq _ l n (hcol _) rfl, hd, hu, hn, and_self]

/-! A line voted and read. -/

theorem Block.voteLine_cells (b : Block) (l : Nat) : (b.voteLine l).2.2.mem.cells = b.mem.cells := by
  unfold Block.voteLine
  dsimp only
  split <;> rfl

theorem Block.voteLine_repairInUse (b : Block) (l k : Nat) : (b.voteLine l).2.2.repairInUse k = b.repairInUse k := by
  unfold Block.voteLine
  dsimp only
  split
  · rfl
  · exact (Block.count_repairInUse _ _ _ (by simp only [Reg.repair, Reg.voteMends]; omega)).trans rfl

theorem Block.voteLine_readColumn (b : Block) (l k w : Nat) : (b.voteLine l).2.2.readColumn k w = b.readColumn k w :=
  Block.readColumn_congr k (fun a _ _ => Mem.cell_congr (b.voteLine_cells l) a) fun bank => b.voteLine_repairInUse l bank

/-- What a line reads as depends on its vote and its eight columns. -/
theorem Block.readLine_value (b : Block) (l : Nat) :
    (b.readLine l).1 = (if (b.mem.lineState l).1 then (b.readWords l 8).1 else 0) ∧
    (b.readLine l).2.1 = ((b.mem.lineState l).2 || ((b.mem.lineState l).1 && decide (0 < (b.readWords l 8).2.1))) := by
  have hvote : b.voteLine l = ((b.mem.lineState l).1, (b.mem.lineState l).2, (b.voteLine l).2.2) := by
    unfold Block.voteLine
    dsimp only
    split <;> rfl
  obtain ⟨hd, hu⟩ := Block.readWords_congr (n := 8) fun i _ => b.voteLine_readColumn l l (8 * l + i)
  rw [Block.readLine, hvote]
  cases (b.mem.lineState l).1 with
  | false => simp
  | true => simp [hd, hu]

theorem Block.readLine_congr {b c : Block} {l : Nat} (hs : c.mem.lineState l = b.mem.lineState l)
    (hc : ∀ i < 8, c.readColumn l (8 * l + i) = b.readColumn l (8 * l + i)) :
    (c.readLine l).1 = (b.readLine l).1 ∧ (c.readLine l).2.1 = (b.readLine l).2.1 := by
  obtain ⟨hd, hu⟩ := Block.readWords_congr hc
  rw [c.readLine_value l |>.1, c.readLine_value l |>.2, b.readLine_value l |>.1, b.readLine_value l |>.2, hs, hd, hu]
  exact ⟨rfl, rfl⟩

/-! A line stored. -/

/-- The decoder sees the 79 bits of a code word alone: SPARE counts nothing. -/
theorem dtDecode_congr {w v : Nat} (h : ∀ i < 79, w.testBit i = v.testBit i) : dtDecode w = dtDecode v := by
  have hones : onesOf 78 w = onesOf 78 v := List.filter_congr fun i hi => h i (Nat.lt_trans (List.mem_range.1 hi) (by decide))
  have hpar : dtSp w = dtSp v := by
    rw [dtSp, dtSp, parityOf, parityOf, popCount_eq_countP, popCount_eq_countP,
      List.countP_congr fun i hi => by rw [h i (List.mem_range.1 hi)]]
  rw [dtDecode, dtDecode, show dtS1 w = dtS1 v by rw [dtS1, dtS1, hones], show dtS3 w = dtS3 v by rw [dtS3, dtS3, hones], hpar]

theorem dtData_congr {w v : Nat} (h : ∀ i < 79, w.testBit i = v.testBit i) : dtData w = dtData v := by
  refine Nat.eq_of_testBit_eq fun i => ?_
  rw [dtData, dtData, testBit_bitsOf, testBit_bitsOf]
  by_cases hi : i < 77 + 1 - 14
  · rw [h (14 + i) (by omega)]
  · rw [decide_eq_false hi, Bool.false_and, Bool.false_and]

theorem testBit_putBit (x i : Nat) (v : Bool) (k : Nat) : (putBit x i v).testBit k = if i = k then v else x.testBit k := by
  by_cases hv : v = x.testBit i
  · have hsame : putBit x i v = x := by
      rw [hv, putBit]
      split <;> simp_all
    rw [hsame]
    split
    · next hk => rw [hv, hk]
    · rfl
  · have hnot : v = !x.testBit i := by cases v <;> cases h : x.testBit i <;> simp_all
    rw [hnot, putBit_not, testBit_flip]
    by_cases hk : i = k <;> simp [hk]

/-- A repair that is in use is also stored. -/
theorem Block.repairStores_of_inUse {b : Block} {bank j : Nat} (h : b.repairInUse bank = some j) : b.repairStores bank = some j := by
  unfold Block.repairInUse at h
  unfold Block.repairStores
  split at h
  · next hbit => rw [hbit, Bool.true_or, if_pos rfl, h]
  · cases h

/-- A column just stored reads back, but for SPARE: a repaired position comes from there, where its bit was stored as well. -/
theorem Block.readColumn_writeColumn (b : Block) (l w x : Nat) {i : Nat} (hi : i < 79) :
    ((b.writeColumn l w x).readColumn l w).testBit i = x.testBit i := by
  have hlow (v : Bool) : (putBit x 79 v % 2 ^ 80).testBit i = x.testBit i := by
    rw [Nat.testBit_mod_two_pow, decide_eq_true (by omega), Bool.true_and, testBit_putBit, if_neg (by omega)]
  have hspare (v : Bool) : (putBit x 79 v % 2 ^ 80).testBit 79 = v := by
    rw [Nat.testBit_mod_two_pow, decide_eq_true (by omega), Bool.true_and, testBit_putBit, if_pos rfl]
  have hinUse : (b.writeColumn l w x).repairInUse = b.repairInUse := rfl
  rw [Block.readColumn, hinUse]
  unfold Block.writeColumn
  dsimp only
  rw [Mem.colWord_setColWord]
  cases hbank : bankOfLine l with
  | none => exact hlow false
  | some bank =>
    rw [Option.bind_some, Option.bind_some]
    cases huse : b.repairInUse bank with
    | none =>
      cases b.repairStores bank with
      | none => exact hlow false
      | some j => exact hlow (x.testBit j)
    | some j =>
      rw [Block.repairStores_of_inUse huse]
      dsimp only
      rw [testBit_putBit, hspare, hlow]
      split
      · next h => rw [h]
      · rfl

/-- Storing columns one by one, the `i`-th holding `f i`. -/
def Block.storeColumns (b : Block) (l : Nat) (f : Nat → Nat) (n : Nat) : Block :=
  (List.range n).foldl (fun b i => b.writeColumn l (8 * l + i) (f i)) b

theorem Block.storeColumns_succ (b : Block) (l : Nat) (f : Nat → Nat) (n : Nat) :
    b.storeColumns l f (n + 1) = (b.storeColumns l f n).writeColumn l (8 * l + n) (f n) := by
  rw [Block.storeColumns, List.range_succ, List.foldl_append]
  rfl

theorem Block.storeWords_eq (b : Block) (l d : Nat) :
    b.storeWords l d = b.storeColumns l (fun i => dtEncode (bitsOf d (64 * i + 63) (64 * i))) 8 := rfl

theorem Block.storeColumns_cell (b : Block) (l : Nat) (f : Nat → Nat) (n : Nat) {a : Nat} (h : a < 80 * l ∨ 80 * l + 10 * n ≤ a) :
    (b.storeColumns l f n).mem.cell a = b.mem.cell a := by
  induction n with
  | zero => rfl
  | succ n ih => rw [Block.storeColumns_succ, Block.writeColumn_cell _ _ _ _ (by omega), ih (by omega)]

theorem Block.storeColumns_lines (b : Block) (l : Nat) (f : Nat → Nat) (n : Nat) :
    (b.storeColumns l f n).mem.lines = b.mem.lines := by
  induction n with
  | zero => rfl
  | succ n ih => rw [Block.storeColumns_succ, Block.writeColumn_lines, ih]

theorem Block.storeColumns_reg (b : Block) (l : Nat) (f : Nat → Nat) (n k : Nat) : (b.storeColumns l f n).reg k = b.reg k := by
  induction n with
  | zero => rfl
  | succ n ih => rw [Block.storeColumns_succ, Block.writeColumn_reg, ih]

theorem Block.writeColumn_readColumn_ne (b : Block) (l w x k : Nat) {v : Nat} (h : v ≠ w) :
    (b.writeColumn l w x).readColumn k v = b.readColumn k v :=
  Block.readColumn_congr k (fun a ha ha' => b.writeColumn_cell l w x (by omega)) fun _ => rfl

theorem Block.storeColumns_readColumn (b : Block) (l : Nat) (f : Nat → Nat) {n i j : Nat} (hi : i < n) (hj : j < 79) :
    ((b.storeColumns l f n).readColumn l (8 * l + i)).testBit j = (f i).testBit j := by
  induction n with
  | zero => omega
  | succ n ih =>
    rw [Block.storeColumns_succ]
    by_cases h : i = n
    · rw [h, Block.readColumn_writeColumn _ _ _ _ hj]
    · rw [Block.writeColumn_readColumn_ne _ _ _ _ _ (by omega), ih (by omega)]

/-! Words and lines. -/

/-- Eight words side by side. -/
theorem bitsOf_words (d n : Nat) : d % 2 ^ (64 * n) + bitsOf d (64 * n + 63) (64 * n) * 2 ^ (64 * n) = d % 2 ^ (64 * (n + 1)) := by
  have hwidth : 64 * n + 63 + 1 - 64 * n = 64 := by omega
  rw [bitsOf, hwidth, Nat.shiftRight_eq_div_pow, Nat.mul_add, Nat.pow_add, Nat.mod_mul, Nat.mul_comm (2 ^ (64 * n)), Nat.mul_one]

/-- Columns that the decoder finds to be the code words of a line's data read as that data, and reading them changes nothing. -/
theorem Block.readWords_encoded {b : Block} {l d n : Nat}
    (h : ∀ i < n, ∀ j < 79, (b.readColumn l (8 * l + i)).testBit j = (dtEncode (bitsOf d (64 * i + 63) (64 * i))).testBit j) :
    b.readWords l n = (d % 2 ^ (64 * n), 0, b) := by
  induction n with
  | zero => rw [Block.readWords, Nat.mul_zero, Nat.pow_zero, Nat.mod_one]
  | succ n ih =>
    have hword : bitsOf d (64 * n + 63) (64 * n) < 2 ^ 64 := by
      rw [bitsOf, show 64 * n + 63 + 1 - 64 * n = 64 by omega]
      exact Nat.mod_lt _ (Nat.two_pow_pos 64)
    obtain ⟨-, -, -, hclean, hdata⟩ := dt79Clean _ hword
    have hcol := h n (by omega)
    have hread : b.readWord l n = (bitsOf d (64 * n + 63) (64 * n), false, b) := by
      rw [b.readWord_eq l n rfl (o := .clean) (by rw [dtDecode_congr hcol, hclean]), DtOutcome.apply, dtData_congr hcol, hdata]
      rfl
    rw [Block.readWords, ih fun i hi => h i (by omega), ← bitsOf_words]
    simp only [hread]
    rfl

theorem Block.storeWords_cell (b : Block) (l d : Nat) {a : Nat} (h : a < 80 * l ∨ 80 * l + 80 ≤ a) :
    (b.storeWords l d).mem.cell a = b.mem.cell a :=
  b.storeColumns_cell l _ 8 h

theorem Block.storeWords_lines (b : Block) (l d : Nat) : (b.storeWords l d).mem.lines = b.mem.lines := b.storeColumns_lines l _ 8

theorem Block.storeWords_reg (b : Block) (l d k : Nat) : (b.storeWords l d).reg k = b.reg k := b.storeColumns_reg l _ 8 k

/-! The rest of a write: the vote before it and the state after it. -/

theorem Block.noteState_mem (b : Block) (l : Nat) (was now : Bool) : (b.noteState l was now).mem = (b.setLineState l true now).mem := by
  unfold Block.noteState
  dsimp only
  split
  · rfl
  · split
    · rfl
    · split <;> rfl

theorem Block.noteState_cells (b : Block) (l : Nat) (was now : Bool) : (b.noteState l was now).mem.cells = b.mem.cells := by
  rw [b.noteState_mem]
  rfl

theorem Block.noteState_repairInUse (b : Block) (l : Nat) (was now : Bool) (k : Nat) :
    (b.noteState l was now).repairInUse k = b.repairInUse k := by
  have hset : (b.setLineState l true now).repairInUse k = b.repairInUse k := rfl
  unfold Block.noteState
  dsimp only
  split
  · exact hset
  · split
    · exact (Block.count_repairInUse _ _ _ (by simp only [Reg.repair, Reg.poisonedLines]; omega)).trans hset
    · split
      · exact (Block.setReg_repairInUse _ _ _ (by simp only [Reg.repair, Reg.poisonedLines]; omega)).trans hset
      · exact hset

theorem Block.noteState_readColumn (b : Block) (l : Nat) (was now : Bool) (k w : Nat) :
    (b.noteState l was now).readColumn k w = b.readColumn k w :=
  Block.readColumn_congr k (fun a _ _ => Mem.cell_congr (b.noteState_cells l was now) a) fun bank =>
    b.noteState_repairInUse l was now bank

theorem Mem.lineState_congr {m n : Mem} {l : Nat} (h : n.lines.look l = m.lines.look l) : n.lineState l = m.lineState l := by
  rw [Mem.lineState, Mem.lineState, h]

theorem Block.lineState_setLineState_ne (b : Block) {l k : Nat} (v p : Bool) (h : k ≠ l) :
    (b.setLineState l v p).mem.lineState k = b.mem.lineState k :=
  Mem.lineState_congr (SMap.look_put_ne _ _ h)

theorem Block.voteLine_lineState_ne (b : Block) {l k : Nat} (h : k ≠ l) :
    (b.voteLine l).2.2.mem.lineState k = b.mem.lineState k := by
  unfold Block.voteLine
  dsimp only
  split
  · rfl
  · exact b.lineState_setLineState_ne _ _ h

/-! A write of a line. -/

theorem Block.readWords_cell (b : Block) (l n : Nat) {a : Nat} (h : a < 80 * l ∨ 80 * l + 10 * n ≤ a) :
    (b.readWords l n).2.2.mem.cell a = b.mem.cell a := by
  induction n with
  | zero => rfl
  | succ n ih => exact (Block.readWord_cell _ l n (by omega)).trans (ih (by omega))

theorem Block.retireLimit_cells (b : Block) (bank : Nat) : (b.retireLimit bank).mem.cells = b.mem.cells := by
  unfold Block.retireLimit
  split
  · exact (b.setBankState_arrays bank _).1
  · rfl

theorem Block.newUe_cells (b : Block) (l n : Nat) : (b.newUe l n).mem.cells = b.mem.cells := by
  unfold Block.newUe
  dsimp only
  split
  · rfl
  · rw [Block.retireLimit_cells, Block.logEvent_mem]
    rfl

theorem Block.afterRead_cells (b : Block) (l : Nat) : (b.afterRead l).mem.cells = b.mem.cells := by
  unfold Block.afterRead
  split
  · exact b.retireLimit_cells _
  · rfl

/-- A write changes no byte outside the line's eight column words. -/
theorem Block.writeLine_cell (b : Block) (l d m : Nat) (p : Bool) (i : Option Nat) {a : Nat} (h : a < 80 * l ∨ 80 * l + 80 ≤ a) :
    (b.writeLine l d m p i).2.mem.cell a = b.mem.cell a := by
  have hvote : ((b.invalidate l i).voteLine l).2.2.mem.cell a = b.mem.cell a := Mem.cell_congr (Block.voteLine_cells _ l) a
  have hstore (c : Block) (x : Nat) (was now : Bool) : ((c.storeWords l x).noteState l was now).mem.cell a = c.mem.cell a :=
    (Mem.cell_congr (Block.noteState_cells _ l was now) a).trans (c.storeWords_cell l x h)
  unfold Block.writeLine
  dsimp only
  split
  · exact (hstore _ _ _ _).trans hvote
  · split
    · exact (hstore _ _ _ _).trans hvote
    · have hread := (Block.readWords_cell ((b.invalidate l i).voteLine l).2.2 l 8 h).trans hvote
      rw [hstore]
      split
      · exact (Mem.cell_congr (Block.newUe_cells _ l _) a).trans hread
      · exact (Mem.cell_congr (Block.afterRead_cells _ l) a).trans hread

/-- A write of a whole line votes the line, stores its words and sets its state. -/
theorem Block.writeLine_whole (b : Block) (l d : Nat) (p : Bool) (i : Option Nat) :
    (b.writeLine l d fullMask p i).2 =
      ((((b.invalidate l i).voteLine l).2.2.storeWords l d).noteState l ((b.invalidate l i).voteLine l).2.1 p) := by
  unfold Block.writeLine
  dsimp only
  rw [if_pos rfl]

section
variable (b : Block) (l d : Nat) (p : Bool) (i : Option Nat)

/-- A whole line just written reads as written. -/
theorem Block.readLine_writeLine (hd : d < 2 ^ 512) :
    ((b.writeLine l d fullMask p i).2.readLine l).1 = d ∧ ((b.writeLine l d fullMask p i).2.readLine l).2.1 = p := by
  have hstate : (b.writeLine l d fullMask p i).2.mem.lineState l = (true, p) := by
    rw [b.writeLine_whole, Block.noteState_mem, Block.lineState_setLineState]
  have hwords : (b.writeLine l d fullMask p i).2.readWords l 8 = (d % 2 ^ (64 * 8), 0, (b.writeLine l d fullMask p i).2) := by
    refine Block.readWords_encoded fun k hk j hj => ?_
    rw [b.writeLine_whole, Block.noteState_readColumn]
    exact Block.storeColumns_readColumn _ l _ hk hj
  have hall : d < 2 ^ (64 * 8) := by
    rw [show 64 * 8 = 512 from rfl]
    exact hd
  rw [(Block.readLine_value _ l).1, (Block.readLine_value _ l).2, hstate, hwords, Nat.mod_eq_of_lt hall]
  exact ⟨if_pos rfl, Bool.or_false p⟩

/-- Every other line reads as before. -/
theorem Block.readLine_writeLine_ne {k : Nat} (hk : k ≠ l) :
    ((b.writeLine l d fullMask p i).2.readLine k).1 = (b.readLine k).1 ∧
    ((b.writeLine l d fullMask p i).2.readLine k).2.1 = (b.readLine k).2.1 := by
  rw [b.writeLine_whole]
  refine Block.readLine_congr ?_ fun j hj => ?_
  · have hstore := Mem.lineState_congr (l := k) (congrArg (SMap.look · k) (Block.storeWords_lines ((b.invalidate l i).voteLine l).2.2 l d))
    rw [Block.noteState_mem, Block.lineState_setLineState_ne _ _ _ hk, hstore, Block.voteLine_lineState_ne _ hk]
    rfl
  · rw [Block.noteState_readColumn]
    refine Block.readColumn_congr k (fun a ha ha' => ?_) fun bank => ?_
    · rw [Block.storeWords_cell _ l d (by omega)]
      exact Mem.cell_congr (Block.voteLine_cells _ l) a
    · exact (Block.repairInUse_congr (Block.storeWords_reg _ l d _)).trans (Block.voteLine_repairInUse _ l bank)

end

/-- Settles O11: a write stays within its line, and the code words it stores decode clean. -/
theorem lineWritten : Obligations.LineWritten :=
  ⟨fun b l d m _ p i h => b.writeLine_cell l d m p i h,
    fun b l d p i hd _ => ⟨(b.readLine_writeLine l d p i hd).1, (b.readLine_writeLine l d p i hd).2,
      fun _ hk => b.readLine_writeLine_ne l d p i hk⟩⟩

end Sys2Proof.Machine
end

section
/-! PROOFS. Memory keeps its canonical form (R129, R155, R160 to R164). -/

namespace Sys2Proof.Machine

open Sys2Proof

/-- Memory in canonical form is kept so by a block's change. -/
def keepsForm (f : Block → Block) : Prop := ∀ b : Block, b.mem.wf = true → (f b).mem.wf = true

/-- An event keeps the form where its work does: the passing of time leaves the memory alone. -/
theorem wf_eventIf {f : Block → Block} (hf : keepsForm f) (p : Block → Bool) (t : Nat) : keepsForm (fun b => b.eventIf t p f) := by
  intro b hb
  have hat : (b.at t).mem.wf = true := by rw [Block.at_mem]; exact hb
  dsimp only
  unfold Block.eventIf
  rcases Block.event_cases b t (fun b => if p b then f b else b) with h | h
  · rw [h]
    split
    · exact hf _ hat
    · exact hat
  · rw [h]
    exact hat

theorem wf_guarded (cs : List (Bool × Nat)) {f : Block → Block} {b : Block} (hb : b.mem.wf = true) (hf : (f b).mem.wf = true) :
    (b.guarded cs f).2.mem.wf = true := by
  unfold Block.guarded
  dsimp only
  split
  · exact hf
  · exact hb

theorem wf_host {f : Block → Nat × Block} (hf : keepsForm (fun b => (f b).2)) : keepsForm (fun b => b.host f) := by
  intro b hb
  dsimp only
  unfold Block.host
  split
  · exact hf b hb
  · exact hb

theorem wf_inRecord (ok : Bool) {f : Block → Nat × Block} (hf : keepsForm (fun b => (f b).2)) :
    keepsForm (fun b => (inRecord ok f b).2) := by
  intro b hb
  dsimp only
  unfold inRecord
  split
  · exact hf b hb
  · exact hb

/-- A command keeps the form where the block it answers does. -/
theorem wf_answer {s u : State} {ok : Bool} {b : Block} (h : s.answer ok b = .next u) (hs : s.blk.mem.wf = true) (hb : b.mem.wf = true) :
    u.blk.mem.wf = true := by
  cases ok <;> cases h
  · exact hs
  · exact hb

/-- The patrol begins a pass by clearing counters, and reads its line unless the bank is retired. -/
theorem wf_patrolVisit : keepsForm Block.patrolVisit := by
  intro b hb
  have hclear (l : List Nat) (c : Block) : (l.foldl (fun b k => b.setReg (Reg.cePass k) 0) c).mem = c.mem :=
    foldl_keeps Block.mem (fun b k => b.setReg (Reg.cePass k) 0) (fun _ _ => rfl) l c
  unfold Block.patrolVisit
  extract_lets p l c d
  have hc : c.mem.wf = true := by
    show (ite _ _ _ : Block).mem.wf = true
    split
    · rw [hclear]
      exact hb
    · exact hb
  have hd : d.mem.wf = true := by
    show (ite _ _ _ : Block).mem.wf = true
    split
    · exact hc
    · exact c.wf_readLine l hc
  split
  · rw [Block.count_mem, Block.setReg_mem]
    exact hd
  · exact hd

theorem wf_retireBank (bank : Nat) : keepsForm (·.retireBank bank) := by
  intro b hb
  have hmem : (b.retireBank bank).mem = (b.setBankState bank 3).mem := by
    unfold Block.retireBank Block.blowFuse
    dsimp only
    rw [Block.setReg_mem, Block.setReg_mem]
  dsimp only
  rw [hmem]
  exact b.wf_setBankState bank 3 hb

theorem wf_writeRetireBank (bank : Nat) : keepsForm (fun b => (b.writeRetireBank bank).2) := by
  intro b hb
  refine wf_guarded _ hb ?_
  split
  · exact hb
  · exact b.wf_setBankState bank 2 hb

theorem wf_writeCounterClear (bank v : Nat) : keepsForm (fun b => (b.writeCounterClear bank v).2) := by
  intro b hb
  refine wf_guarded _ hb ?_
  dsimp only
  split
  · exact Block.wf_setBankState _ bank 0 (by rw [Block.setRegs_mem]; exact hb)
  · rw [Block.setRegs_mem]; exact hb

/-- Settles O10: the operations of memory and the commands that use them keep its form. -/
theorem memoryKeepsForm : Obligations.MemoryKeepsForm := by
  refine ⟨fun b hb => ⟨fun l d m p i => b.wf_writeLine l d m p i hb, fun l => b.wf_readLine l hb, fun a n v => b.wf_writeBytes a n v hb,
    fun a n => b.wf_readBytes a n hb, fun f u => b.wf_wipeLines f u hb⟩, fun s u t bank hs => ⟨fun h => ?_, fun h => ?_, fun h => ?_,
    fun v h => ?_, fun h => ?_⟩⟩
  · exact wf_answer h hs (wf_eventIf wf_patrolVisit _ t _ hs)
  · exact wf_answer h hs (wf_eventIf (fun b hb => b.wf_repairWalk bank hb) _ t _ hs)
  · exact wf_answer h hs (wf_host (wf_writeRetireBank bank) _ (by rw [Block.at_mem]; exact hs))
  · exact wf_answer h hs (wf_host (wf_inRecord _ (wf_writeCounterClear bank v)) _ hs)
  · exact wf_answer h hs (wf_eventIf (wf_retireBank bank) _ t _ hs)

end Sys2Proof.Machine
end

section
/-! PROOFS. The end of a wipe (R155) with a package still to be read (R378): the command has the package read as well. -/

namespace Sys2Proof.Machine

open Sys2Proof

/-- A wipe of bank 0 in progress, and a package command that waits for it to read its package from there. -/
def wipeHoldsPackage : Block :=
  { clk := { mode := .run }
    mem := { wipe := some (false, 0) }
    cfg := { pkgJob := some { cmd := 1, type := 2, code := 0, status := Status.ok, unread := true } } }

/-- A package that has been read leaves its command with nothing unread. -/
theorem readPackage_read (b : Block) (cmd type : Nat) : (b.readPackage cmd type).cfg.pkgJob.map (·.unread) = some false := by
  unfold Block.readPackage
  dsimp only
  split
  · rfl
  · rfl

theorem packageUnread_waiting {b : Block} {j : PkgJob} (hj : b.cfg.pkgJob = some j) (hu : j.unread = true) :
    b.packageUnread = b.unlessWiped (·.readPackage j.cmd j.type) := by
  unfold Block.packageUnread
  rw [hj]
  exact if_pos hu

theorem wipeHoldsPackage_falls : wipeHoldsPackage.wipeComplete.fallsNow (·.readPackage 1 2) = true := by
  decide +kernel

/-- The package is read once the wipe has ended, where the wipe's end alone leaves it unread. -/
theorem wipeHoldsPackage_unread : wipeHoldsPackage.wipeComplete.cfg.pkgJob.map (·.unread) = some true ∧
    wipeHoldsPackage.wipeComplete.packageUnread.cfg.pkgJob.map (·.unread) = some false := by
  refine ⟨rfl, ?_⟩
  rw [packageUnread_waiting rfl rfl, Block.unlessWiped_falls wipeHoldsPackage_falls, readPackage_read]

/-- Refutes O20: the end of a wipe also has a package read that waited for it, and its job is then no longer the one that the statement
leaves in place. -/
theorem not_memoryCommandsComplete : ¬ Obligations.MemoryCommandsComplete := by
  intro h
  obtain ⟨-, -, -, hwipe, -⟩ := h { pending := [], blk := wipeHoldsPackage } 0 wipeHoldsPackage (Block.at_past _ (Nat.le_refl 0)) rfl
  have hstated : exec (.wipeComplete 0) { pending := [], blk := wipeHoldsPackage } =
      .next (State.becomes _ wipeHoldsPackage.wipeComplete) := hwipe rfl
  have hmodel : exec (.wipeComplete 0) { pending := [], blk := wipeHoldsPackage } =
      .next (State.becomes _ wipeHoldsPackage.wipeComplete.packageUnread) :=
    State.answers rfl (Block.eventIf_falls (Block.at_past _ (Nat.le_refl 0)) rfl rfl rfl)
  obtain ⟨hleft, hread⟩ := wipeHoldsPackage_unread
  rw [hmodel] at hstated
  injection hstated with heq
  have hblk := congrArg State.blk heq
  rw [State.becomes_blk, State.becomes_blk] at hblk
  rw [hblk, hleft] at hread
  cases hread

end Sys2Proof.Machine
end

section
/-! PROOFS. The commands over scarabs and the host's over runs (R205 to R214). -/

namespace Sys2Proof.Machine

open Sys2Proof

/-- A write of the host to a record of the dictionary that is not aborted has its effect. -/
theorem Block.host_inRecord {b : Block} {ok : Bool} {f : Block → Nat × Block} (hs : b.served = true) (hok : ok = true)
    (h0 : (f b).1 = 0) : b.host (inRecord ok f) = (f b).2.result 0 := by
  subst hok
  exact Block.host_done (f := inRecord true f) hs h0

/-- A fence lets the attempt go once the window edge has come. -/
theorem Block.attemptFree {b : Block} {st : Nat} (hfence : st = Status.seamFence → b.draining = false) :
    ¬(st = Status.seamFence && b.draining) = true := by
  by_cases h : st = Status.seamFence <;> simp [h, hfence]

section
variable {b : Block} {x st : Nat} (hret : (b.runAt x).retiring = some st) (hfence : st = Status.seamFence → b.draining = false)
  (hdrained : (b.runAt x).state = .preempted ∨ (b.runAt x).active? = true ∧ b.drained x = true)
include hret hfence hdrained

/-- A run whose set has drained loses its attempt, unless the host has aborted the run. -/
theorem Block.runRetired_attempt (hdone : ∀ e, (b.runAt x).done = some e → e.1 ≠ Status.abortedByHost) :
    b.runRetired x = b.endAttempt x st := by
  unfold Block.runRetired
  rw [hret]
  dsimp only
  rw [if_neg (Block.attemptFree hfence), if_pos hdrained]
  split
  · next h => exact if_neg (hdone _ h)
  · rfl

/-- A run that the host has aborted meanwhile ends (R205). -/
theorem Block.runRetired_aborted {res : Nat} (hdone : (b.runAt x).done = some (Status.abortedByHost, res)) :
    b.runRetired x = b.finish x Status.abortedByHost res := by
  unfold Block.runRetired
  rw [hret]
  dsimp only
  rw [if_neg (Block.attemptFree hfence), if_pos hdrained, hdone]
  exact if_pos rfl

end

/-- Settles O24: each command over scarabs and runs falls under its conditions. -/
theorem scarabCommandsComplete : Obligations.ScarabCommandsComplete := by
  intro s t b hb hc
  refine ⟨fun run hs _ h0 => ?_, fun run st hrun hret hfence hdrained hf => ⟨fun hdone => ?_, fun res hdone => ?_⟩,
    fun k hk htick hthief => ?_, fun k addr hk hst => ?_, fun k hs hk h0 => ?_, fun k hk hdue => ?_, fun k hs hk h0 => ?_,
    fun k hs h0 => ?_, fun v hs h0 => ?_, fun run anchor hs _ h0 hf => ?_, fun run target hs _ h0 => ?_, fun run hs _ h0 hf => ?_⟩
  · subst hb
    exact State.answers rfl (Block.host_done hs h0)
  · exact State.answers hrun ((Block.event_unwiped hb hc hf).trans
      (Block.runRetired_attempt (b := b.unstalled) hret hfence hdrained hdone))
  · exact State.answers hrun ((Block.event_unwiped hb hc hf).trans
      (Block.runRetired_aborted (b := b.unstalled) hret hfence hdrained hdone))
  · exact State.answers hk (Block.eventIf_falls hb hc (by simp [htick, hthief]) rfl)
  · exact State.answers hk (Block.eventIf_falls hb hc (decide_eq_true hst) rfl)
  · exact State.answers rfl (Block.host_inRecord hs hk h0)
  · exact State.answers hk (Block.eventIf_falls hb hc hdue rfl)
  · subst hb
    exact State.answers rfl (Block.host_inRecord hs hk h0)
  · exact State.answers rfl (Block.host_done hs h0)
  · exact State.answers rfl (Block.host_done hs h0)
  · subst hb
    exact State.answers rfl ((Block.unlessWiped_falls hf).trans (Block.host_done hs h0))
  · subst hb
    exact State.answers rfl (Block.host_done hs h0)
  · subst hb
    exact State.answers rfl ((Block.unlessWiped_falls hf).trans (Block.host_done hs h0))

end Sys2Proof.Machine
end

section
/-! PROOFS. The DMA channels (R168 to R173). -/

namespace Sys2Proof.Machine

open Sys2Proof

/-- An advance of a ring that is on and not refused writes the index (R169). -/
theorem Block.dmaProd_accepted {b : Block} {c v : Nat} (hon : b.reg (Reg.dmaEnable c) ≠ 0)
    (hadv : advanceRefused (b.dmaSize c) (b.dmaAt c).prodRd v
      (((b.dmaAt c).cons + b.dmaSize c - (b.dmaAt c).prodRd % b.dmaSize c + b.dmaSize c - 1) % b.dmaSize c) = false) :
    b.dmaProd c v = (Status.ok, b.setDma c { b.dmaAt c with prodRd := v, refused := false }) := by
  unfold Block.dmaProd
  rw [if_neg hon]
  dsimp only
  rw [hadv]
  rfl

theorem Block.descriptorEnd_over {b : Block} {c : Nat} {j : DmaJob} (hj : (b.dmaAt c).job = some j) (hover : j.over = true) :
    b.descriptorEnd c = b.endDescriptor c j.desc j.status (doneBytes j.desc j.committed) := by
  unfold Block.descriptorEnd
  rw [hj]
  exact if_pos hover

/-- An access to a doorbell page is answered. -/
theorem Block.doorbell_answered {b u : Block} {f : Block → Nat × Block} {st : Nat} (hc : b.clocked = true) (hf : f b = (st, u)) :
    b.doorbell f = u.emit .completion 0 [st] := by
  unfold Block.doorbell
  rw [if_pos hc, hf]

/-- A write of DMA_CMD that is not aborted: RESUME, ABORT or RESET (R173). -/
theorem Block.writeDmaCmd_done {b : Block} {c v : Nat} (h0 : (b.writeDmaCmd c v).1 = 0) : (b.writeDmaCmd c v).2 =
    if v = 1 then b.setReg (Reg.dmaState c) 1
    else if v = 2 then b.stopDma c
    else b.setDma c { b.dmaAt c with cons := 0, prodRd := 0, refused := false, dbCount := 0 } := by
  unfold Block.writeDmaCmd at h0 ⊢
  rw [Block.guarded_ok _ _ _ h0]

/-- A write of 1 to DMA_ENABLE that is not aborted. -/
theorem Block.writeDmaEnable_on {b : Block} {c : Nat} (h0 : (b.writeDmaEnable c 1).1 = 0) :
    (b.writeDmaEnable c 1).2 = b.setReg (Reg.dmaEnable c) 1 := by
  unfold Block.writeDmaEnable at h0 ⊢
  rw [Block.guarded_ok _ _ _ h0]
  rfl

/-- A write of DMA_CMD by the host that leaves `u` behind. -/
theorem Block.host_dmaCmd {b u : Block} {c v : Nat} (hs : b.served = true) (hc : wfDma c = true) (h0 : (b.writeDmaCmd c v).1 = 0)
    (hu : (b.writeDmaCmd c v).2 = u) : b.host (inRecord (wfDma c) (fun b => b.writeDmaCmd c v)) = u.result 0 := by
  rw [Block.host_inRecord hs hc h0, hu]

/-- Settles O31: each command of a DMA channel falls under its conditions. -/
theorem dmaCompletes : Obligations.DmaCompletes := by
  intro s t c b hb hc hwf
  refine ⟨fun v => ?_, fun htakes hf => ?_, fun j hj hover hf => ?_, fun hs => ⟨fun h0 => ?_, fun h0 => ?_, fun h0 => ?_, fun h0 => ?_⟩⟩
  · intro x n hcl hon hadv
    refine State.answers rfl (Block.doorbell_answered hcl ?_)
    rw [if_pos hwf]
    exact Block.dmaProd_accepted hon hadv
  · exact State.answers hwf (Block.eventIf_falls hb hc htakes (Block.unlessWiped_falls hf))
  · exact State.answers hwf ((Block.event_unwiped hb hc hf).trans (Block.descriptorEnd_over (b := b.unstalled) hj hover))
  · exact State.answers rfl (Block.host_dmaCmd hs hwf h0 (Block.writeDmaCmd_done h0))
  · exact State.answers rfl (Block.host_dmaCmd hs hwf h0 (Block.writeDmaCmd_done h0))
  · exact State.answers rfl (Block.host_dmaCmd hs hwf h0 (Block.writeDmaCmd_done h0))
  · rw [← Block.writeDmaEnable_on h0]
    exact State.answers rfl (Block.host_inRecord hs hwf h0)

end Sys2Proof.Machine
end

section
/-! PROOFS. Ring intake when the run table is full, and the run table entry that intake takes (R186). -/

namespace Sys2Proof.Machine

open Sys2Proof

/-- The free entry of the run table is free, and no entry below it is. -/
theorem Block.freeEntry_lowest {b : Block} {x : Nat} (h : b.freeEntry = some x) :
    (b.runAt x).state = .free ∧ ∀ y, y < x → (b.runAt y).state ≠ .free := by
  obtain ⟨hfree, -, hbelow⟩ := List.find?_range_eq_some.1 h
  exact ⟨eq_of_beq hfree, fun y hy => by simpa using hbelow y hy⟩

/-- A ring whose intake is paused, its pause counted. -/
def Block.pauseIntake (b : Block) (n : Nat) : Block :=
  { b with disp := { b.disp with paused := n :: b.disp.paused } }.count Reg.intakeStalls 1

/-- Intake of an entry while no run table entry is free pauses its ring, once. -/
theorem Block.intake_tableFull {b : Block} {n k : Nat} (hk : b.servant (b.reg (Reg.intakeScarab n)) = some k)
    (hstarted : b.started = true) (hon : b.reg (Reg.enable n) ≠ 0) (hentry : (b.ring n).cons ≠ (b.ring n).prod)
    (hfull : b.freeEntry = none) : b.intake n = if b.disp.paused.contains n then b else b.pauseIntake n := by
  have htaken : ¬ (!b.started || b.reg (Reg.enable n) == 0 || (b.ring n).cons == (b.ring n).prod) = true := by
    simp [hstarted, hon, hentry]
  unfold Block.intake
  dsimp only
  rw [hk]
  dsimp only
  rw [if_neg htaken, hfull]
  rfl

/-- INTAKE_STALLS is a U32. -/
theorem regTop_intakeStalls : regTop Reg.intakeStalls = 2 ^ 32 - 1 := by decide +kernel

theorem Block.pauseIntake_intakeStalls (b : Block) (n : Nat) :
    (b.pauseIntake n).reg Reg.intakeStalls = satAdd (b.reg Reg.intakeStalls) 1 (2 ^ 32 - 1) := by
  rw [Block.pauseIntake, Block.reg_count, regTop_intakeStalls]
  rfl

/-- Settles O22: with the table full, intake does no more than pause its ring, and the entry it takes otherwise is found from below. -/
theorem intakePauses : Obligations.IntakePauses := by
  intro b n k hk hstarted hon hentry
  refine ⟨fun hfull hnot => ?_, fun hfull hpaused => ?_, fun x hx => Block.freeEntry_lowest hx⟩
  · have hpause : b.intake n = b.pauseIntake n := by
      rw [Block.intake_tableFull hk hstarted hon hentry hfull, hnot]
      rfl
    rw [hpause]
    exact ⟨rfl, rfl, b.pauseIntake_intakeStalls n⟩
  · rw [Block.intake_tableFull hk hstarted hon hentry hfull, if_pos hpaused]

end Sys2Proof.Machine
end

section
/-! PROOFS. Flits and packets that arrive (R254 to R270, R483): each comes under the row of its operation in its turn. -/

namespace Sys2Proof.Machine

open Sys2Proof

/-- An RSP flit that may arrive comes under the row of the OP it carries. -/
theorem Block.rspComes_of {b : Block} {op f : Nat} (hd : b.delivers 2 f = true) (hop : rOp f = op) : b.rspComes op f = true := by
  simp [Block.rspComes, hd, hop]

/-- Settles O27: each arrival comes under the row of its operation, and nothing else is asked of its fields. -/
theorem arrivalsComplete : Obligations.ArrivalsComplete := by
  intro s t b hb hc
  refine ⟨fun flit hd => ⟨fun hop => ?_, fun hop => ?_, fun hop => ?_, fun hop hdst => ?_⟩,
    fun flit => ⟨fun hq => ?_, fun hq => ?_, fun hq => ?_⟩, fun sb beats => ⟨fun hq => ?_, fun hq => ?_, fun hq => ?_⟩,
    fun ini addr size write data fromLink hini haddr hsize => ?_⟩
  · exact State.answers rfl (Block.eventIf_falls hb hc (Block.rspComes_of hd hop) rfl)
  · exact State.answers rfl (Block.eventIf_falls hb hc (Block.rspComes_of hd hop) rfl)
  · exact State.answers rfl (Block.eventIf_falls hb hc (Block.rspComes_of hd hop) rfl)
  · exact State.answers rfl (Block.eventIf_falls hb hc (by simp [Block.rspComes_of hd hop, hdst]) rfl)
  · exact State.answers rfl (Block.eventIf_falls hb hc hq rfl)
  · exact State.answers rfl (Block.eventIf_falls hb hc hq rfl)
  · exact State.answers rfl (Block.eventIf_falls hb hc hq rfl)
  · exact State.answers rfl (Block.eventIf_falls hb hc hq rfl)
  · exact State.answers rfl (Block.eventIf_falls hb hc hq rfl)
  · exact State.answers rfl (Block.eventIf_falls hb hc hq rfl)
  · exact State.answers (by rw [hini, decide_eq_true ⟨haddr, hsize⟩]; rfl) (Block.event_falls hb hc rfl)

end Sys2Proof.Machine
end

section
/-! PROOFS. The SNP network (R257 to R259, R266, R269): commands and answers in their turn; and the events of wipes and stations
(R225, R266, R271, R272). -/

namespace Sys2Proof.Machine

open Sys2Proof

/-- A command that comes in its turn under its operation, one that Table 8.11 does not reserve, is acted on once it has arrived. -/
theorem Block.snpEvent_falls {b : Block} {op : Nat} {h : BitVec 64} {f : Nat → Block → Block} (hc : b.clocked = true)
    (hturn : b.net.noc.inTurn 3 h.toNat = true) (hop : sOp h.toNat = op) (hknown : snpReserved op = false) :
    b.snpEvent op h f = f h.toNat (b.arrived 3 h.toNat) := by
  subst hop
  simp [Block.snpEvent, hc, hturn, hknown]

/-- An answer that may arrive falls under the row of the operation it carries. -/
theorem Block.answerEvent_falls {a b : Block} {op t : Nat} {h : BitVec 64} {f : Nat → Block → Block} (hb : a.at t = b)
    (hc : b.clocked = true) (hd : b.delivers 3 h.toNat = true) (hop : sOp h.toNat = op) : a.answerEvent op h t f = f h.toNat b :=
  Block.eventIf_falls hb hc (by simp [hop, hd]) rfl

/-- A frame whose bank is in service joins the pool once its wipe is done (R225). -/
theorem Block.poolAddEnd_inService {b : Block} {f : Nat} (hf : b.mig.adding = some f) (hbank : b.reg (Reg.bankState (bankOfFrame f)) = 0) :
    b.poolAddEnd = ((({ b with mig := { b.mig with adding := none } } : Block).poolAdd f).setReg Reg.poolStatus Status.ok).afterWipe := by
  have hin : (({ b with mig := { b.mig with adding := none } } : Block).reg (Reg.bankState (bankOfFrame f)) == 0) = true :=
    beq_iff_eq.2 hbank
  unfold Block.poolAddEnd
  simp only [hf, hin, if_true]

/-- Settles O30: each command and answer falls under its own operation, and each event of a wipe or a station on its condition. -/
theorem snoopCompletes : Obligations.SnoopCompletes := by
  intro s t b hb hc
  refine ⟨fun h x hclk hturn => ?_, fun h hd => ⟨fun hop => ?_, fun bits hop => ?_, fun frame hop hframe => ?_⟩, fun f hf hbank => ?_,
    fun station net hst hnet => ?_, fun station hst hdue => ?_, fun v hs h0 => ?_⟩
  · exact ⟨fun hop => State.answers rfl (Block.snpEvent_falls hclk hturn hop rfl),
      fun hop => State.answers rfl (Block.snpEvent_falls hclk hturn hop rfl),
      fun hop => State.answers rfl (Block.snpEvent_falls hclk hturn hop rfl),
      fun hop => State.answers rfl (Block.snpEvent_falls hclk hturn hop rfl),
      fun hop hx => State.answers (decide_eq_true hx) (Block.snpEvent_falls hclk hturn hop rfl),
      fun hop => State.answers rfl (Block.snpEvent_falls hclk hturn hop rfl),
      fun hop => State.answers rfl (Block.snpEvent_falls hclk hturn hop rfl),
      fun hop => State.answers rfl (Block.snpEvent_falls hclk hturn hop rfl),
      fun hop hx => State.answers (decide_eq_true hx) (Block.snpEvent_falls hclk hturn hop rfl)⟩
  · exact State.answers rfl (Block.answerEvent_falls hb hc hd hop)
  · exact State.answers rfl (Block.answerEvent_falls hb hc hd hop)
  · exact State.answers (decide_eq_true hframe) (Block.answerEvent_falls hb hc hd hop)
  · exact State.answers rfl (Block.event_falls hb hc (congrArg Block.packageUnread (Block.poolAddEnd_inService hf hbank)))
  · exact State.answers (by rw [hst, hnet]; rfl) (Block.event_falls hb hc rfl)
  · exact State.answers hst (Block.eventIf_falls hb hc hdue rfl)
  · exact State.answers rfl (Block.host_done hs h0)

end Sys2Proof.Machine
end

section
/-! PROOFS. What the commands of a lane's bring-up, of its tests and of its eye leave alone (R278 to R308): they write the registers, what lanes
and links keep, the log and what is sent outside, and nothing else. -/

namespace Sys2Proof.Machine

open Sys2Proof

/-- What stands beside the lanes: memory, the designs' configuration and state, contexts, transactions, fuses, the on-die networks and
migration. -/
def Block.besideLanes (b : Block) : Mem × Rgn × Ctx × SMap LedgerEntry × Fuses × Net × Mig :=
  (b.mem, b.rgn, b.ctx, b.ledger, b.fuses, b.net, b.mig)

/-! The operations that lanes share. -/

@[simp] theorem Block.at_besideLanes (b : Block) (t : Nat) : (b.at t).besideLanes = b.besideLanes := by simp [Block.besideLanes]

@[simp] theorem Block.setReg_besideLanes (b : Block) (k v : Nat) : (b.setReg k v).besideLanes = b.besideLanes := rfl

@[simp] theorem Block.setRegs_besideLanes (b : Block) (l : List (Nat × Nat)) : (b.setRegs l).besideLanes = b.besideLanes := by
  simp [Block.besideLanes]

@[simp] theorem Block.count_besideLanes (b : Block) (k d : Nat) : (b.count k d).besideLanes = b.besideLanes := rfl

@[simp] theorem Block.result_besideLanes (b : Block) (a : Nat) : (b.result a).besideLanes = b.besideLanes := rfl

@[simp] theorem Block.logUnstated_besideLanes (b : Block) (kind num : Nat) : (b.logUnstated kind num).besideLanes = b.besideLanes := by
  simp [Block.besideLanes, Block.logUnstated]

@[simp] theorem Block.setLane_besideLanes (b : Block) (l : Nat) (x : LaneRun) : (b.setLane l x).besideLanes = b.besideLanes := rfl

@[simp] theorem Block.modLink_besideLanes (b : Block) (lk : Nat) (f : LinkRun → LinkRun) :
    (b.modLink lk f).besideLanes = b.besideLanes := rfl

@[simp] theorem Block.transmit_besideLanes (b : Block) (lk : Nat) (f : Tx → Tx) : (b.transmit lk f).besideLanes = b.besideLanes := rfl

/-- A guarded write keeps what its effect keeps. -/
theorem Block.guarded_besideLanes {b : Block} {checks : List (Bool × Nat)} {f : Block → Block}
    (hf : (f b).besideLanes = b.besideLanes) : (b.guarded checks f).2.besideLanes = b.besideLanes := by
  by_cases ha : (b.guarded checks f).1 = Abort.none
  · rw [b.guarded_ok checks f ha, hf]
  · rw [b.guarded_abort checks f ha]

/-! Entering states. -/

@[simp] theorem Block.sendTrain_besideLanes (b : Block) (l : Nat) : (b.sendTrain l).besideLanes = b.besideLanes := by
  unfold Block.sendTrain
  split
  · exact b.transmit_besideLanes _ _
  · rfl

@[simp] theorem Block.stopStream_besideLanes (b : Block) (l : Nat) : (b.stopStream l).besideLanes = b.besideLanes := rfl

@[simp] theorem Block.clearRx_besideLanes (b : Block) (l : Nat) : (b.clearRx l).besideLanes = b.besideLanes := rfl

@[simp] theorem Block.dropLock_besideLanes (b : Block) (l : Nat) : (b.dropLock l).besideLanes = b.besideLanes := rfl

@[simp] theorem Block.dropEye_besideLanes (b : Block) (l : Nat) : (b.dropEye l).besideLanes = b.besideLanes := by
  unfold Block.dropEye
  split <;> rfl

@[simp] theorem Block.enterLane_besideLanes (b : Block) (l st : Nat) : (b.enterLane l st).besideLanes = b.besideLanes := by
  simp [Block.enterLane, apply_ite Block.besideLanes]

@[simp] theorem Block.toDetect_besideLanes (b : Block) (l : Nat) : (b.toDetect l).besideLanes = b.besideLanes := by
  simp [Block.toDetect]

/-! Stages. -/

@[simp] theorem Block.noteAligned_besideLanes (b : Block) (lk : Nat) : (b.noteAligned lk).besideLanes = b.besideLanes := by
  unfold Block.noteAligned
  exact foldl_keeps Block.besideLanes _ (fun b l => b.setLane_besideLanes l _) _ b

@[simp] theorem Block.stepRate_besideLanes (b : Block) (lk : Nat) : (b.stepRate lk).besideLanes = b.besideLanes := by
  unfold Block.stepRate
  refine foldl_keeps Block.besideLanes _ (fun b l => ?_) _ b
  simp [apply_ite Block.besideLanes]

@[simp] theorem Block.failStage_besideLanes (b : Block) (l : Nat) : (b.failStage l).besideLanes = b.besideLanes := by
  simp [Block.failStage, apply_ite Block.besideLanes]

@[simp] theorem Block.alignPass_besideLanes (b : Block) (l : Nat) (inv : Bool) : (b.alignPass l inv).besideLanes = b.besideLanes := by
  simp [Block.alignPass]

@[simp] theorem Block.orderPass_besideLanes (b : Block) (lk : Nat) : (b.orderPass lk).besideLanes = b.besideLanes := by
  unfold Block.orderPass
  dsimp only
  split
  · exact foldl_keeps Block.besideLanes _ Block.failStage_besideLanes _ b
  · exact foldl_keeps Block.besideLanes _ (fun b l => by simp) _ b

@[simp] theorem Block.deskewPass_besideLanes (b : Block) (lk : Nat) (arrivals : List Nat) :
    (b.deskewPass lk arrivals).besideLanes = b.besideLanes := by
  unfold Block.deskewPass
  dsimp only
  split
  · exact foldl_keeps Block.besideLanes _ Block.failStage_besideLanes _ b
  · rw [foldl_keeps Block.besideLanes _ (fun b l => b.enterLane_besideLanes l lFec),
      foldl_keeps Block.besideLanes _ (fun b e => b.setReg_besideLanes _ _)]

/-! Blocks received, and the eye. -/

@[simp] theorem Block.trainReceived_besideLanes (b : Block) (l blk : Nat) : (b.trainReceived l blk).besideLanes = b.besideLanes := by
  simp [Block.trainReceived, apply_ite Block.besideLanes]

@[simp] theorem Block.rxBlock_besideLanes (b : Block) (l hdr blk : Nat) : (b.rxBlock l hdr blk).besideLanes = b.besideLanes := by
  simp [Block.rxBlock, apply_ite Block.besideLanes]

/-- A block that comes by a row of its own keeps what its use keeps. -/
theorem Block.blockComes_besideLanes {b : Block} {l : Nat} {f : Block → Block} (hf : (f b).besideLanes = b.besideLanes) :
    (b.blockComes l f).besideLanes = b.besideLanes := by
  simp [Block.blockComes, apply_ite Block.besideLanes, hf]

@[simp] theorem Block.writeEyeGo_besideLanes (b : Block) (l v : Nat) : (b.writeEyeGo l v).2.besideLanes = b.besideLanes :=
  Block.guarded_besideLanes (by simp [apply_ite Block.besideLanes])

/-! Commands. -/

/-- An event keeps what its effect keeps, at whatever time it falls. -/
theorem Block.event_besideLanes (b : Block) (t : Nat) {f : Block → Block} (hf : ∀ b, (f b).besideLanes = b.besideLanes) :
    (b.event t f).besideLanes = b.besideLanes := by
  obtain h | h := b.event_cases t f
  · rw [h, hf, Block.at_besideLanes]
  · rw [h, Block.at_besideLanes]

/-- So does one that falls only on its condition. -/
theorem Block.eventIf_besideLanes (b : Block) (t : Nat) (p : Block → Bool) {f : Block → Block}
    (hf : ∀ b, (f b).besideLanes = b.besideLanes) : (b.eventIf t p f).besideLanes = b.besideLanes :=
  b.event_besideLanes t fun b => by simp [apply_ite Block.besideLanes, hf]

/-- A write of the host keeps what its effect keeps, whatever its answer. -/
theorem Block.host_besideLanes (b : Block) {ok : Bool} {f : Block → Nat × Block} (hf : ∀ b, (f b).2.besideLanes = b.besideLanes) :
    (b.host (inRecord ok f)).besideLanes = b.besideLanes := by
  cases hs : b.served
  · rw [b.host_unserved _ hs]
  · rw [b.host_of _ hs, Block.result_besideLanes]
    cases ok
    · rfl
    · exact hf b

/-- A limit keeps what its effect keeps, whether or not its event wins. -/
theorem State.limit_besideLanes (s : State) (won : Bool) (t : Nat) {b : Block} (hb : b.besideLanes = s.blk.besideLanes) :
    (s.limit won t b).besideLanes = s.blk.besideLanes := by
  cases won
  · exact hb
  · exact s.blk.at_besideLanes t

/-- A command keeps what the block it answers keeps, whether or not its operands name units. -/
theorem State.answer_besideLanes {s u : State} {ok : Bool} {b : Block} (h : s.answer ok b = .next u)
    (hb : b.besideLanes = s.blk.besideLanes) : u.blk.besideLanes = s.blk.besideLanes := by
  cases ok <;> cases h
  · rfl
  · exact hb

/-- Settles O59: each of the lanes' commands keeps what stands beside the lanes. -/
theorem laneFrame : Obligations.LaneFrame := by
  intro c s u h hlane
  suffices hkept : u.blk.besideLanes = s.blk.besideLanes by
    simpa only [Block.besideLanes, Prod.mk.injEq] using hkept
  cases c
  case detectPass l t => exact State.answer_besideLanes h (Block.eventIf_besideLanes _ _ _ fun b => by simp)
  case eqPass l t => exact State.answer_besideLanes h (Block.eventIf_besideLanes _ _ _ fun b => b.enterLane_besideLanes l lCdr)
  case cdrPass l t => exact State.answer_besideLanes h (Block.eventIf_besideLanes _ _ _ fun b => b.enterLane_besideLanes l lAlign)
  case alignPass l found t =>
    refine State.answer_besideLanes h (Block.eventIf_besideLanes _ _ _ fun b => ?_)
    split
    · rfl
    · exact b.alignPass_besideLanes l _
  case polarityPass l t => exact State.answer_besideLanes h (Block.eventIf_besideLanes _ _ _ fun b => b.enterLane_besideLanes l lOrder)
  case orderPass lk t => exact State.answer_besideLanes h (Block.eventIf_besideLanes _ _ _ fun b => b.orderPass_besideLanes lk)
  case deskewPass lk arrivals t =>
    exact State.answer_besideLanes h (Block.eventIf_besideLanes _ _ _ fun b => b.deskewPass_besideLanes lk arrivals)
  case fecPass l t => exact State.answer_besideLanes h (Block.eventIf_besideLanes _ _ _ fun b => by simp)
  case stageFail l t =>
    exact State.answer_besideLanes h
      (State.limit_besideLanes _ _ _ (Block.eventIf_besideLanes _ _ _ fun b => b.failStage_besideLanes l))
  case train l hdr blk t =>
    exact State.answer_besideLanes h
      (Block.event_besideLanes _ _ fun b => Block.blockComes_besideLanes (b.rxBlock_besideLanes l _ _))
  case idle l hdr blk t =>
    exact State.answer_besideLanes h
      (Block.event_besideLanes _ _ fun b => Block.blockComes_besideLanes (by simp [apply_ite Block.besideLanes]))
  case eyeGo l v => exact State.answer_besideLanes h (Block.host_besideLanes _ fun b => b.writeEyeGo_besideLanes l v)
  case eyeCountEnd l errors t => exact State.answer_besideLanes h (Block.eventIf_besideLanes _ _ _ fun b => rfl)
  case checkerLock l t => exact State.answer_besideLanes h (Block.eventIf_besideLanes _ _ _ fun b => by simp)
  case checkerLockLoss l bits errors t => exact State.answer_besideLanes h (Block.eventIf_besideLanes _ _ _ fun b => rfl)
  all_goals exact hlane.elim

end Sys2Proof.Machine
end

section
/-! PROOFS. The stages of a lane's bring-up, its tests and its eye (R278 to R308): each command falls under its conditions. -/

namespace Sys2Proof.Machine

open Sys2Proof

/-- A block on an aligned lane whose codewords are not given, past the first two after alignment and with no error mark, is used (R279, R286). -/
theorem Block.blockComes_used {b : Block} {l : Nat} {f : Block → Block} (ha : b.laneAligned l = true)
    (hframed : (b.laneAt l).framed = false) (hskip : (b.laneAt l).skip = 0) (hmarked : (b.laneAt l).marked = false) :
    b.blockComes l f = f b := by
  simp [Block.blockComes, ha, hframed, hskip, hmarked]

/-- One of the first two blocks after alignment is disregarded, and counted off (R279). -/
theorem Block.blockComes_skipped {b : Block} {l : Nat} {f : Block → Block} (ha : b.laneAligned l = true)
    (hframed : (b.laneAt l).framed = false) (hskip : (b.laneAt l).skip ≠ 0) :
    b.blockComes l f = b.setLane l { b.laneAt l with skip := (b.laneAt l).skip - 1 } := by
  simp [Block.blockComes, ha, hframed, Nat.pos_of_ne_zero hskip]

/-- Settles O33: each stage, block, eye count and checker event falls under its conditions. -/
theorem laneStagesComplete : Obligations.LaneStagesComplete := by
  intro s t l b hb hc hl
  refine ⟨fun hin hsteady => ?_, fun hin => ?_, fun hin hsteady => ?_, fun found inv hin hfound => ?_, fun hin => ?_,
    fun lk hlk hstarts hknown => ?_, fun lk arrivals hlk hstarts hlen hany => ?_, fun hin hlocked hwords => ?_,
    fun h1 h8 hage hwon => ?_, fun hdr blk ha hframed hskip hmarked => ⟨?_, fun hbad => ?_, fun hgood => ?_⟩,
    fun hdr blk ha hframed hskip => ⟨?_, ?_⟩, fun v hs h0 => ?_, fun errors hdue => ?_, fun htest hunlocked => ?_,
    fun bits errors htest hlocked => ?_⟩
  · exact State.answers hl (Block.eventIf_falls hb hc (by rw [hin, hsteady]; rfl) rfl)
  · exact State.answers hl (Block.eventIf_falls hb hc hin rfl)
  · exact State.answers hl (Block.eventIf_falls hb hc (by rw [hin, hsteady]; rfl) rfl)
  · exact State.answers hl (Block.eventIf_falls hb hc hin (by rw [hfound]; rfl))
  · exact State.answers hl (Block.eventIf_falls hb hc hin rfl)
  · exact State.answers hlk (Block.eventIf_falls hb hc (by rw [hstarts, hknown]; rfl) rfl)
  · exact State.answers hlk (Block.eventIf_falls hb hc (by rw [hstarts, hany, beq_iff_eq.2 hlen]; rfl) rfl)
  · exact State.answers hl (Block.eventIf_falls hb hc (by rw [hin, hlocked, decide_eq_true hwords]; rfl) rfl)
  · exact State.answers hl (State.limit_done hwon (Block.eventIf_falls hb hc (by rw [hage, decide_eq_true ⟨h1, h8⟩]; rfl) rfl))
  · exact State.answers hl (Block.event_falls hb hc (Block.blockComes_used ha hframed hskip hmarked))
  · exact State.answers hl (Block.event_falls hb hc ((Block.blockComes_used ha hframed hskip hmarked).trans (if_pos hbad)))
  · exact State.answers hl (Block.event_falls hb hc ((Block.blockComes_used ha hframed hskip hmarked).trans (by rw [hgood]; rfl)))
  · exact State.answers hl (Block.event_falls hb hc (Block.blockComes_skipped ha hframed hskip))
  · exact State.answers hl (Block.event_falls hb hc (Block.blockComes_skipped ha hframed hskip))
  · exact State.answers rfl (Block.host_inRecord hs hl h0)
  · exact State.answers hl (Block.eventIf_falls hb hc hdue rfl)
  · exact State.answers hl (Block.eventIf_falls hb hc (by rw [htest, hunlocked]; rfl) rfl)
  · exact State.answers hl (Block.eventIf_falls hb hc (by rw [htest, hlocked]; rfl) rfl)

end Sys2Proof.Machine
end

section
/-! PROOFS. What happens to a lane of a link (R286, R299 to R306): each event falls under its conditions, and the link then sends what it may. -/

namespace Sys2Proof.Machine

open Sys2Proof

/-- A write of the host to a lane that is not aborted has its effect and is answered with 0, and the lane's link then sends what it may. -/
theorem Block.hostLink_done {b : Block} {ok : Bool} {lk t : Nat} {f : Block → Nat × Block} (hok : ok = true) (hs : b.served = true)
    (h0 : (f b).1 = 0) : b.hostLink ok lk t f = ((f b).2.result 0).linkEvent lk t id := by
  rw [Block.hostLink, if_pos hok, Block.host_done hs h0]

/-- Settles O34: each event of a lane falls under its conditions, and each write of the host that is not aborted has its effect. -/
theorem laneLinkEventsComplete : Obligations.LaneLinkEventsComplete := by
  intro s t l b hb hc hl
  subst hb
  refine ⟨fun hstarts => ⟨fun hdue => ?_, fun syms hlen hsyms ha => ?_, fun blk hup hmarked hblk => ?_, fun hstate => ?_, fun hstate => ?_,
    fun hup => ?_, fun hidle hleaving => ?_⟩, fun lk hlk hstarts hidle hany found arrivals => ?_,
    fun hs => ⟨fun v h0 => ?_, fun h0 => ?_, fun h0 => ?_, fun h0 => ?_, fun h0 => ?_⟩⟩
  · exact State.answers hl (Block.linkEventIf_falls rfl hc hstarts hdue)
  · exact State.answers (by rw [hl, hsyms, beq_iff_eq.2 hlen]; rfl) (Block.linkEventIf_falls rfl hc hstarts ha)
  · exact State.answers hl (Block.linkEventIf_falls rfl hc hstarts (by rw [hup, hmarked, hblk]; rfl))
  · exact State.answers hl (Block.linkEventIf_falls rfl hc hstarts (by simpa using hstate))
  · exact State.answers hl (Block.linkEventIf_falls rfl hc hstarts (by simpa using hstate))
  · exact State.answers hl (Block.linkEventIf_falls rfl hc hstarts (beq_iff_eq.2 hup))
  · exact State.answers hl (Block.linkEventIf_falls rfl hc hstarts (by simpa [hidle] using hleaving))
  · exact State.answers hlk (Block.linkEventIf_falls rfl hc hstarts (by rw [hidle, hany]; rfl))
  · exact State.answers rfl (Block.hostLink_done hl hs h0)
  · exact State.answers rfl (Block.hostLink_done hl hs h0)
  · exact State.answers rfl (Block.hostLink_done hl hs h0)
  · exact State.answers rfl (Block.hostLink_done hl hs h0)
  · exact State.answers rfl (Block.hostLink_done hl hs h0)

end Sys2Proof.Machine
end

section
/-! PROOFS. The containers (R315 to R319, R325, R326) and control blocks (R320, R322, R327, R336 to R342, R351, R352) that a link receives:
each that passes its checks has the effect of its type, and the link then sends what it may. -/

namespace Sys2Proof.Machine

open Sys2Proof

/-! What passes the checks of a container, and of a control block. -/

/-- A container of an ACTIVE link that passes its checks and is the next in sequence is accepted, and its content has its effect. -/
theorem Block.rxContainer_accepts {b : Block} {lk c : Nat} {f : Block → Block} (hactive : b.linkState lk = kActive)
    (hcrc : cCrc c = containerCrc c) (hmarked : b.linkMarked lk = false) (hseq : (b.linkAt lk).expect = cSeq c)
    (hproto : (b.acceptContainer lk c).protoError lk c = false) : b.rxContainer lk c f = f (b.acceptContainer lk c) := by
  have hbehind : ((b.linkAt lk).expect + 4096 - cSeq c) % 4096 = 0 := by
    rw [hseq, Nat.add_sub_cancel_left]
  simp [Block.rxContainer, hactive, hcrc, hmarked, hbehind, hproto]

/-- A row acts on a container of its own kind. -/
theorem ofKind_own {c : Nat} {k : CKind} (hk : cKind c = k) : ofKind c [k] = true := by
  simp [ofKind, hk]

/-- A control block of its row's type that passes its checks has its effect. -/
theorem Block.rxControl_takes {b : Block} {lk ty x : Nat} {f : Block → Block} (hup : (b.upLanes lk).isEmpty = false)
    (hcrc : crc16Ok x = true) (hres : x &&& kReserved (kType x) = 0) (hmarked : b.controlMarked lk (kType x) = false)
    (hty : kType x = ty) : b.rxControl lk ty x f = f b := by
  subst hty
  simp [Block.rxControl, hup, hcrc, hres, hmarked]

/-- Settles O35: a container that passes its checks comes under the row of its kind, and is accepted there. -/
theorem containersComplete : Obligations.ContainersComplete := by
  intro s t lk w b hb hc hlk hl hactive hcrc hmarked hseq hproto a c
  have row {k : CKind} {f : Nat → Block → Block} (hk : cKind c = k) :
      s.answer (wfLink lk) (s.blk.rxRow lk w t [k] f) = .next (s.becomes ((f c a).pumpLink lk)) :=
    State.answers hlk ((Block.linkEventIf_falls hb hc hl (by rw [ofKind_own hk, Bool.true_or])).trans
      (congrArg (·.pumpLink lk) (Block.rxContainer_accepts hactive hcrc hmarked hseq hproto)))
  exact ⟨row (k := .req), row (k := .headW), row (k := .mask), row (k := .dataW), row (k := .dataWP), row (k := .abortW),
    row (k := .headD), row (k := .dataD), row (k := .dataDP), row (k := .tailD), row (k := .rsp), row (k := .null), row (k := .snpK),
    row (k := .snpA)⟩

/-- Settles O36: a control block that passes its checks comes under the row of its type, and has its effect where its own condition on
the link holds. -/
theorem controlBlocksComplete : Obligations.ControlBlocksComplete := by
  intro s t lk w b hb hc hlk hl hup hcrc hres hmarked c x
  have takes {ty : Nat} {f : Block → Block} {d : Block} (hty : kType x = ty) (hd : f c = d) :
      (c.rxControl lk ty x f).pumpLink lk = d.pumpLink lk :=
    congrArg (·.pumpLink lk) ((Block.rxControl_takes hup hcrc hres hmarked hty).trans hd)
  have row {ty : Nat} {f : Block → Block} {d : Block} (hty : kType x = ty) (hd : f c = d) :
      s.blk.linkEvent lk t (fun b => b.rxControl lk ty x f) = d.pumpLink lk :=
    (Block.linkEvent_falls hb hc hl).trans (takes hty hd)
  have rowIf {ty : Nat} {p : Block → Bool} {f : Block → Block} {d : Block} (hty : kType x = ty) (hp : p c = true) (hd : f c = d) :
      s.blk.linkEventIf lk t p (fun b => b.rxControl lk ty x f) = d.pumpLink lk :=
    (Block.linkEventIf_falls hb hc hl hp).trans (takes hty hd)
  refine ⟨fun hty => ?ack, fun hty hactive => ?nak, fun hty => ?init, fun hty => ?lanes, fun hty hvn hactive => ?flush,
    fun hty => ?flushAck, fun hty => ?keepalive, fun hty hidle => ?idleReq, fun hty hasked hactive => ?idleAck,
    fun frac turn hty hactive => ?timeReq, fun frac hty hparent hactive => ?timeRsp⟩
  case ack => exact State.answers hlk (row hty rfl)
  case nak => exact State.answers hlk (row hty (if_pos hactive))
  case init => exact State.answers hlk (row hty rfl)
  case lanes => exact State.answers hlk (row hty rfl)
  case flush => exact State.answers hlk (row hty (if_neg (fun h => h.elim hvn (fun hne => hne hactive))))
  case flushAck => exact State.answers hlk (row hty rfl)
  case keepalive => exact State.answers hlk (row hty rfl)
  case idleReq => exact State.answers hlk (row hty (if_pos hidle))
  case idleAck => exact State.answers hlk (row hty (if_pos (by rw [hasked, hactive]; rfl)))
  case timeReq => exact State.answers hlk (rowIf hty (beq_iff_eq.2 hactive) rfl)
  case timeRsp => exact State.answers hlk (rowIf hty (by rw [hparent, hactive]; rfl) rfl)

end Sys2Proof.Machine
end

section
/-! PROOFS. The machine and its commands: the step, the register file, and a command whose operands name no unit. -/

namespace Sys2Proof.Machine

open Sys2Proof

/-- Settles O1: the step takes the command in front of the queue, by its definition. -/
theorem stepRunsFront : Obligations.StepRunsFront := fun _ _ _ => rfl

/-- Settles O9: by the store of the registers, read after a write. -/
theorem registerFile : Obligations.RegisterFile := by
  intro b k j v
  refine ⟨?_, b.setReg_mem k v⟩
  by_cases h : j = k
  · rw [if_pos h, h, b.reg_setReg]
  · rw [if_neg h, b.reg_setReg_ne v h]

/-- Settles O4: every meaning is an answer, and but for the host's writes it is one on condition that the operands name units. -/
theorem everyCommandAnswers : Obligations.EveryCommandAnswers := by
  intro c s
  refine ⟨exec_answers c s, fun hdevice hwf => ?_⟩
  have hcond : ∃ b, exec c s = s.answer (Instr.wf c) b := by
    cases c with
    | load who | prefetch who | clear who | copy who =>
      cases who with
      | host => exact hdevice.elim
      | scarab | relocation => exact ⟨_, rfl⟩
    | switch who =>
      cases who with
      | host => exact hdevice.elim
      | scarab | relocation => exact ⟨_, rfl⟩
    | regionReset | captureReq | pinMask | borderMap | bankWipe | frameWipe | counterClear | dmaProd | dmaResume | dmaAbort
    | dmaReset | dmaEnable | sqProd | cqCons | runAbort | scarabDrain | scarabRestart | place | steal | preempt | poolAdd
    | poolRemove | laneEn | laneRestart | step | test | testStop | eyeGo | flushStart => exact hdevice.elim
    | _ => exact ⟨_, rfl⟩
  obtain ⟨b, hb⟩ := hcond
  rw [hb, hwf, State.answer_false]

end Sys2Proof.Machine
end

section
/-! PROOFS. What the commands of the ports, of JTAG, of the messages' time limits and of the sensors leave alone (R393 to R405, R452, R517):
they write the registers, the messages, the TAP, the sensors and what is sent outside. -/

namespace Sys2Proof.Machine

open Sys2Proof

/-- What stands beside the ports: memory, the designs' configuration and state, contexts, transactions, fuses, the on-die networks, the links
and the commits. -/
def Block.besidePorts (b : Block) : Mem × Rgn × Ctx × SMap LedgerEntry × Fuses × Net × Link × Commit :=
  (b.mem, b.rgn, b.ctx, b.ledger, b.fuses, b.net, b.link, b.commit)

/-! The operations that ports share. -/

@[simp] theorem Block.at_besidePorts (b : Block) (t : Nat) : (b.at t).besidePorts = b.besidePorts := by simp [Block.besidePorts]

@[simp] theorem Block.setReg_besidePorts (b : Block) (k v : Nat) : (b.setReg k v).besidePorts = b.besidePorts := rfl

@[simp] theorem Block.setRegs_besidePorts (b : Block) (l : List (Nat × Nat)) : (b.setRegs l).besidePorts = b.besidePorts := by
  simp [Block.besidePorts]

@[simp] theorem Block.count_besidePorts (b : Block) (k d : Nat) : (b.count k d).besidePorts = b.besidePorts := rfl

@[simp] theorem Block.emit_besidePorts (b : Block) (kind : OutKind) (u : Nat) (ws : List Nat) :
    (b.emit kind u ws).besidePorts = b.besidePorts := rfl

@[simp] theorem Block.logEvent_besidePorts (b : Block) (code kind num data : Nat) :
    (b.logEvent code kind num data).besidePorts = b.besidePorts := by
  simp [Block.besidePorts]

theorem Block.withLmp_besidePorts (b : Block) (x : Lmp) : Block.besidePorts { b with lmp := x } = b.besidePorts := rfl

/-! CAN and the messages. -/

@[simp] theorem Block.canState_besidePorts (b : Block) (p : Nat) : (b.canState p).besidePorts = b.besidePorts := rfl

@[simp] theorem Block.canSend_besidePorts (b : Block) (p fn target : Nat) (bytes : List Byte) :
    (b.canSend p fn target bytes).besidePorts = b.besidePorts := by
  unfold Block.canSend
  split <;> rfl

@[simp] theorem Block.lmpSend_besidePorts (b : Block) (via : Via) (msgs : List (List Byte)) :
    (b.lmpSend via msgs).besidePorts = b.besidePorts := by
  cases via with
  | mailbox ch => rfl
  | can p source => exact foldl_keeps Block.besidePorts _ (fun b m => b.canSend_besidePorts p 4 source m) msgs b
  | settings => rfl

@[simp] theorem Block.lmpAbort_besidePorts (b : Block) (via : Via) (xid idx sub node code : Nat) :
    (b.lmpAbort via xid idx sub node code).besidePorts = b.besidePorts := by
  simp [Block.lmpAbort]

@[simp] theorem Block.abortXfer_besidePorts (b : Block) (x : Xfer) (code : Nat) :
    (b.abortXfer x code).besidePorts = b.besidePorts :=
  Block.lmpAbort_besidePorts (b.endXfer x.via) _ _ _ _ _ _

@[simp] theorem Block.abortForward_besidePorts (b : Block) (f : Forward) (code : Nat) :
    (b.abortForward f code).besidePorts = b.besidePorts :=
  Block.lmpAbort_besidePorts (b.endForward f.via) _ _ _ _ _ _

/-! The endpoint and its mailbox. -/

@[simp] theorem Block.msix_besidePorts (b : Block) (v : Nat) : (b.msix v).besidePorts = b.besidePorts := by
  unfold Block.msix
  split
  · split <;> rfl
  · rfl

@[simp] theorem Block.maskVector_besidePorts (b : Block) (v : Nat) (m : Bool) : (b.maskVector v m).besidePorts = b.besidePorts := by
  unfold Block.maskVector
  dsimp only
  split
  · exact Block.msix_besidePorts _ v
  · rfl

@[simp] theorem Block.usb4Drop_besidePorts (b : Block) : b.usb4Drop.besidePorts = b.besidePorts := by
  unfold Block.usb4Drop
  refine (Block.withLmp_besidePorts _ _).trans ((Block.setRegs_besidePorts _ _).trans ?_)
  simp [apply_ite Block.besidePorts]

@[simp] theorem Block.barWriteError_besidePorts (b : Block) (off status : Nat) :
    (b.barWriteError off status).besidePorts = b.besidePorts := by
  simp [Block.barWriteError]

@[simp] theorem Block.setMbox_besidePorts (b : Block) (c : Nat) (x : Mbox) : (b.setMbox c x).besidePorts = b.besidePorts := rfl

@[simp] theorem Block.writeMsgLen_besidePorts (b : Block) (c v : Nat) : (b.writeMsgLen c v).2.besidePorts = b.besidePorts := by
  unfold Block.writeMsgLen
  dsimp only
  split
  · exact b.setMbox_besidePorts c _
  · exact b.setMbox_besidePorts c _

@[simp] theorem Block.writeRspDone_besidePorts (b : Block) (c v : Nat) : (b.writeRspDone c v).2.besidePorts = b.besidePorts := by
  unfold Block.writeRspDone
  split <;> rfl

@[simp] theorem Block.placeResponse_besidePorts (b : Block) (c : Nat) : (b.placeResponse c).besidePorts = b.besidePorts := by
  unfold Block.placeResponse
  dsimp only
  split
  · simp [apply_ite Block.besidePorts]
  · rfl

/-! JTAG and the sensors. -/

@[simp] theorem Block.tap_besidePorts (b : Block) (f : Jtag → Jtag) : (b.tap f).besidePorts = b.besidePorts := by
  unfold Block.tap
  split <;> rfl

@[simp] theorem Block.drivePins_besidePorts (b : Block) (code bits : Nat) : (b.drivePins code bits).besidePorts = b.besidePorts := by
  simp [Block.drivePins, apply_ite Block.besidePorts]

@[simp] theorem Block.holdPins_besidePorts (b : Block) (code bits : Nat) : (b.holdPins code bits).besidePorts = b.besidePorts := by
  simp [Block.holdPins, apply_ite Block.besidePorts]

@[simp] theorem Block.takeSample_besidePorts (b : Block) (raws : List Int) : (b.takeSample raws).besidePorts = b.besidePorts :=
  Block.count_besidePorts _ _ _

@[simp] theorem Block.decayArea_besidePorts (b : Block) (a : Nat) : (b.decayArea a).besidePorts = b.besidePorts := by
  simp [Block.decayArea, Block.raiseThrottle, apply_ite Block.besidePorts]

/-! Commands. -/

/-- An event keeps what its effect keeps, at whatever time it falls. -/
theorem Block.event_besidePorts (b : Block) (t : Nat) {f : Block → Block} (hf : ∀ b, (f b).besidePorts = b.besidePorts) :
    (b.event t f).besidePorts = b.besidePorts := by
  obtain h | h := b.event_cases t f
  · rw [h, hf, Block.at_besidePorts]
  · rw [h, Block.at_besidePorts]

/-- So does one that falls only on its condition. -/
theorem Block.eventIf_besidePorts (b : Block) (t : Nat) (p : Block → Bool) {f : Block → Block}
    (hf : ∀ b, (f b).besidePorts = b.besidePorts) : (b.eventIf t p f).besidePorts = b.besidePorts :=
  b.event_besidePorts t fun b => by simp [apply_ite Block.besidePorts, hf]

/-- An access to a mailbox register by one that may write the channel, or by another, which is refused. -/
theorem Block.doorbell_besidePorts (b : Block) (mayWrite : Bool) {f : Block → Nat × Block}
    (hf : ∀ b, (f b).2.besidePorts = b.besidePorts) :
    (b.doorbell fun b => if mayWrite then f b else (Status.accessDenied, b)).besidePorts = b.besidePorts := by
  unfold Block.doorbell
  split
  · cases mayWrite
    · rfl
    · exact hf b
  · rfl

/-- A limit keeps what its effect keeps, whether or not its event wins. -/
theorem State.limit_besidePorts (s : State) (won : Bool) (t : Nat) {b : Block} (hb : b.besidePorts = s.blk.besidePorts) :
    (s.limit won t b).besidePorts = s.blk.besidePorts := by
  cases won
  · exact hb
  · exact s.blk.at_besidePorts t

/-- A command keeps what the block it answers keeps, whether or not its operands name units. -/
theorem State.answer_besidePorts {s u : State} {ok : Bool} {b : Block} (h : s.answer ok b = .next u)
    (hb : b.besidePorts = s.blk.besidePorts) : u.blk.besidePorts = s.blk.besidePorts := by
  cases ok <;> cases h
  · rfl
  · exact hb

/-! The stations: what is under way on the networks, and nothing beside it. -/

/-- The block with other packets under way on its networks. -/
def Block.withNoc (b : Block) (n : Noc) : Block := { b with net := { b.net with noc := n } }

theorem Block.withNoc_besidePorts {b c : Block} (n : Noc) (h : c.besidePorts = b.besidePorts) :
    (c.withNoc n).besidePorts = (b.withNoc n).besidePorts := by
  simp only [Block.besidePorts, Prod.mk.injEq] at h
  obtain ⟨hmem, hrgn, hctx, hledger, hfuses, hnet, hlink, hcommit⟩ := h
  simp [Block.besidePorts, Block.withNoc, hmem, hrgn, hctx, hledger, hfuses, hnet, hlink, hcommit]

theorem Block.hdrDiscard_withNoc (b : Block) (station net : Nat) (n : Noc) :
    ((b.hdrDiscard station net).withNoc n).besidePorts = (b.withNoc n).besidePorts := by
  simp [Block.hdrDiscard, Block.withNoc, Block.besidePorts]

/-- An event at a station changes only what is under way, when its effect does. -/
theorem Block.eventIf_withNoc (b : Block) (t : Nat) (p : Block → Bool) {f : Block → Block} (n : Noc)
    (hf : ∀ b, ((f b).withNoc n).besidePorts = (b.withNoc n).besidePorts) :
    ((b.eventIf t p f).withNoc n).besidePorts = (b.withNoc n).besidePorts := by
  have hat : ((b.at t).withNoc n).besidePorts = (b.withNoc n).besidePorts := Block.withNoc_besidePorts n (b.at_besidePorts t)
  obtain h | h := b.event_cases t fun b => if p b then f b else b
  · rw [Block.eventIf, h]
    split
    · rw [hf, hat]
    · exact hat
  · rw [Block.eventIf, h, hat]

theorem State.answer_withNoc {s u : State} {ok : Bool} {b : Block} (n : Noc) (h : s.answer ok b = .next u)
    (hb : (b.withNoc n).besidePorts = (s.blk.withNoc n).besidePorts) :
    (u.blk.withNoc n).besidePorts = (s.blk.withNoc n).besidePorts := by
  cases ok <;> cases h
  · rfl
  · exact hb

/-- Settles O60: each of the ports' commands keeps what stands beside the ports, and the two at a station all of it but what is under way. -/
theorem portFrame : Obligations.PortFrame := by
  intro c s u h hport
  suffices hkept : (u.blk.withNoc s.blk.net.noc).besidePorts = s.blk.besidePorts ∧
      ((∀ st net t, c ≠ .hdrDiscard st net t) → (∀ st t, c ≠ .stationGate st t) → u.blk.net = s.blk.net) by
    obtain ⟨hnoc, hnet⟩ := hkept
    simp only [Block.besidePorts, Prod.mk.injEq] at hnoc
    obtain ⟨hmem, hrgn, hctx, hledger, hfuses, hrest, hlink, hcommit⟩ := hnoc
    exact ⟨hmem, hrgn, hctx, hledger, hfuses, hrest, hnet, hlink, hcommit⟩
  have all (hall : u.blk.besidePorts = s.blk.besidePorts) : (u.blk.withNoc s.blk.net.noc).besidePorts = s.blk.besidePorts ∧
      ((∀ st net t, c ≠ .hdrDiscard st net t) → (∀ st t, c ≠ .stationGate st t) → u.blk.net = s.blk.net) :=
    ⟨Block.withNoc_besidePorts _ hall, fun _ _ => congrArg (·.2.2.2.2.2.1) hall⟩
  cases c
  case hdrDiscard station net t =>
    exact ⟨State.answer_withNoc _ h (Block.eventIf_withNoc _ _ (fun _ => true) _ fun b => b.hdrDiscard_withNoc station net _),
      fun hne => absurd rfl (hne station net t)⟩
  case stationGate station t =>
    exact ⟨State.answer_withNoc _ h (Block.eventIf_withNoc _ _ _ _ fun b => rfl), fun _ hne => absurd rfl (hne station t)⟩
  case canBusError port tec rec t =>
    exact all (State.answer_besidePorts h (Block.eventIf_besidePorts _ _ _ fun b => by simp [Block.busOff, apply_ite Block.besidePorts]))
  case busOff port t => exact all (State.answer_besidePorts h (Block.eventIf_besidePorts _ _ _ fun b => rfl))
  case busOffRecovery port t =>
    exact all (State.answer_besidePorts h (Block.eventIf_besidePorts _ _ _ fun b => b.setRegs_besidePorts _))
  case heartbeat port t =>
    exact all (State.answer_besidePorts h (Block.eventIf_besidePorts _ _ _ fun b => Block.canSend_besidePorts _ _ _ _ _))
  case usb4Connect gen bme msix =>
    refine all (State.answer_besidePorts h ?_)
    split
    · exact (Block.withLmp_besidePorts _ _).trans (s.blk.setRegs_besidePorts _)
    · rfl
  case usb4Disconnect => exact all (State.answer_besidePorts h (by simp [apply_ite Block.besidePorts]))
  case vectorUnmask v => exact all (State.answer_besidePorts h (by simp [apply_ite Block.besidePorts]))
  case barWriteError off status t =>
    exact all (State.answer_besidePorts h (Block.eventIf_besidePorts _ _ _ fun b => b.barWriteError_besidePorts off status))
  case extest bits => exact all (State.answer_besidePorts h (s.blk.drivePins_besidePorts _ bits))
  case extestPulse bits => exact all (State.answer_besidePorts h (s.blk.drivePins_besidePorts _ bits))
  case extestTrain bits => exact all (State.answer_besidePorts h (s.blk.drivePins_besidePorts _ bits))
  case clamp => exact all (State.answer_besidePorts h (s.blk.holdPins_besidePorts _ _))
  case highz => exact all (State.answer_besidePorts h (s.blk.holdPins_besidePorts _ _))
  case idcode => exact all (State.answer_besidePorts h (s.blk.tap_besidePorts _))
  case samplePreload pins bits => exact all (State.answer_besidePorts h (s.blk.tap_besidePorts _))
  case bypass => exact all (State.answer_besidePorts h (s.blk.tap_besidePorts _))
  case trstn => exact all (State.answer_besidePorts h rfl)
  case lmpStall via t =>
    refine all (State.answer_besidePorts h (State.limit_besidePorts _ _ _ (Block.event_besidePorts _ _ fun b => ?_)))
    split
    · simp [apply_ite Block.besidePorts]
    · rfl
  case fwdTimeout via t =>
    refine all (State.answer_besidePorts h (State.limit_besidePorts _ _ _ (Block.event_besidePorts _ _ fun b => ?_)))
    split
    · split
      · simp [apply_ite Block.besidePorts]
      · rfl
    · rfl
  case thermalSample raws t =>
    exact all (State.answer_besidePorts h (Block.eventIf_besidePorts _ _ _ fun b => b.takeSample_besidePorts raws))
  case throttleDecay t =>
    exact all (State.answer_besidePorts h (Block.eventIf_besidePorts _ _ _ fun b =>
      foldl_keeps Block.besidePorts _ Block.decayArea_besidePorts (List.range 64) { b with clk := { b.clk with lastTick := b.cricket } }))
  case mailboxResponse ch t => exact all (State.answer_besidePorts h (by simp [apply_ite Block.besidePorts]))
  case msgLen ini ch v =>
    exact all (State.answer_besidePorts h (Block.doorbell_besidePorts _ _ fun b => b.writeMsgLen_besidePorts ch v))
  case rspDone ini ch v =>
    exact all (State.answer_besidePorts h (Block.doorbell_besidePorts _ _ fun b => b.writeRspDone_besidePorts ch v))
  all_goals exact hport.elim

end Sys2Proof.Machine
end

section
/-! PROOFS. One commit at a time (R409): while one runs another is refused and changes wait; a change whose commit aborts is due 100 µs
later. What a decision to abort writes and sends leaves the waiting changes and the clock that their times are counted by. -/

namespace Sys2Proof.Machine

open Sys2Proof

/-- The clocks, and the changes whose commits aborted with the times at which they begin again. -/
def Block.retryClock (b : Block) : Clk × List (Remap × Nat) := (b.clk, b.commit.retry)

/-! The operations that a commit shares with the rest. -/

@[simp] theorem Block.setReg_retryClock (b : Block) (k v : Nat) : (b.setReg k v).retryClock = b.retryClock := rfl

@[simp] theorem Block.setRegs_retryClock (b : Block) (l : List (Nat × Nat)) : (b.setRegs l).retryClock = b.retryClock := by
  simp [Block.retryClock]

@[simp] theorem Block.count_retryClock (b : Block) (k d : Nat) : (b.count k d).retryClock = b.retryClock := rfl

@[simp] theorem Block.emit_retryClock (b : Block) (kind : OutKind) (u : Nat) (ws : List Nat) :
    (b.emit kind u ws).retryClock = b.retryClock := rfl

@[simp] theorem Block.logEvent_retryClock (b : Block) (code kind num data : Nat) :
    (b.logEvent code kind num data).retryClock = b.retryClock := by
  simp [Block.retryClock]

@[simp] theorem Block.msix_retryClock (b : Block) (v : Nat) : (b.msix v).retryClock = b.retryClock := by
  unfold Block.msix
  split
  · split <;> rfl
  · rfl

/-! Sending over the networks. -/

@[simp] theorem Block.countBytes_retryClock (b : Block) (rx : Bool) (net ini units : Nat) :
    (b.countBytes rx net ini units).retryClock = b.retryClock := by
  unfold Block.countBytes
  split <;> rfl

@[simp] theorem Block.countSent_retryClock (b : Block) (net : Nat) (ini : Option Nat) (units : Nat) :
    (b.countSent net ini units).retryClock = b.retryClock := by
  cases ini with
  | none => rfl
  | some i => exact b.countBytes_retryClock false net i units

@[simp] theorem Block.enter_retryClock (b : Block) (net stn port word c cport units : Nat) :
    (b.enter net stn port word c cport units).retryClock = b.retryClock := rfl

@[simp] theorem Block.takeOff_retryClock (b : Block) (net ini tag : Nat) : (b.takeOff net ini tag).retryClock = b.retryClock := rfl

@[simp] theorem Block.sendReq_retryClock (b : Block) (f : Nat) : (b.sendReq f).retryClock = b.retryClock := by
  simp [Block.sendReq]

theorem Block.withNet_retryClock (b : Block) (x : Net) : Block.retryClock { b with net := x } = b.retryClock := rfl

theorem Block.withLmp_retryClock (b : Block) (x : Lmp) : Block.retryClock { b with lmp := x } = b.retryClock := rfl

@[simp] theorem Block.sendDat_retryClock (b : Block) (stn port s : Nat) (beats : List Beat) :
    (b.sendDat stn port s beats).retryClock = b.retryClock := by
  unfold Block.sendDat Block.sendBeats
  dsimp only
  rw [Block.emit_retryClock, if_pos rfl]
  split
  · exact (Block.withNet_retryClock _ _).trans (Block.countSent_retryClock _ _ _ _)
  · exact (Block.takeOff_retryClock _ _ _ _).trans ((Block.withNet_retryClock _ _).trans (Block.countSent_retryClock _ _ _ _))

@[simp] theorem Block.ledgerOpen_retryClock (b : Block) (ini tag op addr stn port beats : Nat) :
    (b.ledgerOpen ini tag op addr stn port beats).retryClock = b.retryClock := rfl

@[simp] theorem Block.refuseAccess_retryClock (b : Block) (ini a : Nat) (write : Bool) (st : Nat) :
    (b.refuseAccess ini a write st).retryClock = b.retryClock := by
  simp [Block.refuseAccess, Block.barWriteError, apply_ite Block.retryClock]

@[simp] theorem Block.sendPiece_retryClock (b : Block) (tag : Nat) (u : Unsent) : (b.sendPiece tag u).retryClock = b.retryClock := by
  simp [Block.sendPiece, apply_ite Block.retryClock]

/-! The stewards' messages to other nodes. -/

@[simp] theorem Block.launch_retryClock (b : Block) (c : Courier) : (b.launch c).retryClock = b.retryClock := by
  unfold Block.launch
  dsimp only
  split
  · exact Block.sendPiece_retryClock _ _ _
  · rfl

@[simp] theorem Block.launchAll_retryClock (b : Block) : b.launchAll.retryClock = b.retryClock := by
  unfold Block.launchAll
  exact foldl_keeps Block.retryClock _ (fun b c => by simp [apply_ite Block.retryClock]) _ b

@[simp] theorem Block.postMessage_retryClock (b : Block) (node ch : Nat) (bytes : List Byte) (via : Option Via) (fresh : Bool) :
    (b.postMessage node ch bytes via fresh).retryClock = b.retryClock := by
  unfold Block.postMessage
  dsimp only
  rw [Block.launchAll_retryClock]
  rfl

@[simp] theorem Block.epochMessage_retryClock (b : Block) (node cmd : Nat) (fields : List Nat) :
    (b.epochMessage node cmd fields).retryClock = b.retryClock := by
  simp [Block.epochMessage, apply_ite Block.retryClock]

/-! The decision to abort (R412). -/

@[simp] theorem Block.partIdle_retryClock (b : Block) : b.partIdle.retryClock = b.retryClock := by
  simp [Block.partIdle, Block.retryClock]

@[simp] theorem Block.pushRecord_retryClock (b : Block) (r : Nat) : (b.pushRecord r).retryClock = b.retryClock :=
  Block.setReg_retryClock _ _ _

@[simp] theorem Block.setCommit_retryClock (b : Block) (r : Option CommitRun) : (b.setCommit r).retryClock = b.retryClock := rfl

/-- A change put back is due 100 µs from now, behind those that wait already. -/
theorem Block.retryChange_due {b : Block} {c : CommitRun} {x : Remap} (hx : c.change = some x) :
    (b.retryChange c).commit.retry = b.commit.retry ++ [(x, b.run + us 100)] := by
  unfold Block.retryChange
  rw [hx]

/-- So is the change of a device's commit once a decision to abort it has been recorded and sent. -/
theorem Block.decideAbort_due (b : Block) {c : CommitRun} {x : Remap} (nodes : Bool) (first code : Nat) (hx : c.change = some x) :
    (b.decideAbort c nodes first code).commit.retry = b.commit.retry ++ [(x, b.run + us 100)] := by
  unfold Block.decideAbort
  extract_lets replies discarded replied reasoned logged recorded sent commit decided
  have hrecorded : recorded.retryClock = b.retryClock := by
    simp [recorded, logged, reasoned, replied, apply_ite Block.retryClock]
  have hsent : sent.retryClock = recorded.retryClock := by
    simp only [sent, apply_ite Block.retryClock]
    rw [foldl_keeps Block.retryClock _ (fun b n => b.epochMessage_retryClock n 0x12 [c.epoch]), ite_self]
  have hidle : ((if c.part then decided.partIdle else decided).setCommit none).retryClock = decided.retryClock := by
    rw [Block.setCommit_retryClock, apply_ite Block.retryClock, Block.partIdle_retryClock, ite_self]
  have hclock : ((if c.part then decided.partIdle else decided).setCommit none).retryClock = b.retryClock :=
    hidle.trans (hsent.trans hrecorded)
  obtain ⟨hclk, hretry⟩ := Prod.mk.inj hclock
  have hmsix : ∀ (d : Block) (v : Nat), (d.msix v).commit.retry = d.commit.retry := fun d v =>
    congrArg Prod.snd (d.msix_retryClock v)
  have hrun : ((if c.part then decided.partIdle else decided).setCommit none).run = b.run := by
    rw [Block.run, hclk, Block.run]
  rw [hmsix, Block.retryChange_due hx, hretry, hrun]

/-- COMMIT_GO while a commit runs is aborted (R409): the value 1 is one that the object takes. -/
theorem Block.writeCommitGo_busy {b : Block} {c : CommitRun} (hrun : b.commit.run = some c) :
    b.writeCommitGo 1 = (Abort.commitBusy, b) := by
  have hv : checkValue Reg.commitGo 1 = Abort.none := by decide +kernel
  simp [Block.writeCommitGo, Block.guarded, badValue, hv, hrun, Abort.first]

/-- Settles O43: COMMIT_GO and the device's changes both ask whether a commit runs, and what puts a change back names its time. -/
theorem oneCommitAtATime : Obligations.OneCommitAtATime := by
  intro s t b hb hc
  refine ⟨fun c hrun hs => ?_, fun c hrun => ⟨?_, ?_⟩, fun c x nodes first code hx => b.decideAbort_due nodes first code hx,
    fun x due rest hrun hretry hdue => ?_⟩
  · subst hb
    refine State.answers rfl ((Block.host_of _ _ hs).trans ?_)
    rw [Block.writeCommitGo_busy hrun]
  · exact State.answers rfl (Block.event_falls hb hc (by simp [hrun]))
  · exact State.answers rfl (Block.event_falls hb hc (by simp [hrun]))
  · refine State.answers rfl (Block.eventIf_falls hb hc (by simp [hrun]) ?_)
    rw [Block.commitRetry, hretry]
    exact if_pos hdue

end Sys2Proof.Machine
end

section
/-! PROOFS. The header of a message (R388, Table 12.1). -/

namespace Sys2Proof.Machine

open Sys2Proof

/-- A field of `n` bits reads back from bit `lo` of a number, whatever stands below it and above. -/
theorem bitsOf_field {x low v above lo n : Nat} (hx : x = low + 2 ^ lo * (v + 2 ^ n * above)) (hlow : low < 2 ^ lo) (hv : v < 2 ^ n) :
    (x >>> lo) % 2 ^ n = v := by
  rw [hx, Nat.shiftRight_eq_div_pow, Nat.add_mul_div_left _ _ (Nat.two_pow_pos lo), Nat.div_eq_of_lt hlow, Nat.zero_add,
    Nat.add_mul_mod_self_left, Nat.mod_eq_of_lt hv]

theorem b2n_lt (v : Bool) : b2n v < 2 := by
  cases v <;> decide

/-- A flag reads back from the bit at which it stands. -/
theorem testBit_field {x low above lo : Nat} {v : Bool} (hx : x = low + 2 ^ lo * (b2n v + 2 ^ 1 * above)) (hlow : low < 2 ^ lo) :
    x.testBit lo = v := by
  have hbit : (x >>> lo) % 2 ^ 1 = b2n v := bitsOf_field hx hlow (b2n_lt v)
  rw [Nat.testBit_eq_decide_div_mod_eq, ← Nat.shiftRight_eq_div_pow, ← Nat.pow_one 2]
  simp only [hbit]
  cases v <;> rfl

section
variable {cmd xid idx sub len node : Nat} (last toggle : Bool) (hcmd : cmd < 256) (hxid : xid < 256) (hidx : idx < 65536)
  (hsub : sub < 256) (hlen : len < 16) (hnode : node < 4096)
include hcmd hxid hidx hsub hlen hnode

theorem lmpHeader_lt : lmpHeader cmd xid idx sub len last toggle node < 2 ^ 60 := by
  have hlast := b2n_lt last
  have htoggle := b2n_lt toggle
  unfold lmpHeader
  omega

/-- Each field of a header stands at its place, and its reserved bits are 0. -/
theorem lmpHeader_fields :
    let h := lmpHeader cmd xid idx sub len last toggle node
    bitsOf h 7 0 = cmd ∧ bitsOf h 15 8 = xid ∧ bitsOf h 31 16 = idx ∧ bitsOf h 39 32 = sub ∧ bitsOf h 43 40 = len ∧
      h.testBit 46 = last ∧ h.testBit 47 = toggle ∧ bitsOf h 59 48 = node ∧ bitsOf h 63 60 = 0 ∧ bitsOf h 45 44 = 0 := by
  have hlast := b2n_lt last
  have htoggle := b2n_lt toggle
  intro h
  have hh : h = cmd + xid * 2 ^ 8 + idx * 2 ^ 16 + sub * 2 ^ 32 + len * 2 ^ 40 + b2n last * 2 ^ 46 + b2n toggle * 2 ^ 47 + node * 2 ^ 48 :=
    rfl
  refine ⟨?_, ?_, ?_, ?_, ?_, ?_, ?_, ?_, ?_, ?_⟩
  · exact bitsOf_field (low := 0) (above := h / 2 ^ 8) (n := 8) (by omega) (by omega) (by omega)
  · exact bitsOf_field (low := h % 2 ^ 8) (above := h / 2 ^ 16) (n := 8) (by omega) (by omega) (by omega)
  · exact bitsOf_field (low := h % 2 ^ 16) (above := h / 2 ^ 32) (n := 16) (by omega) (by omega) (by omega)
  · exact bitsOf_field (low := h % 2 ^ 32) (above := h / 2 ^ 40) (n := 8) (by omega) (by omega) (by omega)
  · exact bitsOf_field (low := h % 2 ^ 40) (above := h / 2 ^ 44) (n := 4) (by omega) (by omega) (by omega)
  · exact testBit_field (low := h % 2 ^ 46) (above := h / 2 ^ 47) (by omega) (by omega)
  · exact testBit_field (low := h % 2 ^ 47) (above := h / 2 ^ 48) (by omega) (by omega)
  · exact bitsOf_field (low := h % 2 ^ 48) (above := 0) (n := 12) (by omega) (by omega) (by omega)
  · exact bitsOf_field (low := h) (above := 0) (n := 4) (by omega) (by omega) (by omega)
  · exact bitsOf_field (low := h % 2 ^ 44) (above := h / 2 ^ 46) (n := 2) (by omega) (by omega) (by omega)

end

/-- Settles O55: each field stands at its place in the header, and the header is the value of its own eight bytes. -/
theorem headerRoundTrip : Obligations.HeaderRoundTrip := by
  intro cmd xid idx sub len node last toggle via body hcmd hxid hidx hsub hlen hnode h m
  have hlt : h < 2 ^ 60 := lmpHeader_lt last toggle hcmd hxid hidx hsub hlen hnode
  obtain ⟨hc, hx, hi, hs, hl, hlast, htoggle, hn, hhigh, hlow⟩ := lmpHeader_fields last toggle hcmd hxid hidx hsub hlen hnode
  refine ⟨by omega, hc, hx, hi, hs, hl, hlast, htoggle, hn, hhigh, hlow, ?_, ?_⟩
  · rw [lmpBytes, List.length_append, length_bytesOf]
  · rw [lmpBytes, List.take_append_of_le_length (Nat.le_of_eq (length_bytesOf 8 h).symm),
      List.take_of_length_le (Nat.le_of_eq (length_bytesOf 8 h)), bytesVal_bytesOf, Nat.mod_eq_of_lt (by omega)]

end Sys2Proof.Machine
end

section
/-! PROOFS. Messages: what belongs to no open transfer (R393), and what a good message does under its command (R389 to R392, R403). -/

namespace Sys2Proof.Machine

open Sys2Proof

/-! Transfers. -/

theorem Block.xfer_congr {b c : Block} (h : c.lmp.xfers = b.lmp.xfers) (via : Via) : c.xfer via = b.xfer via := by
  rw [Block.xfer, h, Block.xfer]

theorem Block.canSend_lmp (b : Block) (p fn target : Nat) (bytes : List Byte) : (b.canSend p fn target bytes).lmp = b.lmp := by
  unfold Block.canSend Block.canSent Block.canState
  split <;> rfl

/-- An answer sent leaves the open transfers as they are. -/
theorem Block.lmpSend_xfers (b : Block) (via : Via) (msgs : List (List Byte)) : (b.lmpSend via msgs).lmp.xfers = b.lmp.xfers := by
  cases via with
  | mailbox ch => rfl
  | can p source => exact foldl_keeps (·.lmp.xfers) _ (fun b m => congrArg Lmp.xfers (b.canSend_lmp p 4 source m)) msgs b
  | settings => rfl

theorem Block.lmpSilent_can (b : Block) (p source : Nat) : b.lmpSilent (.can p source) = b := rfl

theorem Block.lmpSilent_xfers (b : Block) (via : Via) : (b.lmpSilent via).lmp.xfers = b.lmp.xfers := by
  cases via <;> rfl

/-- A message refused leaves the open transfers as they are. -/
theorem Block.refuseMessage_xfer (b : Block) (m : Message) (code : Nat) (via : Via) : (b.refuseMessage m code).xfer via = b.xfer via :=
  Block.xfer_congr (Block.lmpSend_xfers _ _ _) via

theorem Block.endXfer_outbox (b : Block) (via : Via) : (b.endXfer via).outbox = b.outbox := rfl

/-- Once its transfer has ended a transport has none. -/
theorem Block.endXfer_xfer (b : Block) (via : Via) : (b.endXfer via).xfer via = none := by
  unfold Block.xfer Block.endXfer
  rw [List.find?_eq_none]
  intro x hx
  have hne : (x.via != via) = true := (List.mem_filter.1 hx).2
  simpa using hne

/-- A message that is not one of the open transfer is answered with NO_TRANSFER, whatever its kind (R393). -/
theorem Block.inXfer_stray {b : Block} {m : Message} (h : ∀ x, b.xfer m.via = some x → m.of x = false) (kinds : List XferKind)
    (f : Xfer → Block) : b.inXfer m kinds f = b.refuseMessage m Abort.noTransfer := by
  unfold Block.inXfer
  split
  · next x hx => rw [h x hx, Bool.false_and, if_neg Bool.false_ne_true]
  · rfl

/-- An ABORT received is recorded, and its transfer ends with no other answer than the empty response of a mailbox (R393). -/
theorem Block.abortReceived_own {b : Block} {m : Message} {x : Xfer} (hx : b.xfer m.via = some x) (hm : m.of x = true) :
    b.abortReceived m = ((((b.count Reg.lmpAbortsReceived 1).setReg Reg.lastAbortCode (m.field 0 4 / 65536 * 65536)).endXfer
      m.via).lmpSilent m.via) := by
  have hxfer : ((b.count Reg.lmpAbortsReceived 1).setReg Reg.lastAbortCode (m.field 0 4 / 65536 * 65536)).xfer m.via = some x := hx
  unfold Block.abortReceived
  dsimp only
  rw [hxfer]
  dsimp only
  rw [if_pos hm]

/-- Settles O56: the messages of a transfer all ask whether it is open, and an ABORT is silent. -/
theorem strayMessages : Obligations.StrayMessages := by
  intro b m
  refine ⟨fun hstray => ⟨Block.inXfer_stray hstray _ _, Block.inXfer_stray hstray _ _, Block.inXfer_stray hstray _ _,
    Block.inXfer_stray hstray _ _, Block.inXfer_stray hstray _ _, b.refuseMessage_xfer m _ _⟩,
    fun x hx hm => ⟨?_, fun p source hcan => ?_⟩⟩
  · rw [Block.abortReceived_own hx hm, Block.xfer_congr (Block.lmpSilent_xfers _ _), Block.endXfer_xfer]
  · rw [Block.abortReceived_own hx hm, hcan]
    rw [Block.lmpSilent_can, Block.endXfer_outbox, Block.setReg_outbox, Block.count_outbox]

/-! A message that is served. -/

/-- Bits replaced by themselves. -/
theorem putBits_bitsOf (x hi lo : Nat) : putBits x hi lo (bitsOf x hi lo) = x := by
  have hle : bitsOf x hi lo * 2 ^ lo ≤ x :=
    calc bitsOf x hi lo * 2 ^ lo ≤ x / 2 ^ lo * 2 ^ lo := by
          rw [bitsOf, Nat.shiftRight_eq_div_pow]
          exact Nat.mul_le_mul_right _ (Nat.mod_le _ _)
      _ ≤ x := Nat.div_mul_le_self _ _
  have hmod : bitsOf x hi lo % 2 ^ (hi + 1 - lo) = bitsOf x hi lo := Nat.mod_mod _ _
  rw [putBits, hmod, Nat.sub_add_cancel hle]

/-- The header of a message that comes under its own row is the one it has. -/
theorem rowHeader_own {cmd hdr : Nat} (h : bitsOf hdr 7 0 = cmd) : rowHeader cmd hdr = hdr := by
  subst h
  unfold rowHeader
  rw [putBits_bitsOf, ite_self]

/-- The block once a transport's message has been taken: of a mailbox's request, the next begins. -/
def Block.taken (b : Block) : Via → Block
  | .mailbox ch => b.takeRequest ch
  | _ => b

theorem Block.taken_node (b : Block) (via : Via) : (b.taken via).node = b.node := by
  cases via <;> rfl

/-- What a message that has been taken does: forwarded, refused, or served by `f`. -/
def Block.handled (b : Block) (m : Message) (f : Block → Message → Block) : Block :=
  if m.node ≠ b.node ∧ m.via ≠ .mailbox 63 then b.forward m
  else match m.fault with
    | some code => b.breakXfer m code
    | none =>
      if answerCommands.contains m.cmd then b.refuseMessage m Abort.noTransfer
      else if m.cmd = 0x0F ∨ m.cmd = 0x8F then b.abortReceived m
      else f (b.supersede m) m

/-- A message in its turn on a transport that works is taken, and then handled. -/
theorem Block.lmpTake_handled {b : Block} {m : Message} {f : Block → Message → Block} (hworks : b.viaWorks m.via = true)
    (hserved : b.served = true) (hepoch : m.via ≠ .mailbox 63) (hhere : b.messageHere m = true) :
    b.lmpTake m f = ((b.taken m.via).handled m f).requestServed m.via := by
  have hgo : ¬(!b.viaWorks m.via || !b.served || !b.messageHere m || (m.via == .mailbox 63 && m.fault.isNone)) = true := by
    simp [hworks, hserved, hhere, hepoch]
  exact if_neg hgo

/-- The commands that only a server sends stand above those of requests (Table 12.2). -/
theorem answerCommands_above : ∀ cmd < 0x0C, answerCommands.contains cmd = false := by decide

section
variable {b : Block} {m : Message} (hnode : m.node = b.node) (hgood : m.fault = none)
include hnode hgood

/-- A good request to this node is served by its command. -/
theorem Block.handled_request (hreq : m.cmd < 0x0C) (f : Block → Message → Block) : b.handled m f = f (b.supersede m) m := by
  unfold Block.handled
  rw [if_neg fun h => h.1 hnode, hgood]
  dsimp only
  rw [answerCommands_above m.cmd hreq, if_neg Bool.false_ne_true, if_neg (by omega)]

/-- An ABORT to this node ends its transfer. -/
theorem Block.handled_abort (hcmd : m.cmd = 0x0F) (f : Block → Message → Block) : b.handled m f = b.abortReceived m := by
  unfold Block.handled
  rw [if_neg fun h => h.1 hnode, hgood]
  dsimp only
  rw [hcmd, if_neg (by decide), if_pos (.inl rfl)]

end

/-- A request that opens a transfer ends the open one of its transport, here and at another node (R403); any other leaves it. -/
theorem Block.supersede_opens {m : Message} (h : opensTransfer m.cmd = true) (b : Block) :
    b.supersede m = (b.endXfer m.via).endForward m.via :=
  if_pos h

theorem Block.supersede_goesOn {m : Message} (h : opensTransfer m.cmd = false) (b : Block) : b.supersede m = b :=
  if_neg (by rw [h]; exact Bool.false_ne_true)

/-- Settles O53: a message comes under the row of its command, and there is served. -/
theorem messagesComplete : Obligations.MessagesComplete := by
  intro s t via hdr body b hb hc hvia hworks hserved hepoch m hhere hnode hgood d
  have hhome : m.node = (b.taken via).node := hnode.trans (b.taken_node via).symm
  have row {cmd : Nat} {f : Block → Message → Block} {c : Block} (hcmd : m.cmd = cmd) (hf : (b.taken via).handled m f = c) :
      lmpEvent cmd via hdr body t f s = .next (s.becomes (c.requestServed via)) := by
    have hm : (⟨via, rowHeader cmd hdr.toNat, body⟩ : Message) = m := by rw [rowHeader_own hcmd]
    refine State.answers hvia (Block.event_falls hb hc ?_)
    rw [hm, Block.lmpTake_handled hworks hserved hepoch hhere, hf]
  have opens {cmd : Nat} {f : Block → Message → Block} (hopens : opensTransfer cmd = true) (hreq : cmd < 0x0C) (hcmd : m.cmd = cmd) :
      lmpEvent cmd via hdr body t f s = .next (s.becomes ((f (((b.taken via).endXfer via).endForward via) m).requestServed via)) := by
    subst hcmd
    exact row rfl ((Block.handled_request hhome hgood hreq f).trans (congrArg (f · m) (Block.supersede_opens hopens _)))
  have goesOn {cmd : Nat} {f : Block → Message → Block} (hopens : opensTransfer cmd = false) (hreq : cmd < 0x0C) (hcmd : m.cmd = cmd) :
      lmpEvent cmd via hdr body t f s = .next (s.becomes ((f (b.taken via) m).requestServed via)) := by
    subst hcmd
    exact row rfl ((Block.handled_request hhome hgood hreq f).trans (congrArg (f · m) (Block.supersede_goesOn hopens _)))
  exact ⟨opens rfl (by decide), opens rfl (by decide), opens rfl (by decide), opens rfl (by decide), goesOn rfl (by decide),
    opens rfl (by decide), opens rfl (by decide), goesOn rfl (by decide), goesOn rfl (by decide), goesOn rfl (by decide),
    goesOn rfl (by decide), fun hcmd => row hcmd (Block.handled_abort hhome hgood hcmd _)⟩

end Sys2Proof.Machine
end

section
/-! PROOFS. Writes that the dictionary aborts (R387), and the mailbox channels (R395, R396). -/

namespace Sys2Proof.Machine

open Sys2Proof

/-- A write whose opening is aborted answers that code and changes nothing. -/
theorem Block.dictWrite_aborts {b : Block} {idx sub len a : Nat} (via : Via) (v : Nat) (ha : b.openWrite idx sub len = a)
    (h0 : a ≠ Abort.none) : b.dictWrite via idx sub len v = (a, b) := by
  subst ha
  exact if_neg h0

/-- Settles O52: each code is that of the first check which applies. -/
theorem writeAborts : Obligations.WriteAborts := by
  intro s via idx sub len v hvia hs aborted
  have answer {a : Nat} (ha : s.blk.openWrite idx sub len = a) (h0 : a ≠ Abort.none) : aborted a := by
    refine State.answers hvia ((Block.host_of _ _ hs).trans ?_)
    rw [Block.dictWrite_aborts via v ha h0]
  refine ⟨fun hrow hidx => answer ?_ (by decide), fun hrow hidx => answer ?_ (by decide),
    fun r hrow => ⟨fun hacc => answer ?_ (by decide), fun hacc hbusy => answer ?_ (by decide), fun hro hcst hidle => ?_⟩⟩
  · simp only [Block.openWrite, hrow, hidx, Bool.false_eq_true, if_false]
  · simp only [Block.openWrite, hrow, hidx, if_true]
  · have hno : (r.acc == .ro || r.acc == .cst) = true := by
      rw [Bool.or_eq_true, beq_iff_eq, beq_iff_eq]
      exact hacc
    simp only [Block.openWrite, hrow, hno, Abort.first, if_true]
  · have hmay : (r.acc == .ro || r.acc == .cst) = false := by rw [hacc]; rfl
    have hlate : (r.acc == .rwi && !s.blk.unitIdle idx) = true := by rw [hacc, hbusy]; rfl
    simp only [Block.openWrite, hrow, hmay, hlate, Abort.first, Bool.false_eq_true, if_false, if_true]
  · have hmay : (r.acc == .ro || r.acc == .cst) = false := by rw [beq_false_of_ne hro, beq_false_of_ne hcst]; rfl
    have hidle' : (r.acc == .rwi && !s.blk.unitIdle idx) = false := by
      by_cases hrwi : r.acc = .rwi
      · rw [hidle hrwi, Bool.not_true, Bool.and_false]
      · rw [beq_false_of_ne hrwi, Bool.false_and]
    refine ⟨fun n hsize hlen => answer ?_ (by decide), fun n hsize hlen => answer ?_ (by decide)⟩
    · simp only [Block.openWrite, hrow, hmay, hidle', hsize, bne_iff_ne.2 hlen, Abort.first, Bool.false_eq_true, if_false, if_true]
    · simp only [Block.openWrite, hrow, hmay, hidle', hsize, decide_eq_true hlen, Abort.first, Bool.false_eq_true, if_false, if_true]

/-! The mailbox. -/

/-- A write of MSG_LEN to a free channel, in range, makes it busy. -/
theorem Block.writeMsgLen_free {b : Block} {ch v : Nat} (hbusy : (b.mboxAt ch).busy = false) (hready : (b.mboxAt ch).ready = false)
    (hlo : 8 ≤ v) (hhi : v ≤ 4096) : b.writeMsgLen ch v =
      (0, b.setMbox ch { b.mboxAt ch with busy := true, refused := false, reqLen := v, taken := 0, answer := none }) :=
  if_neg (by simp [hbusy, hready, hlo, hhi])

/-- Any other is refused. -/
theorem Block.writeMsgLen_refused {b : Block} {ch v : Nat}
    (h : (b.mboxAt ch).busy = true ∨ (b.mboxAt ch).ready = true ∨ v < 8 ∨ 4096 < v) :
    b.writeMsgLen ch v = (7, b.setMbox ch { b.mboxAt ch with refused := true }) :=
  if_pos (by simpa [or_assoc] using h)

/-- Settles O32: the channel's state decides the answer to a write, and an answer is placed while none waits to be taken. -/
theorem mailboxCompletes : Obligations.MailboxCompletes := by
  intro s ini ch v hini hch
  have hwf : (wfInitiator ini && wfMbox ch) = true := by rw [hini, hch]; rfl
  refine ⟨fun hc hwriter => ?_, fun t b bytes hb hs hans hready => ?_⟩
  · have access {f : Block → Nat × Block} {st : Nat} {u : Block} (hf : f s.blk = (st, u)) :
        s.answer (wfInitiator ini && wfMbox ch)
          (s.blk.doorbell fun b => if mboxWriter ch ini then f b else (Status.accessDenied, b)) =
          .next (s.becomes (u.emit .completion 0 [st])) :=
      State.answers hwf (Block.doorbell_answered hc ((if_pos hwriter).trans hf))
    exact ⟨fun hbusy hready hlo hhi => access (Block.writeMsgLen_free hbusy hready hlo hhi),
      fun h => access (Block.writeMsgLen_refused h), access (if_pos rfl)⟩
  · subst hb
    refine State.answers hch ((if_pos hs).trans ?_)
    unfold Block.placeResponse
    dsimp only
    rw [hans]
    dsimp only
    rw [hready, if_neg Bool.false_ne_true]

end Sys2Proof.Machine
end

section
/-! PROOFS. The CAN ports (R402, R404), the USB4 port and its endpoint (R397 to R401): each event falls on its condition. -/

namespace Sys2Proof.Machine

open Sys2Proof

/-- Settles O57: each row falls on its condition; the target of a heartbeat is the free value that it draws. -/
theorem portsComplete : Obligations.PortsComplete := by
  intro s t b hb hc
  refine ⟨fun p hp => ⟨fun tec rec hworks => ⟨fun htec => ?_, fun htec => ?_⟩, fun hworks => ?_, fun hoff => ?_, fun hdue => ?_⟩,
    fun hclk => ⟨fun gen bme msix hlo hhi hallowed => ?_, fun hstate => ?_, fun v hv hup => ?_⟩, fun off status hup hst => ?_⟩
  · exact State.answers hp (Block.eventIf_falls hb hc hworks (if_neg (Nat.not_lt.2 htec)))
  · exact State.answers hp (Block.eventIf_falls hb hc hworks (if_pos htec))
  · exact State.answers hp (Block.eventIf_falls hb hc hworks rfl)
  · exact State.answers hp (Block.eventIf_falls hb hc (beq_iff_eq.2 hoff) rfl)
  · exact ⟨b.draw.1 % 4096, Nat.mod_lt _ (by decide), State.answers hp (Block.eventIf_falls hb hc hdue rfl)⟩
  · exact State.answers (decide_eq_true ⟨hlo, hhi⟩) (if_pos (by rw [hclk, hallowed]; rfl))
  · exact State.answers rfl (if_neg hstate)
  · exact State.answers hv (if_pos hup)
  · exact State.answers rfl (Block.eventIf_falls hb hc (by simp [hup, hst]) rfl)

end Sys2Proof.Machine
end

section
/-! PROOFS. The machine at rest: the state at power-on reset (R10, R441), and a step with no command waiting. -/

namespace Sys2Proof.Machine

open Sys2Proof

/-- Settles O2: idling is the passing of time to the next edge of REFCLK, and the passing of time keeps the design. -/
theorem idleStep : Obligations.IdleStep := by
  intro b
  refine ⟨b.idle, step_nil b, ?_, b.at_mem _, b.at_ctx _, b.at_rgn _, b.at_link _, b.at_net _⟩
  rw [Block.idle, Block.at_now]
  exact Nat.max_eq_right (by unfold refclk; omega)

/-- Settles O3: every list of the reset state is empty, so that every register reads its default for grade 1. -/
theorem resetState : Obligations.ResetState :=
  ⟨rfl, rfl, rfl, fun _ => rfl, rfl, rfl⟩

/-- Settles O7: no command waits at reset. -/
theorem wellPendingAtReset : Obligations.WellPendingAtReset :=
  fun _ hc => (List.not_mem_nil hc).elim

end Sys2Proof.Machine
end

section
/-! PROOFS. Stops (R437 to R439). -/

namespace Sys2Proof.Machine

open Sys2Proof

/-- Of a list of registers written by a function of their numbers each reads as that function says, and every other as before. -/
theorem Block.reg_setRegs_map (b : Block) (f : Nat → Nat) (l : List Nat) (k : Nat) :
    (b.setRegs (l.map fun k => (k, f k))).reg k = if k ∈ l then f k else b.reg k := by
  induction l generalizing b with
  | nil => rfl
  | cons j l ih =>
    rw [List.map_cons, Block.setRegs, ih]
    by_cases hl : k ∈ l
    · simp [hl]
    · by_cases hj : k = j
      · subst hj
        simp [hl]
      · simp [hl, hj, Block.reg_setReg_ne b _ hj]

/-- The design, its memories, the links and the runs: what a stop leaves alone. -/
def Block.design (b : Block) : Ctx × Rgn × Mem × Link × Disp := (b.ctx, b.rgn, b.mem, b.link, b.disp)

@[simp] theorem Block.setReg_design (b : Block) (k v : Nat) : (b.setReg k v).design = b.design := rfl

@[simp] theorem Block.count_design (b : Block) (k d : Nat) : (b.count k d).design = b.design := rfl

/-! The transmitters and the USB4 port. -/

/-- The block with nothing sent outside. -/
def Block.unsent (b : Block) : Block := { b with outbox := [] }

theorem Block.unsent_design (b : Block) : b.unsent.design = b.design := rfl

theorem Block.unsent_reg (b : Block) (k : Nat) : b.unsent.reg k = b.reg k := rfl

/-- Silencing the transmitters changes nothing but what is sent outside. -/
theorem Block.lanesSilent_unsent (b : Block) : b.lanesSilent.unsent = b.unsent := by
  unfold Block.lanesSilent
  refine foldl_keeps Block.unsent _ (fun _ _ => ?_) _ b
  rfl

@[simp] theorem Block.lanesSilent_design (b : Block) : b.lanesSilent.design = b.design := by
  rw [← b.lanesSilent.unsent_design, b.lanesSilent_unsent, b.unsent_design]

@[simp] theorem Block.lanesSilent_reg (b : Block) (k : Nat) : b.lanesSilent.reg k = b.reg k := by
  rw [← b.lanesSilent.unsent_reg, b.lanesSilent_unsent, b.unsent_reg]

@[simp] theorem Block.setRegs_design (b : Block) (l : List (Nat × Nat)) : (b.setRegs l).design = b.design := by simp [Block.design]

theorem reg_withLmp (b : Block) (x : Lmp) (k : Nat) : Block.reg { b with lmp := x } k = b.reg k := rfl

theorem Block.withLmp_design (b : Block) (x : Lmp) : Block.design { b with lmp := x } = b.design := rfl

@[simp] theorem Block.usb4Drop_design (b : Block) : b.usb4Drop.design = b.design := by
  unfold Block.usb4Drop
  refine (Block.withLmp_design _ _).trans ((Block.setRegs_design _ _).trans ?_)
  simp [apply_ite Block.design]

/-- The registers that a disconnection of the USB4 port clears. -/
def usb4Cleared : List Nat := [Reg.usb4State, Reg.usb4Gen, Reg.pcieUp, Reg.msixEnabled]

/-- A disconnection counts itself, and clears the registers of the port and its endpoint (R401). -/
theorem Block.usb4Drop_reg (b : Block) {k : Nat} (hcount : k ≠ Reg.disconnects) :
    b.usb4Drop.reg k = if k ∈ usb4Cleared then 0 else b.reg k := by
  have hcounted (p : Prop) [Decidable p] : (if p then b else b.count Reg.disconnects 1).reg k = b.reg k := by
    rw [apply_ite (Block.reg · k), Block.reg_count_ne b 1 hcount, ite_self]
  have hlist : [(Reg.usb4State, 0), (Reg.usb4Gen, 0), (Reg.pcieUp, 0), (Reg.msixEnabled, 0)] = usb4Cleared.map (·, 0) := rfl
  unfold Block.usb4Drop
  rw [reg_withLmp, hlist, Block.reg_setRegs_map, hcounted]

/-! The stop. -/

/-- The first of several stops notes itself in the registers, disconnects the USB4 port, silences the transmitters and is then in force. -/
theorem Block.declareStop_first {b : Block} (h : b.clk.stop = none) (cause rails : Nat) : ∃ (d : Block) (st : Stop),
    b.declareStop cause rails = { d.usb4Drop.lanesSilent with clk := { d.usb4Drop.lanesSilent.clk with stop := some st } } ∧
      d.design = b.design ∧ d.reg Reg.lastStopCause = cause := by
  unfold Block.declareStop
  simp only [Block.setReg_clk, h]
  refine ⟨_, _, rfl, ?_, ?_⟩
  · simp [apply_ite Block.design]
  · simp (disch := decide) [apply_ite (Block.reg · Reg.lastStopCause), Block.reg_setReg_ne, Block.reg_count_ne]

/-- A stop declared while another is in force is added to that one, and shows its cause and the rails. -/
theorem Block.declareStop_again {b : Block} {st : Stop} (h : b.clk.stop = some st) (cause rails : Nat) : ∃ st' : Stop,
    b.declareStop cause rails = { (b.setReg Reg.railsInRange (rails % 256)).setReg Reg.lastStopCause cause with
      clk := { b.clk with stop := some st' } } := by
  unfold Block.declareStop
  simp only [Block.setReg_clk, h]
  exact ⟨_, rfl⟩

/-- A register reads the same, and the design is the same, whatever the clocks show. -/
theorem reg_withClk (b : Block) (x : Clk) (k : Nat) : Block.reg { b with clk := x } k = b.reg k := rfl

theorem Block.withClk_design (b : Block) (x : Clk) : Block.design { b with clk := x } = b.design := rfl

theorem Block.declareStop_halted (b : Block) (cause rails : Nat) : (b.declareStop cause rails).halted = true := by
  cases h : b.clk.stop with
  | none =>
    obtain ⟨d, st, hu, -⟩ := Block.declareStop_first h cause rails
    rw [hu]
    rfl
  | some st =>
    obtain ⟨st', hu⟩ := Block.declareStop_again h cause rails
    rw [hu]
    rfl

theorem Block.declareStop_design (b : Block) (cause rails : Nat) : (b.declareStop cause rails).design = b.design := by
  cases h : b.clk.stop with
  | none =>
    obtain ⟨d, st, hu, hd, -⟩ := Block.declareStop_first h cause rails
    rw [hu, Block.withClk_design, Block.lanesSilent_design, Block.usb4Drop_design, hd]
  | some st =>
    obtain ⟨st', hu⟩ := Block.declareStop_again h cause rails
    rw [hu, Block.withClk_design, Block.setReg_design, Block.setReg_design]

theorem Block.declareStop_cause (b : Block) (cause rails : Nat) : (b.declareStop cause rails).reg Reg.lastStopCause = cause := by
  cases h : b.clk.stop with
  | none =>
    obtain ⟨d, st, hu, -, hcause⟩ := Block.declareStop_first h cause rails
    rw [hu, reg_withClk, Block.lanesSilent_reg, Block.usb4Drop_reg d (by decide), if_neg (by decide), hcause]
  | some st =>
    obtain ⟨st', hu⟩ := Block.declareStop_again h cause rails
    rw [hu, reg_withClk, Block.reg_setReg]

/-- The first of several stops leaves the USB4 port disconnected and its tunnel down. -/
theorem Block.declareStop_usb4 {b : Block} (h : b.clk.stop = none) (cause rails : Nat) {k : Nat} (hk : k ∈ usb4Cleared)
    (hcount : k ≠ Reg.disconnects) : (b.declareStop cause rails).reg k = 0 := by
  obtain ⟨d, st, hu, -⟩ := Block.declareStop_first h cause rails
  rw [hu, reg_withClk, Block.lanesSilent_reg, Block.usb4Drop_reg d hcount, if_pos hk]

theorem Block.not_clocked_of_halted {b : Block} (h : b.halted = true) : b.clocked = false := by
  have hstop : b.clk.stop.isNone = false := by simpa [Block.halted] using h
  rw [Block.clocked, hstop, Bool.and_false]

/-- Settles O50: the outputs follow from the stop in force, and the detector writes none of the design's state. -/
theorem stopOutputs : Obligations.StopOutputs := by
  intro b cause rails
  have hhalt : (b.declareStop cause rails).halted = true := b.declareStop_halted cause rails
  have hdesign := b.declareStop_design cause rails
  simp only [Block.design, Prod.mk.injEq] at hdesign
  obtain ⟨hctx, hrgn, hmem, hlink, hdisp⟩ := hdesign
  refine ⟨by simp [Block.faultAsserted, hhalt], by simp [Block.alertAsserted, hhalt], fun p => by simp [Block.canRecessive, hhalt],
    by simp [Block.auxRuns, hhalt], Block.not_clocked_of_halted hhalt,
    fun h => ⟨Block.declareStop_usb4 h cause rails (by decide) (by decide), Block.declareStop_usb4 h cause rails (by decide) (by decide)⟩,
    hctx, hrgn, hmem, hlink, hdisp, b.declareStop_cause cause rails, fun st h => ?_⟩
  obtain ⟨st', hu⟩ := Block.declareStop_again h cause rails
  rw [hu]
  refine ⟨rfl, rfl, fun k hcause hrails => ?_⟩
  rw [reg_withClk, Block.reg_setReg_ne _ _ hcause, Block.reg_setReg_ne _ _ hrails]

end Sys2Proof.Machine
end

section
/-! PROOFS. A device reset (R442, R443). -/

namespace Sys2Proof.Machine

open Sys2Proof

/-! What an event that is logged leaves of the bonds. -/

theorem canSent_health (b : Block) (p : Nat) : (b.canSent p).health = b.health := by
  unfold Block.canSent Block.canState
  simp only [Block.setReg_health]

theorem alert_health (b : Block) (e : LogEntry) : (b.alert e).health = b.health := by
  unfold Block.alert
  extract_lets send
  have hsend (b : Block) (p : Nat) : (send b p).health = b.health := by
    simp only [send]
    split
    · rw [Block.emit_health, canSent_health, Block.count_health]
    · rfl
  split
  · rfl
  · rw [hsend, hsend]

theorem logNew_steer (b : Block) (code kind num data : Nat) : (b.logNew code kind num data).health.steer = b.health.steer := by
  unfold Block.logNew
  dsimp only
  split
  · rfl
  · rw [alert_health, Block.setReg_health]
    dsimp only
    split
    · rfl
    · rw [Block.count_health]

/-- An event that is logged leaves the steering of the bonds as it is. -/
theorem logEvent_steer (b : Block) (code kind num data : Nat) : (b.logEvent code kind num data).health.steer = b.health.steer := by
  unfold Block.logEvent
  dsimp only
  split
  · split
    · rfl
    · exact logNew_steer _ _ _ _ _
  · exact logNew_steer _ _ _ _ _

/-! The block that the reset leaves. -/

/-- Steps that change nothing but the contexts change, all together, nothing but the contexts. -/
theorem foldl_withCtx {β : Type} (f : Block → β → Block) (hf : ∀ n e, ∃ c, f n e = { n with ctx := c }) (l : List β) (n : Block) :
    ∃ c, l.foldl f n = { n with ctx := c } := by
  induction l generalizing n with
  | nil => exact ⟨n.ctx, rfl⟩
  | cons e l ih =>
    obtain ⟨c, hc⟩ := hf n e
    obtain ⟨c', hc'⟩ := ih (f n e)
    exact ⟨c', by rw [List.foldl_cons, hc', hc]⟩

theorem reg_withCtx (b : Block) (x : Ctx) (k : Nat) : Block.reg { b with ctx := x } k = b.reg k := rfl

/-- A device reset wipes the block to its defaults but for what Table 13.8 keeps, and then records itself. -/
theorem Block.resetDevice_wipes (b : Block) (cause : Nat) : ∃ n : Block,
    b.resetDevice cause = ((n.count Reg.deviceResets 1).setReg Reg.lastResetCause cause).logEvent 0x0802 0 368 cause ∧
      n.fuses = b.fuses ∧ n.health.steer = b.health.steer ∧ n.mem.cells = [] ∧ n.clk.mode = .deviceReset ∧
      ∀ k, n.reg k = if k ∈ keptRegs then b.reg k else regDefault b.fuses.grade k := by
  unfold Block.resetDevice
  extract_lets kept cleared due wiped n
  obtain ⟨c, hn⟩ : ∃ c, n = { wiped.setRegs kept with ctx := c } := foldl_withCtx _ (fun _ _ => ⟨_, rfl⟩) cleared _
  have hkept : kept = keptRegs.map fun k => (k, b.reg k) := rfl
  have hdefault (k : Nat) : wiped.reg k = regDefault b.fuses.grade k := rfl
  refine ⟨n, rfl, ?_⟩
  clear_value n kept
  subst hn
  refine ⟨Block.setRegs_fuses wiped kept, ?_, congrArg Mem.cells (Block.setRegs_mem wiped kept),
    congrArg Clk.mode (Block.setRegs_clk wiped kept), fun k => ?_⟩
  · rw [Block.setRegs_health]
  · rw [reg_withCtx, hkept, Block.reg_setRegs_map, hdefault]

/-- The event log writes none of what Table 13.8 keeps but its own two counts. -/
theorem not_mem_logRegs_of_kept : ∀ k ∈ keptRegs, k ≠ Reg.logSeq → k ≠ Reg.logLost → k ∉ logRegs := by
  have hcan : ∀ k ∈ [Reg.framesTx 0, Reg.tec 0, Reg.busState 0, Reg.framesTx 1, Reg.tec 1, Reg.busState 1], k ∉ keptRegs := by
    decide +kernel
  intro k hk hseq hlost hlog
  rcases List.mem_cons.1 hlog with h | hlog
  · exact hseq h
  rcases List.mem_cons.1 hlog with h | hlog
  · exact hlost h
  · exact hcan k hlog hk

/-- CFG_STATE is 0 after a reset, whatever the grade. -/
theorem cfgState_default (grade : Nat) : regDefault grade Reg.cfgState = 0 := rfl

/-- Settles O51: what is kept is read back from the block that the reset leaves, and the record of the reset touches only its own
registers. -/
theorem deviceResetKeeps : Obligations.DeviceResetKeeps := by
  intro b cause
  obtain ⟨n, hu, hfuses, hsteer, hcells, hmode, hreg⟩ := b.resetDevice_wipes cause
  have hcfg : (b.resetDevice cause).reg Reg.cfgState = 0 := by
    rw [hu, logEvent_reg _ _ _ _ _ (by decide), Block.reg_setReg_ne _ _ (by decide), Block.reg_count_ne _ _ (by decide), hreg,
      if_neg (by decide +kernel), cfgState_default]
  refine ⟨?_, ?_, ?_, ?_, fun k hk hresets hcause hseq hlost => ?_, ?_, ?_, hcfg, ?_⟩
  · rw [hu, Block.logEvent_fuses, Block.setReg_fuses, Block.count_fuses, hfuses]
  · rw [hu, logEvent_steer, Block.setReg_health, Block.count_health, hsteer]
  · rw [hu, Block.logEvent_mem, Block.setReg_mem, Block.count_mem, hcells]
  · rw [hu, Block.logEvent_clk, Block.setReg_clk, Block.count_clk, hmode]
  · rw [hu, logEvent_reg _ _ _ _ _ (not_mem_logRegs_of_kept k hk hseq hlost), Block.reg_setReg_ne _ _ hcause,
      Block.reg_count_ne _ _ hresets, hreg, if_pos hk]
  · rw [hu, logEvent_reg _ _ _ _ _ (by decide), Block.reg_setReg]
  · rw [hu, logEvent_reg _ _ _ _ _ (by decide), Block.reg_setReg_ne _ _ (by decide), Block.reg_count, hreg,
      if_pos (by decide +kernel)]
  · rw [Block.doneHigh, Block.started, hcfg]
    rfl

end Sys2Proof.Machine
end

section
/-! PROOFS. Stops, trips, Hibernate and the resets of the whole device (R434 to R443, R462): each command has its effect under its conditions. -/

namespace Sys2Proof.Machine

open Sys2Proof

/-- The values that order Hibernate and a device reset pass the checks of their rows (R387). -/
theorem hibernate_value : checkValue Reg.hibernate 1 = Abort.none := by decide +kernel

theorem deviceReset_value : checkValue Reg.deviceReset 0xA5 = Abort.none := by decide +kernel

/-- Settles O48: each command has the effect of its rule under the rule's conditions. -/
theorem deviceResetsComplete : Obligations.DeviceResetsComplete := by
  intro s t b hb
  refine ⟨fun cause rails h1 h4 hpor => ⟨?_, b.declareStop_halted cause rails, b.declareStop_cause cause rails⟩,
    fun k hk hpor hsuspect => ⟨?_, Block.declareStop_cause _ 4 _, fun hstop => ?_⟩, fun st hst hdue => ?_, fun hs hbar => ?_,
    fun src unit hsrc hunit hwakes => ?_, rfl, fun mode nid rails hmode hnid hpor => ?_, fun hpor hstop => ?_,
    fun mode hmode hdue => ?_, fun hs hdue => ?_, fun due cause hc hdue hle => ?_⟩
  · exact State.answers (decide_eq_true ⟨h1, h4⟩) (by rw [hb, if_neg (by simpa using hpor)])
  · exact State.answers hk (by rw [hb, if_neg (by simp [hpor, hsuspect])])
  · rw [Block.trip, if_neg (by simp [hstop])]
  · exact State.answers rfl (by simp only [hb, hst, if_pos hdue])
  · subst hb
    exact State.answers rfl (Block.host_answered hs (Block.guarded_pass _ (by simp [badValue, hbar, Abort.first, hibernate_value])))
  · exact State.answers (by simp [hsrc, hunit]) (by rw [hb, if_pos hwakes])
  · exact State.answers (by simp [hmode, hnid]) (if_pos (by simp [hpor]))
  · exact State.answers rfl (by rw [hb, if_neg (by simp [hpor, hstop])])
  · exact State.answers (decide_eq_true hmode) (by rw [hb, if_pos hdue])
  · subst hb
    exact State.answers rfl (Block.host_answered hs ((Block.guarded_pass _ (by simp [badValue, deviceReset_value, Abort.first])).trans
      (by rw [if_neg (by simp [hdue])])))
  · exact State.answers rfl (Block.event_falls hb hc (by simp only [hdue, if_pos hle]))

end Sys2Proof.Machine
end

section
/-! PROOFS. Thermal sensing and throttling (R450 to R461): the sample, its coming into force, the decay of the requests, and the
order of the throttle target and the warning level. -/

namespace Sys2Proof.Machine

open Sys2Proof

/-- Settles O40: each event falls on the block of its time when the edge, or the sample that is due, has come. -/
theorem thermalCompletes : Obligations.ThermalCompletes := by
  intro s t b hb hc
  refine ⟨fun raws hlen hedge => ?_, fun due raws hpending hdue => ?_, fun hedge hnew => ?_⟩
  · exact State.answers (decide_eq_true hlen) (Block.eventIf_falls hb hc (beq_iff_eq.2 hedge) rfl)
  · refine State.answers rfl (Block.event_falls hb hc ?_)
    simp only [hpending]
    exact if_pos hdue
  · exact State.answers rfl (Block.eventIf_falls hb hc (by simp [hedge, hnew]) rfl)

/-! A level that its own row lets through and the other level does not (R457). -/

/-- A write that opens well, of a value no wider than its size, goes on to the object. -/
theorem Block.dictWrite_opened {b : Block} {idx sub len v : Nat} (via : Via) (h : b.openWrite idx sub len = Abort.none)
    (hv : v < 256 ^ len) : b.dictWrite via idx sub len v = b.writeObject via idx sub len v :=
  (if_pos h).trans (congrArg (b.writeObject via idx sub len) (Nat.mod_eq_of_lt hv))

/-- A row that is written at any time, of a fixed size, opens for a write of that size. -/
theorem Block.openWrite_fixed {idx sub n : Nat} {r : ObjRow} (b : Block) (hrow : objRow idx sub = some r) (hacc : r.acc = .rw)
    (hsize : r.size = .fixed n) : b.openWrite idx sub n = Abort.none := by
  have hmay : (r.acc == .ro || r.acc == .cst) = false := by rw [hacc]; rfl
  have hany : (r.acc == .rwi && !b.unitIdle idx) = false := by rw [hacc]; rfl
  simp only [Block.openWrite, hrow, hmay, hany, hsize, bne_self_eq_false, Abort.first, Bool.false_eq_true, if_false]

/-- A guarded write whose value its row lets through, and whose condition applies, is aborted with the code of the condition. -/
theorem Block.guarded_second {b : Block} {k v a : Nat} {p : Bool} (f : Block → Block) (hv : checkValue k v = Abort.none)
    (hp : p = true) (ha : a ≠ Abort.none) : b.guarded [badValue k v, (p, a)] f = (a, b) := by
  simp [Block.guarded, badValue, hv, hp, Abort.first, ha]

/-- The rows of WARN and TARGET: read and written at any time, four bytes, each with a range of its own. -/
theorem warn_row : objRow 0x9000 0x02 = some ⟨0x9000, 0x9000, 0x02, 0x02, .i32, .fixed 4, .rw, 400, .signed 32 320 440, 0⟩ := by
  decide +kernel

theorem target_row : objRow 0x9000 0x03 = some ⟨0x9000, 0x9000, 0x03, 0x03, .i32, .fixed 4, .rw, 380, .signed 32 280 420, 0⟩ := by
  decide +kernel

/-- A dictionary write of WARN of four bytes is the write of the warning level. -/
theorem Block.dictWrite_warn (b : Block) (via : Via) {v : Nat} (hv : v < 2 ^ 32) :
    b.dictWrite via 0x9000 0x02 4 v = b.writeWarn v :=
  Block.dictWrite_opened via (b.openWrite_fixed warn_row rfl rfl) hv

/-- A dictionary write of TARGET of four bytes is the write of the throttle target. -/
theorem Block.dictWrite_target (b : Block) (via : Via) {v : Nat} (hv : v < 2 ^ 32) :
    b.dictWrite via 0x9000 0x03 4 v = b.writeTarget v :=
  Block.dictWrite_opened via (b.openWrite_fixed target_row rfl rfl) hv

/-- Settles O41: each of the two levels is judged against the other as it stands. -/
theorem thermalLevels : Obligations.ThermalLevels := by
  intro b via v hv
  refine ⟨fun hrange habove => ?_, fun hrange hbelow => ?_⟩
  · rw [b.dictWrite_target via hv]
    exact Block.guarded_second _ hrange (decide_eq_true habove) (by decide)
  · rw [b.dictWrite_warn via hv]
    exact Block.guarded_second _ hrange (decide_eq_true hbelow) (by decide)

end Sys2Proof.Machine
end

section
/-! PROOFS. Runs of the machine: every step answers, and takes the command in front of the queue. -/

namespace Sys2Proof.Machine

open Sys2Proof

/-- The step answers from every state, and leaves waiting all but the command in front. -/
theorem step_answers (s : State) : ∃ b, step s = .next { pending := s.pending.tail, blk := b } := by
  obtain ⟨p, b⟩ := s
  cases p with
  | nil => exact ⟨b.idle, step_nil b⟩
  | cons c rest => exact exec_answers c { pending := rest, blk := b }

/-- What waits after a step waited behind the command in front. -/
theorem step_pending {s u : State} (h : step s = .next u) : u.pending = s.pending.tail := by
  obtain ⟨b, hb⟩ := step_answers s
  rw [hb] at h
  cases h
  rfl

/-- Settles O6: a step adds no command to those that wait. -/
theorem wellPendingKept : Obligations.WellPendingKept := by
  intro s u hs hstep c hc
  rw [step_pending hstep] at hc
  exact hs c (List.mem_of_mem_tail hc)

/-- What every step keeps holds of whatever is reached from where it holds. -/
theorem Reaches.keeps {P : State → Prop} (hP : ∀ s u, P s → step s = .next u → P u) {s u : State} (h : Reaches s u) (hs : P s) :
    P u := by
  induction h with
  | refl => exact hs
  | tail _ hstep ih => exact hP _ _ ih hstep

/-- A step may also be put in front of those by which a state is reached. -/
theorem Reaches.head {s t u : State} (hstep : step s = .next t) (h : Reaches t u) : Reaches s u := by
  induction h with
  | refl => exact (Reaches.refl s).tail hstep
  | tail _ hlast ih => exact ih.tail hlast

/-- A run of a machine begins with a step. -/
theorem Core.run_succ (M : Host.Core) {s t : M.State} (hstep : M.step s = .next t) (n : Nat) : M.run (n + 1) s = M.run n t := by
  rw [Host.Core.run, hstep]

/-- A run of `n` steps answers a state that they reach, with the first `n` of the waiting commands taken. -/
theorem run_answers (n : Nat) (s : State) : ∃ u, Host.Core.run Sys2Proof.core n s = .next u ∧ Reaches s u ∧
    u.pending = s.pending.drop n := by
  induction n generalizing s with
  | zero => exact ⟨s, rfl, .refl s, rfl⟩
  | succ n ih =>
    obtain ⟨b, hstep⟩ := step_answers s
    obtain ⟨u, hrun, hreach, hpending⟩ := ih { pending := s.pending.tail, blk := b }
    exact ⟨u, (Core.run_succ Sys2Proof.core hstep n).trans hrun, hreach.head hstep, hpending.trans List.drop_tail⟩

/-- Settles O8: by induction on the length of the run, every step of which answers; well-formedness is kept by each (O6). -/
theorem safeRun : Obligations.SafeRun := by
  intro n s
  obtain ⟨u, hrun, hreach, hpending⟩ := run_answers n s
  exact ⟨u, hrun, hreach, hpending, hreach.keeps wellPendingKept⟩

end Sys2Proof.Machine
end

section
/-! PROOFS. The event log (R480): an event joins the newest entry of its code, or makes an entry of its own. -/

namespace Sys2Proof.Machine

open Sys2Proof

/-- The entry of number `seq` repeated once more, and every other entry as it is. -/
def LogEntry.repeated (seq : Nat) (x : LogEntry) : LogEntry :=
  if x.seq = seq then { x with rep := satAdd x.rep 1 0xFFFF } else x

/-- A repetition keeps the entry's number. -/
theorem LogEntry.repeated_seq (seq : Nat) (x : LogEntry) : (x.repeated seq).seq = x.seq := by
  unfold LogEntry.repeated
  split <;> rfl

/-- The entry that is numbered so counts the repetition. -/
theorem LogEntry.repeated_self (e : LogEntry) : e.repeated e.seq = { e with rep := satAdd e.rep 1 0xFFFF } := if_pos rfl

section
variable {b : Block} {code : Nat} {e : LogEntry} (hfind : b.health.log.find? (fun x => x.code == code) = some e)
include hfind

/-- An event that joins the newest entry of its code changes the log, and there nothing but that entry. -/
theorem Block.logEvent_join {kind num : Nat} (data : Nat) (hcode : logCoalesces code = true) (hwindow : b.reg Reg.logCoalesceMs ≠ 0)
    (hjoins : e.joins code kind num b.ts (b.reg Reg.logCoalesceMs * 100000) = true) : b.logEvent code kind num data =
      { b with health := { b.health with log := b.health.log.map (LogEntry.repeated e.seq) } } := by
  simp only [Block.logEvent, hfind]
  rw [if_pos (by simp [hcode, hwindow, hjoins])]
  rfl

/-- With no window an event makes an entry of its own. -/
theorem Block.logEvent_noWindow (kind num data : Nat) (hwindow : b.reg Reg.logCoalesceMs = 0) :
    b.logEvent code kind num data = b.logNew code kind num data := by
  simp only [Block.logEvent, hfind]
  rw [if_neg (by simp [hwindow])]

end

/-- Settles O45: the newest entry of the code is one of the log, so that its repetition is there afterwards. -/
theorem Block.logCoalesces : Obligations.LogCoalesces := by
  intro b code kind num data e hcode hfind
  have hmem : e ∈ b.health.log := List.mem_of_find?_eq_some hfind
  have hsame : e.code = code := by simpa using List.find?_some hfind
  refine ⟨fun hwindow hkind hnum htime => ?_, b.logEvent_noWindow hfind kind num data⟩
  have hjoins : e.joins code kind num b.ts (b.reg Reg.logCoalesceMs * 100000) = true := by
    simp [LogEntry.joins, hsame, hkind, hnum, htime]
  rw [Block.logEvent_join hfind data hcode hwindow hjoins]
  refine ⟨List.length_map _, ?_, ?_, rfl⟩
  · exact (List.map_map).trans (List.map_congr_left fun x _ => x.repeated_seq e.seq)
  · exact List.mem_map.2 ⟨e, hmem, e.repeated_self⟩

end Sys2Proof.Machine
end

section
/-! PROOFS. JTAG (R517 to R519): what an instruction does to the TAP, and where one that drives pins takes effect. -/

namespace Sys2Proof.Machine

open Sys2Proof

/-- With PORn high an instruction changes the TAP. -/
theorem Block.tap_of {b : Block} (h : b.clk.mode ≠ .por) (f : Jtag → Jtag) : b.tap f = { b with jtag := f b.jtag } :=
  if_neg (by simpa using h)

/-- Two changes of the TAP are one. -/
theorem Block.tap_tap (b : Block) (f g : Jtag → Jtag) : (b.tap f).tap g = b.tap (fun j => g (f j)) := by
  by_cases h : b.clk.mode = .por
  · simp [Block.tap, h]
  · simp [Block.tap, h]

/-- The TAP with the instruction of a code selected, and the bypass register. -/
def Jtag.select (code : Nat) (j : Jtag) : Jtag := { j with ir := code, shift := 0 }

section
variable {b : Block} {code : Nat} (hpor : b.clk.mode ≠ .por) (hcode : code ∈ pinInstructions)
include hpor hcode

/-- An instruction that controls pins is in force while CFG_STATE is UNCONFIGURED or FAILED (R518). -/
theorem Block.pinsHeld_select : (b.tap (Jtag.select code)).pinsHeld = true ↔ b.reg Reg.cfgState = 0 ∨ b.reg Reg.cfgState = 4 := by
  have hir : (b.tap (Jtag.select code)).jtag.ir = code := by rw [Block.tap_of hpor]; rfl
  have hreg : (b.tap (Jtag.select code)).reg Reg.cfgState = b.reg Reg.cfgState := by rw [Block.tap_of hpor]; rfl
  simp [Block.pinsHeld, hir, hreg, hcode]

/-- Where it may, an instruction that drives the pins loads the boundary register, and sends outside what that holds. -/
theorem Block.drivePins_held (bits : Nat) (hcfg : b.reg Reg.cfgState = 0 ∨ b.reg Reg.cfgState = 4) : b.drivePins code bits =
    Block.emit { b with jtag := ⟨code, bits % 2 ^ boundaryCells, bits % 2 ^ boundaryCells⟩ } .pin 3
      [code, bits % 2 ^ boundaryCells] := by
  refine (if_pos ((Block.pinsHeld_select hpor hcode).2 hcfg)).trans ?_
  rw [Block.tap_tap, Block.tap_of hpor]

/-- Elsewhere it selects the bypass register and drives nothing. -/
theorem Block.drivePins_bypass (bits : Nat) (hcfg : ¬(b.reg Reg.cfgState = 0 ∨ b.reg Reg.cfgState = 4)) :
    b.drivePins code bits = { b with jtag := b.jtag.select code } :=
  (if_neg (mt (Block.pinsHeld_select hpor hcode).1 hcfg)).trans (Block.tap_of hpor _)

/-- Where it may, an instruction that holds the pins sends outside what they are held at. -/
theorem Block.holdPins_held (bits : Nat) (hcfg : b.reg Reg.cfgState = 0 ∨ b.reg Reg.cfgState = 4) : b.holdPins code bits =
    Block.emit { b with jtag := b.jtag.select code } .pin 3 [code, bits] :=
  (if_pos ((Block.pinsHeld_select hpor hcode).2 hcfg)).trans (congrArg (Block.emit · .pin 3 [code, bits]) (Block.tap_of hpor _))

/-- Elsewhere it selects the bypass register and holds nothing. -/
theorem Block.holdPins_bypass (bits : Nat) (hcfg : ¬(b.reg Reg.cfgState = 0 ∨ b.reg Reg.cfgState = 4)) :
    b.holdPins code bits = { b with jtag := b.jtag.select code } :=
  (if_neg (mt (Block.pinsHeld_select hpor hcode).1 hcfg)).trans (Block.tap_of hpor _)

end

/-- Settles O58: each instruction answers what it does to the TAP; those that control pins by whether R518 lets them. -/
theorem jtagCompletes : Obligations.JtagCompletes := by
  intro s b hb hpor
  subst hb
  refine ⟨State.answers rfl (Block.tap_of hpor _), fun pins bits => State.answers rfl (by simp only [Block.tap_of hpor]),
    State.answers rfl (Block.tap_of hpor _), rfl, fun bits hcfg => ⟨?_, ?_, ?_, ?_, ?_⟩, fun bits h0 h4 => ?_⟩
  · exact State.answers rfl (by rw [Block.drivePins_held hpor (by decide) bits hcfg])
  · exact State.answers rfl (by rw [Block.drivePins_held hpor (by decide) bits hcfg])
  · exact State.answers rfl (by rw [Block.drivePins_held hpor (by decide) bits hcfg])
  · exact State.answers rfl (Block.holdPins_held hpor (by decide) _ hcfg)
  · exact State.answers rfl (Block.holdPins_held hpor (by decide) 0 hcfg)
  · have hcfg := not_or.2 ⟨h0, h4⟩
    exact ⟨State.answers rfl (Block.drivePins_bypass hpor (by decide) bits hcfg),
      State.answers rfl (Block.holdPins_bypass hpor (by decide) _ hcfg),
      State.answers rfl (Block.holdPins_bypass hpor (by decide) 0 hcfg)⟩

end Sys2Proof.Machine
end
